-- ==== Sys2Proof/Word.lean ====
section
/-! DEFINITION. The word types of the part and their plainest arithmetic (spec/00_scope.md R6, spec/01_threads_and_waves.md R12).
Nothing here can differ from the spec by a choice of the model. -/

namespace Sys2Proof

/-- One 32-bit word: a lane's copy of a vector register, a uniform register, an instruction word. -/
abbrev Word := BitVec 32
/-- A 64-bit value, as a register pair holds it (R34). -/
abbrev DWord := BitVec 64
/-- One byte of memory. -/
abbrev Byte := BitVec 8
/-- A set of lanes of one wave: bit i stands for lane i. -/
abbrev LaneMask := BitVec 32
/-- One value for each of the 32 lanes of a wave. -/
abbrev Lanes (α : Type) := Vector α 32

/-- Every lane. -/
def allLanes : LaneMask := BitVec.allOnes 32

/-- The even register in bits [31:0] and the odd one in bits [63:32] (R34). -/
def pairOf (lo hi : Word) : DWord := hi ++ lo

/-- Bits [31:0] of a pair. -/
def loWord (x : DWord) : Word := x.setWidth 32
/-- Bits [63:32] of a pair. -/
def hiWord (x : DWord) : Word := (x >>> 32).setWidth 32

/-- The mask of the lanes for which f holds. -/
def maskOf (f : Fin 32 → Bool) : LaneMask := BitVec.ofFnLE f

/-- The lanes of a mask in ascending order. -/
def maskLanes (m : LaneMask) : List (Fin 32) := (List.finRange 32).filter (fun i => m.getLsbD i)

/-- The number of lanes in a mask. -/
def maskCount (m : LaneMask) : Nat := (maskLanes m).length

/-- The lowest lane of a mask. -/
def lowestLane (m : LaneMask) : Option (Fin 32) := (maskLanes m).head?

end Sys2Proof
end

