-- ==== Sys2Proof/Syntax.lean ====
section
/-! DEFINITION. Every row of spec/opcode_table.json as a constructor of Instr. The 202 instruction words carry one record of the
fields of their format (spec/03_instruction_words.md R62, R63); a literal word (R60, R69) stands in the field lit, zero when no
literal-capable field holds 63. The 140 rows that have no encoding are the part's own moves, its host's and its fabric's
(spec/95_what_each_step_holds.md); their constructors say where the move happens and what comes in from outside. -/

namespace Sys2Proof

/-- Lane format V3 (R62): D A B KA KB G GN; lit is the literal word. -/
structure V3 where
  d : BitVec 6
  a : BitVec 6
  b : BitVec 6
  ka : Bool
  kb : Bool
  g : BitVec 3
  gn : Bool
  lit : Word
  deriving DecidableEq, Repr
/-- Lane format V4: D A B C. -/
structure V4 where
  d : BitVec 6
  a : BitVec 6
  b : BitVec 6
  c : BitVec 6
  lit : Word
  deriving DecidableEq, Repr
/-- Lane format VI: D A IMM12. VS has the same layout. -/
structure VI where
  d : BitVec 6
  a : BitVec 6
  imm : BitVec 12
  deriving DecidableEq, Repr
/-- Lane format VC: PD CC A B KA KB G GN. -/
structure VC where
  pd : BitVec 3
  cc : BitVec 3
  a : BitVec 6
  b : BitVec 6
  ka : Bool
  kb : Bool
  g : BitVec 3
  gn : Bool
  lit : Word
  deriving DecidableEq, Repr
/-- Lane format VP: PD PA PB PC TT G GN. -/
structure VP where
  pd : BitVec 3
  pa : BitVec 3
  pb : BitVec 3
  pc : BitVec 3
  tt : BitVec 8
  g : BitVec 3
  gn : Bool
  deriving DecidableEq, Repr
/-- Lane format VB: P PN OFF20. UB has the same layout. -/
structure VB where
  p : BitVec 3
  pn : Bool
  off : BitVec 20
  deriving DecidableEq, Repr
/-- Lane format VM: D A BR CH IMM6. -/
structure VM where
  d : BitVec 6
  a : BitVec 6
  br : BitVec 4
  ch : BitVec 2
  imm : BitVec 6
  deriving DecidableEq, Repr
/-- Lane format VMA: D A BR SZ SC IMM4. -/
structure VMA where
  d : BitVec 6
  a : BitVec 6
  br : BitVec 4
  sz : Bool
  sc : BitVec 3
  imm : BitVec 4
  deriving DecidableEq, Repr
/-- Lane format VA: D A BR AOP SC NR. -/
structure VA where
  d : BitVec 6
  a : BitVec 6
  br : BitVec 4
  aop : BitVec 4
  sc : BitVec 3
  nr : Bool
  deriving DecidableEq, Repr
/-- Lane format VSA: D A AOP NR IMM7. -/
structure VSA where
  d : BitVec 6
  a : BitVec 6
  aop : BitVec 4
  nr : Bool
  imm : BitVec 7
  deriving DecidableEq, Repr
/-- Lane format VX: D A B FN. -/
structure VX where
  d : BitVec 6
  a : BitVec 6
  b : BitVec 6
  fn : BitVec 6
  lit : Word
  deriving DecidableEq, Repr
/-- Lane format VT: D SA SB FN. -/
structure VT where
  d : BitVec 6
  sa : BitVec 6
  sb : BitVec 6
  fn : BitVec 6
  deriving DecidableEq, Repr
/-- Uniform format U3 (R63): D A B QG QN and two reserved bits. -/
structure U3 where
  d : BitVec 6
  a : BitVec 6
  b : BitVec 6
  qg : BitVec 3
  qn : Bool
  rz : BitVec 2
  lit : Word
  deriving DecidableEq, Repr
/-- Uniform format UI: D A IMM12. -/
structure UI where
  d : BitVec 6
  a : BitVec 6
  imm : BitVec 12
  deriving DecidableEq, Repr
/-- Uniform format UW: D IMM18. -/
structure UW where
  d : BitVec 6
  imm : BitVec 18
  deriving DecidableEq, Repr
/-- Uniform format UL: A OFF18. -/
structure UL where
  a : BitVec 6
  off : BitVec 18
  deriving DecidableEq, Repr
/-- Uniform format UCC: QD CC A B QG QN and two reserved bits. -/
structure UCC where
  qd : BitVec 3
  cc : BitVec 3
  a : BitVec 6
  b : BitVec 6
  qg : BitVec 3
  qn : Bool
  rz : BitVec 2
  lit : Word
  deriving DecidableEq, Repr
/-- Uniform format UF: SC KIND and nineteen reserved bits. -/
structure UF where
  sc : BitVec 3
  kind : BitVec 2
  rz : BitVec 19
  deriving DecidableEq, Repr
/-- Uniform format UK: SET T0 T1 T2 T3. -/
structure UK where
  set : BitVec 4
  t0 : BitVec 5
  t1 : BitVec 5
  t2 : BitVec 5
  t3 : BitVec 5
  deriving DecidableEq, Repr
/-- Uniform format UC: A B C FN. -/
structure UC where
  a : BitVec 6
  b : BitVec 6
  c : BitVec 6
  fn : BitVec 6
  deriving DecidableEq, Repr
/-- Uniform format UR: D A QD W SP SC and four reserved bits. -/
structure UR where
  d : BitVec 6
  a : BitVec 6
  qd : BitVec 3
  w : Bool
  sp : Bool
  sc : BitVec 3
  rz : BitVec 4
  deriving DecidableEq, Repr

/-- A wave's place: core number (die × 32 + cluster) × 4 + core, 0 to 1,023, and wave slot 0 to 63 (R2, R158, R170). -/
structure WaveKey where
  core : Nat
  slot : Nat
  deriving DecidableEq, Repr

/-- The header of a host message (spec/21_host_and_fabric.md R421), the OP code included; qp names the queue pair it came on (R420). -/
structure Hdr where
  op : BitVec 8
  resv : BitVec 6
  event : Bool
  resp : Bool
  vmaj : BitVec 8
  vmin : BitVec 8
  session : Word
  seq : Word
  length : Word
  ctx : Word
  status : Word
  resv2 : DWord
  qp : Nat
  srcIp : Nat
  deriving DecidableEq, Repr

/-- The payload of CREATE_CTX (R422): sizes in bytes. debug attaches a debugger at creation (spec/20_package_programs.md). -/
structure CtxArgs where
  codeBase : BitVec 56
  tvec : Word
  window : Nat
  swapSize : Nat
  ckptSize : Nat
  journalMiB : Nat
  debug : Bool
  deriving DecidableEq, Repr

/-- The payload of MAP (R422, R449, R353): place gives a frame's physical address, or none to let the firmware choose. -/
structure MapArgs where
  va : Nat
  size : Nat
  leafLevel : Nat
  r : Bool
  w : Bool
  x : Bool
  home : BitVec 2
  mtype : BitVec 2
  state : BitVec 2
  psn : Bool
  stack : Nat
  place : Option Nat
  unmap : Bool
  deriving DecidableEq, Repr

/-- The attributes of CREATE_QUEUE (R302). -/
structure QueueArgs where
  qid : Nat
  block : BitVec 56
  render : Bool
  pxpois : Bool
  deriving DecidableEq, Repr

/-- One node window of FABMAP (R434): sizes in GiB. -/
structure NodeWindow where
  base : Nat
  gib : Nat
  node : Nat
  ports : BitVec 32
  deriving DecidableEq, Repr

/-- A collective group of CGROUP (R428): identities in rank order, this module's rank, the staging address. -/
structure CGroupArgs where
  group : Nat
  members : List Nat
  rank : Nat
  staging : Nat
  deriving DecidableEq, Repr

/-- What SUBMIT carries (R422): one task record, or a pass record's address with its render task records. -/
inductive Submission where
  | task (bytes : List Byte)
  | pass (addr : BitVec 56) (tasks : List (List Byte))
  deriving DecidableEq, Repr

/-- What the package controller answers for one page it services (R363). -/
inductive PageAnswer where
  | mapped (m : MapArgs)
  | refused
  deriving DecidableEq, Repr

/-- A register of a wave, as the debug interface names it (R422, DEBUG; R29 to R31). -/
inductive DebugReg where
  | v (n lane : Nat)
  | s (n : Nat)
  | p (n lane : Nat)
  | q (n : Nat)
  | b (n : Nat)
  | pc (lane : Nat)
  | fpc
  | trap (n : Nat)
  deriving DecidableEq, Repr

/-- One member's contribution to a collective (R440), as the staging area delivers it. -/
structure Contribution where
  rank : Nat
  fn : BitVec 6
  count : Nat
  root : Nat
  data : List Byte
  deriving DecidableEq, Repr

/-- A firmware patch offered at reset (R429): whether its signature verifies, its security version, its hash. -/
structure Patch where
  signed : Bool
  version : Nat
  hash : BitVec 384
  deriving DecidableEq, Repr

/-- One constructor per row of spec/opcode_table.json, in the table's order. -/
inductive Instr where
  /-- NOP, primary opcode 0x00, format V3 (R90). -/
  | nop (f : V3)
  /-- MOV, primary opcode 0x01, format V3 (R91). -/
  | mov (f : V3)
  /-- MOVI, primary opcode 0x02, format VI (R91). -/
  | movi (f : VI)
  /-- BCAST, primary opcode 0x03, format VI (R91). -/
  | bcast (f : VI)
  /-- SEL, primary opcode 0x04, format V3 (R92). -/
  | sel (f : V3)
  /-- PERM, primary opcode 0x05, format V4 (R93). -/
  | perm (f : V4)
  /-- IADD, primary opcode 0x06, format V3 (R94). -/
  | iadd (f : V3)
  /-- ISUB, primary opcode 0x07, format V3 (R94). -/
  | isub (f : V3)
  /-- IADDI, primary opcode 0x08, format VI (R96). -/
  | iaddi (f : VI)
  /-- IMUL, primary opcode 0x09, format V3 (R94). -/
  | imul (f : V3)
  /-- IMULHS, primary opcode 0x0A, format V3 (R94). -/
  | imulhs (f : V3)
  /-- IMULHU, primary opcode 0x0B, format V3 (R94). -/
  | imulhu (f : V3)
  /-- IMAD, primary opcode 0x0C, format V4 (R97). -/
  | imad (f : V4)
  /-- IMULWS, primary opcode 0x0D, format V3 (R98). -/
  | imulws (f : V3)
  /-- IMULWU, primary opcode 0x0E, format V3 (R98). -/
  | imulwu (f : V3)
  /-- IADD64, primary opcode 0x0F, format V3 (R98). -/
  | iadd64 (f : V3)
  /-- ISUB64, primary opcode 0x10, format V3 (R98). -/
  | isub64 (f : V3)
  /-- IMIN, primary opcode 0x11, format V3 (R94). -/
  | imin (f : V3)
  /-- IMAX, primary opcode 0x12, format V3 (R94). -/
  | imax (f : V3)
  /-- UMIN, primary opcode 0x13, format V3 (R94). -/
  | umin (f : V3)
  /-- UMAX, primary opcode 0x14, format V3 (R94). -/
  | umax (f : V3)
  /-- IABS, primary opcode 0x15, format V3 (R95). -/
  | iabs (f : V3)
  /-- AND, primary opcode 0x16, format V3 (R94). -/
  | and (f : V3)
  /-- OR, primary opcode 0x17, format V3 (R94). -/
  | or (f : V3)
  /-- XOR, primary opcode 0x18, format V3 (R94). -/
  | xor (f : V3)
  /-- ANDN, primary opcode 0x19, format V3 (R94). -/
  | andn (f : V3)
  /-- ANDI, primary opcode 0x1A, format VI (R96). -/
  | andi (f : VI)
  /-- ORI, primary opcode 0x1B, format VI (R96). -/
  | ori (f : VI)
  /-- XORI, primary opcode 0x1C, format VI (R96). -/
  | xori (f : VI)
  /-- SHL, primary opcode 0x1D, format V3 (R94). -/
  | shl (f : V3)
  /-- SHR, primary opcode 0x1E, format V3 (R94). -/
  | shr (f : V3)
  /-- SAR, primary opcode 0x1F, format V3 (R94). -/
  | sar (f : V3)
  /-- SHLI, primary opcode 0x20, format VI (R96). -/
  | shli (f : VI)
  /-- SHRI, primary opcode 0x21, format VI (R96). -/
  | shri (f : VI)
  /-- SARI, primary opcode 0x22, format VI (R96). -/
  | sari (f : VI)
  /-- SHF, primary opcode 0x23, format V4 (R99). -/
  | shf (f : V4)
  /-- BFEU, primary opcode 0x24, format V4 (R100). -/
  | bfeu (f : V4)
  /-- BFES, primary opcode 0x25, format V4 (R100). -/
  | bfes (f : V4)
  /-- BFI, primary opcode 0x26, format V4 (R100). -/
  | bfi (f : V4)
  /-- BIT, primary opcode 0x27, format VX (R101). -/
  | bit (f : VX)
  /-- ICMP, primary opcode 0x28, format VC (R102). -/
  | icmp (f : VC)
  /-- ICMP64, primary opcode 0x29, format VC (R102). -/
  | icmp64 (f : VC)
  /-- FCMP, primary opcode 0x2A, format VC (R111). -/
  | fcmp (f : VC)
  /-- DCMP, primary opcode 0x2B, format VC (R111). -/
  | dcmp (f : VC)
  /-- PLOG, primary opcode 0x2C, format VP (R103). -/
  | plog (f : VP)
  /-- PMOV, primary opcode 0x2D, format VX (R104). -/
  | pmov (f : VX)
  /-- FADD, primary opcode 0x2E, format V3 (R107). -/
  | fadd (f : V3)
  /-- FSUB, primary opcode 0x2F, format V3 (R107). -/
  | fsub (f : V3)
  /-- FMUL, primary opcode 0x30, format V3 (R107). -/
  | fmul (f : V3)
  /-- FFMA, primary opcode 0x31, format V4 (R109). -/
  | ffma (f : V4)
  /-- FMIN, primary opcode 0x32, format V3 (R107). -/
  | fmin (f : V3)
  /-- FMAX, primary opcode 0x33, format V3 (R107). -/
  | fmax (f : V3)
  /-- FMINN, primary opcode 0x34, format V3 (R107). -/
  | fminn (f : V3)
  /-- FMAXN, primary opcode 0x35, format V3 (R107). -/
  | fmaxn (f : V3)
  /-- FSGN, primary opcode 0x36, format VX (R112). -/
  | fsgn (f : VX)
  /-- FDIV, primary opcode 0x37, format V3 (R107). -/
  | fdiv (f : V3)
  /-- FSQRT, primary opcode 0x38, format V3 (R107). -/
  | fsqrt (f : V3)
  /-- FSFU, primary opcode 0x39, format VX (R113). -/
  | fsfu (f : VX)
  /-- FRND, primary opcode 0x3A, format VX (R115). -/
  | frnd (f : VX)
  /-- DADD, primary opcode 0x3B, format V3 (R107). -/
  | dadd (f : V3)
  /-- DSUB, primary opcode 0x3C, format V3 (R107). -/
  | dsub (f : V3)
  /-- DMUL, primary opcode 0x3D, format V3 (R107). -/
  | dmul (f : V3)
  /-- DFMA, primary opcode 0x3E, format V4 (R109). -/
  | dfma (f : V4)
  /-- DMIN, primary opcode 0x3F, format V3 (R107). -/
  | dmin (f : V3)
  /-- DMAX, primary opcode 0x40, format V3 (R107). -/
  | dmax (f : V3)
  /-- DDIV, primary opcode 0x41, format V3 (R107). -/
  | ddiv (f : V3)
  /-- DSQRT, primary opcode 0x42, format V3 (R107). -/
  | dsqrt (f : V3)
  /-- DSFU, primary opcode 0x43, format VX (R116). -/
  | dsfu (f : VX)
  /-- HADD2, primary opcode 0x44, format V3 (R110). -/
  | hadd2 (f : V3)
  /-- HMUL2, primary opcode 0x45, format V3 (R110). -/
  | hmul2 (f : V3)
  /-- HFMA2, primary opcode 0x46, format V4 (R110). -/
  | hfma2 (f : V4)
  /-- HMNX2, primary opcode 0x47, format VX (R110). -/
  | hmnx2 (f : VX)
  /-- BADD2, primary opcode 0x48, format V3 (R110). -/
  | badd2 (f : V3)
  /-- BMUL2, primary opcode 0x49, format V3 (R110). -/
  | bmul2 (f : V3)
  /-- BFMA2, primary opcode 0x4A, format V4 (R110). -/
  | bfma2 (f : V4)
  /-- CVT, primary opcode 0x4B, format VX (R117). -/
  | cvt (f : VX)
  /-- NCVT, primary opcode 0x4C, format VX (R118). -/
  | ncvt (f : VX)
  /-- REGRP, primary opcode 0x4D, format VX (R246). -/
  | regrp (f : VX)
  /-- BRA, primary opcode 0x4E, format VB (R120). -/
  | bra (f : VB)
  /-- CALL, primary opcode 0x4F, format VB (R120). -/
  | call (f : VB)
  /-- BRX, primary opcode 0x50, format V3 (R121). -/
  | brx (f : V3)
  /-- CALLX, primary opcode 0x51, format V3 (R121). -/
  | callx (f : V3)
  /-- RET, primary opcode 0x52, format V3 (R121). -/
  | ret (f : V3)
  /-- EXIT, primary opcode 0x53, format V3 (R123). -/
  | exit (f : V3)
  /-- TRAP, primary opcode 0x54, format VI (R124). -/
  | trap (f : VI)
  /-- BKPT, primary opcode 0x55, format V3 (R125). -/
  | bkpt (f : V3)
  /-- VOTE, primary opcode 0x56, format VX (R128). -/
  | vote (f : VX)
  /-- SHFL, primary opcode 0x57, format VX (R129). -/
  | shfl (f : VX)
  /-- WRED, primary opcode 0x58, format VX (R130). -/
  | wred (f : VX)
  /-- WSCAN, primary opcode 0x59, format VX (R130). -/
  | wscan (f : VX)
  /-- WARGX, primary opcode 0x5A, format VX (R131). -/
  | wargx (f : VX)
  /-- MATCH, primary opcode 0x5B, format V3 (R132). -/
  | matchEq (f : V3)
  /-- ELECT, primary opcode 0x5C, format VC (R133). -/
  | elect (f : VC)
  /-- LDB, primary opcode 0x5D, format VM (R184). -/
  | ldb (f : VM)
  /-- LDBU, primary opcode 0x5E, format VM (R184). -/
  | ldbu (f : VM)
  /-- LDH, primary opcode 0x5F, format VM (R184). -/
  | ldh (f : VM)
  /-- LDHU, primary opcode 0x60, format VM (R184). -/
  | ldhu (f : VM)
  /-- LDW, primary opcode 0x61, format VM (R184). -/
  | ldw (f : VM)
  /-- LDD, primary opcode 0x62, format VM (R184). -/
  | ldd (f : VM)
  /-- LDQ, primary opcode 0x63, format VM (R184). -/
  | ldq (f : VM)
  /-- STB, primary opcode 0x64, format VM (R184). -/
  | stb (f : VM)
  /-- STH, primary opcode 0x65, format VM (R184). -/
  | sth (f : VM)
  /-- STW, primary opcode 0x66, format VM (R184). -/
  | stw (f : VM)
  /-- STD, primary opcode 0x67, format VM (R184). -/
  | std (f : VM)
  /-- STQ, primary opcode 0x68, format VM (R184). -/
  | stq (f : VM)
  /-- LDAQ, primary opcode 0x69, format VMA (R187). -/
  | ldaq (f : VMA)
  /-- STRL, primary opcode 0x6A, format VMA (R187). -/
  | strl (f : VMA)
  /-- ATOM, primary opcode 0x6B, format VA (R188). -/
  | atom (f : VA)
  /-- ATOMS, primary opcode 0x6C, format VSA (R192). -/
  | atoms (f : VSA)
  /-- LDSW, primary opcode 0x6D, format VS (R190). -/
  | ldsw (f : VI)
  /-- LDSD, primary opcode 0x6E, format VS (R190). -/
  | ldsd (f : VI)
  /-- LDSQ, primary opcode 0x6F, format VS (R190). -/
  | ldsq (f : VI)
  /-- STSW, primary opcode 0x70, format VS (R190). -/
  | stsw (f : VI)
  /-- STSD, primary opcode 0x71, format VS (R190). -/
  | stsd (f : VI)
  /-- STSQ, primary opcode 0x72, format VS (R190). -/
  | stsq (f : VI)
  /-- STSR, primary opcode 0x73, format VS (R268). -/
  | stsr (f : VI)
  /-- MMAD, primary opcode 0x74, format VT (R220). -/
  | mmad (f : VT)
  /-- MMAS, primary opcode 0x75, format VT (R220). -/
  | mmas (f : VT)
  /-- MMAH, primary opcode 0x76, format VT (R220). -/
  | mmah (f : VT)
  /-- MMAB, primary opcode 0x77, format VT (R220). -/
  | mmab (f : VT)
  /-- MMAN, primary opcode 0x78, format VT (R220). -/
  | mman (f : VT)
  /-- MMAQ, primary opcode 0x79, format VT (R220). -/
  | mmaq (f : VT)
  /-- MMASP, primary opcode 0x7A, format VT (R220). -/
  | mmasp (f : VT)
  /-- ACCST, primary opcode 0x7B, format VT (R227). -/
  | accst (f : VT)
  /-- PXLOCK, primary opcode 0x7C, format V3 (R397). -/
  | pxlock (f : V3)
  /-- PXEXP, primary opcode 0x7D, format VX (R395). -/
  | pxexp (f : VX)
  /-- PXKILL, primary opcode 0x7E, format V3 (R396). -/
  | pxkill (f : V3)
  /-- PXREL, primary opcode 0x7F, format V3 (R397). -/
  | pxrel (f : V3)
  /-- UNOP, primary opcode 0x80, format U3 (R137). -/
  | unop (f : U3)
  /-- UMOV, primary opcode 0x81, format U3 (R137). -/
  | umov (f : U3)
  /-- UMOVI, primary opcode 0x82, format UW (R137). -/
  | umovi (f : UW)
  /-- UADD, primary opcode 0x83, format U3 (R137). -/
  | uadd (f : U3)
  /-- USUB, primary opcode 0x84, format U3 (R137). -/
  | usub (f : U3)
  /-- UADDI, primary opcode 0x85, format UI (R137). -/
  | uaddi (f : UI)
  /-- UMUL, primary opcode 0x86, format U3 (R137). -/
  | umul (f : U3)
  /-- UMULHU, primary opcode 0x87, format U3 (R137). -/
  | umulhu (f : U3)
  /-- UADD64, primary opcode 0x88, format U3 (R137). -/
  | uadd64 (f : U3)
  /-- USUB64, primary opcode 0x89, format U3 (R137). -/
  | usub64 (f : U3)
  /-- UMIN_UNIFORM, primary opcode 0x8A, format U3 (R137). -/
  | uminUniform (f : U3)
  /-- UMAX_UNIFORM, primary opcode 0x8B, format U3 (R137). -/
  | umaxUniform (f : U3)
  /-- UMINU, primary opcode 0x8C, format U3 (R137). -/
  | uminu (f : U3)
  /-- UMAXU, primary opcode 0x8D, format U3 (R137). -/
  | umaxu (f : U3)
  /-- UAND, primary opcode 0x8E, format U3 (R137). -/
  | uand (f : U3)
  /-- UOR, primary opcode 0x8F, format U3 (R137). -/
  | uor (f : U3)
  /-- UXOR, primary opcode 0x90, format U3 (R137). -/
  | uxor (f : U3)
  /-- UANDI, primary opcode 0x91, format UI (R137). -/
  | uandi (f : UI)
  /-- UORI, primary opcode 0x92, format UI (R137). -/
  | uori (f : UI)
  /-- USHL, primary opcode 0x93, format U3 (R137). -/
  | ushl (f : U3)
  /-- USHR, primary opcode 0x94, format U3 (R137). -/
  | ushr (f : U3)
  /-- USAR, primary opcode 0x95, format U3 (R137). -/
  | usar (f : U3)
  /-- USHLI, primary opcode 0x96, format UI (R137). -/
  | ushli (f : UI)
  /-- USHRI, primary opcode 0x97, format UI (R137). -/
  | ushri (f : UI)
  /-- UBFE, primary opcode 0x98, format UI (R138). -/
  | ubfe (f : UI)
  /-- UBIT, primary opcode 0x99, format UI (R137). -/
  | ubit (f : UI)
  /-- UCMP, primary opcode 0x9A, format UCC (R139). -/
  | ucmp (f : UCC)
  /-- USEL, primary opcode 0x9B, format U3 (R139). -/
  | usel (f : U3)
  /-- QLOG, primary opcode 0x9C, format UQP (R139). -/
  | qlog (f : VP)
  /-- UFADD, primary opcode 0x9D, format U3 (R140). -/
  | ufadd (f : U3)
  /-- UFMUL, primary opcode 0x9E, format U3 (R140). -/
  | ufmul (f : U3)
  /-- UCVT, primary opcode 0x9F, format UI (R140). -/
  | ucvt (f : UI)
  /-- UBRA, primary opcode 0xA0, format UB (R141). -/
  | ubra (f : VB)
  /-- UCALL, primary opcode 0xA1, format UB (R141). -/
  | ucall (f : VB)
  /-- UBRX, primary opcode 0xA2, format U3 (R141). -/
  | ubrx (f : U3)
  /-- URET, primary opcode 0xA3, format U3 (R141). -/
  | uret (f : U3)
  /-- ULOOP, primary opcode 0xA4, format UL (R142). -/
  | uloop (f : UL)
  /-- RDLANE, primary opcode 0xA5, format UI (R143). -/
  | rdlane (f : UI)
  /-- ACTM, primary opcode 0xA6, format U3 (R143). -/
  | actm (f : U3)
  /-- SREAD, primary opcode 0xA7, format UI (R144). -/
  | sread (f : UI)
  /-- SWRITE, primary opcode 0xA8, format UI (R144). -/
  | swrite (f : UI)
  /-- FENCE, primary opcode 0xA9, format UF (R197). -/
  | fence (f : UF)
  /-- WAIT, primary opcode 0xAA, format UK (R195). -/
  | wait (f : UK)
  /-- WAITX, primary opcode 0xAB, format UK (R195). -/
  | waitx (f : UK)
  /-- BARINIT, primary opcode 0xAC, format U3 (R200). -/
  | barinit (f : U3)
  /-- BARARV, primary opcode 0xAD, format U3 (R200). -/
  | bararv (f : U3)
  /-- BARWT, primary opcode 0xAE, format U3 (R200). -/
  | barwt (f : U3)
  /-- BARSYNC, primary opcode 0xAF, format U3 (R200). -/
  | barsync (f : U3)
  /-- GBARV, primary opcode 0xB0, format U3 (R273). -/
  | gbarv (f : U3)
  /-- GBWT, primary opcode 0xB1, format U3 (R274). -/
  | gbwt (f : U3)
  /-- GBSET, primary opcode 0xB2, format U3 (R272). -/
  | gbset (f : U3)
  /-- RACQ, primary opcode 0xB3, format UR (R204). -/
  | racq (f : UR)
  /-- RCMT, primary opcode 0xB4, format UR (R204). -/
  | rcmt (f : UR)
  /-- RPEEK, primary opcode 0xB5, format UR (R204). -/
  | rpeek (f : UR)
  /-- RREL, primary opcode 0xB6, format UR (R204). -/
  | rrel (f : UR)
  /-- TLOAD, primary opcode 0xB7, format UC (R211). -/
  | tload (f : UC)
  /-- TSTORE, primary opcode 0xB8, format UC (R211). -/
  | tstore (f : UC)
  /-- TGATH, primary opcode 0xB9, format UC (R211). -/
  | tgath (f : UC)
  /-- TMCAST, primary opcode 0xBA, format UC (R211). -/
  | tmcast (f : UC)
  /-- NMV, primary opcode 0xBB, format UC (R410). -/
  | nmv (f : UC)
  /-- RGNB, primary opcode 0xBC, format UC (R231). -/
  | rgnb (f : UC)
  /-- RGNC, primary opcode 0xBD, format U3 (R237). -/
  | rgnc (f : U3)
  /-- RGNA, primary opcode 0xBE, format U3 (R244). -/
  | rgna (f : U3)
  /-- SAFEPT, primary opcode 0xBF, format UC (R150). -/
  | safept (f : UC)
  /-- FREE, primary opcode 0xC0, format U3 (R148). -/
  | free (f : U3)
  /-- YIELD, primary opcode 0xC1, format U3 (R149). -/
  | yield (f : U3)
  /-- TTAKE, primary opcode 0xC2, format UCC (R307). -/
  | ttake (f : UCC)
  /-- TSPAWN, primary opcode 0xC3, format UR (R315). -/
  | tspawn (f : UR)
  /-- TTRIG, primary opcode 0xC4, format U3 (R312). -/
  | ttrig (f : U3)
  /-- PRIM, primary opcode 0xC5, format UC (R379). -/
  | prim (f : UC)
  /-- COLL, primary opcode 0xC6, format UC (R439). -/
  | coll (f : UC)
  /-- RECLD, primary opcode 0xC7, format UI (R180). -/
  | recld (f : UI)
  /-- TRAPU, primary opcode 0xC8, format UI (R154). -/
  | trapu (f : UI)
  /-- RTT, primary opcode 0xC9, format U3 (R153). -/
  | rtt (f : U3)
  /-- ERRINJ_WRITE (R147): Arms one injected error for the writing wave. -/
  | errinjWrite (w : WaveKey) (value : Word)
  /-- CLOCK_READ_LATCH (R146): Reading CLOCKLO or PTIMELO returns the low half and latches the high half. -/
  | clockReadLatch (w : WaveKey) (time : Bool) (d : BitVec 6)
  /-- YIELD_EXPIRY (R149): A yielding path becomes ready again when its span ends. -/
  | yieldExpiry (w : WaveKey) (lanes : LaneMask)
  /-- ADDRESS_MATCH_STOP (R30): An address match stops the wave before the matched instruction. -/
  | addressMatchStop (w : WaveKey) (pc : Word)
  /-- LOAD_DATA_ARRIVAL (R185): A load's value arrives and is written into its lanes. -/
  | loadDataArrival (w : WaveKey) (op : Nat)
  /-- STORE_ACKNOWLEDGE (R193): A store, release or atomic is acknowledged by its level. -/
  | storeAcknowledge (w : WaveKey) (op : Nat)
  /-- WAIT_COMPLETE (R195): A WAIT or WAITX finds its thresholds met and its path moves on. -/
  | waitComplete (w : WaveKey) (pc : Word)
  /-- FENCE_ACTION_COMPLETE (R197): A fence's completion and push are done and later accesses become ready. -/
  | fenceActionComplete (w : WaveKey)
  /-- WAVE_RETIRE (R27): The last EXIT's wait completes and the wave retires, freeing its resources. -/
  | waveRetire (w : WaveKey)
  /-- ROW_GRANT (R167): Freed pool rows go to the head of the register-grow queue. -/
  | rowGrant (core : Nat)
  /-- SWAP_CANDIDACY_TIMEOUT (R168): A wave blocked over 4,096 clocks becomes a swap-out candidate. -/
  | swapCandidacyTimeout (w : WaveKey)
  /-- SWAP_OUT (R168): A wave's mapped rows are copied out and freed. -/
  | swapOut (w : WaveKey)
  /-- SWAP_GRANULE_DRAIN (R169): The swap granule drains rows to the context's swap area. -/
  | swapGranuleDrain (w : WaveKey)
  /-- SWAP_RESTORE (R169): A swapped wave at the queue head gets its rows back. -/
  | swapRestore (w : WaveKey)
  /-- SPLIT_CHANGE (R163): The core moves granules between pool, scratchpad and L1. -/
  | splitChange (core : Nat)
  /-- ROW_RELOCATION (R163): Mapped rows move out of a draining granule. -/
  | rowRelocation (w : WaveKey) (name : Nat)
  /-- L1_EVICTION (R186): An L1 line is evicted and its dirty bytes written home. -/
  | l1Eviction (core ctx line : Nat)
  /-- TEAM_ADMISSION (R171): A team is admitted and its waves placed on a core. -/
  | teamAdmission (team core : Nat)
  /-- CREW_ADMISSION (R265): A whole crew is placed on cores of one cluster. -/
  | crewAdmission (crew cluster : Nat)
  /-- CREW_RESERVATION (R266): A crew waiting over 1 ms reserves a cluster. -/
  | crewReservation (crew die : Nat)
  /-- PREEMPT_REQUEST (R172): A pre-emption request reaches a team. -/
  | preemptRequest (team : Nat)
  /-- FORCED_STOP (R172): A wave not stopped within 100 µs is stopped at a boundary. -/
  | forcedStop (w : WaveKey)
  /-- TEAM_SAVE (R172): A stopped and drained team is saved to its save area. -/
  | teamSave (team : Nat)
  /-- TEAM_RESTORE (R172): A saved team is restored on an admitting core. -/
  | teamRestore (crew cluster : Nat)
  /-- PRIORITY_PREEMPTION (R317): A head unplaced for 100 µs pre-empts lower-priority crews. -/
  | priorityPreemption
  /-- THERMAL_MIGRATION (R318): A team hot for 50 ms is migrated to a cooler cluster. -/
  | thermalMigration (team : Nat)
  /-- LANE_RETIREMENT (R177): A failing lane is remapped onto the spare once the core is empty. -/
  | laneRetirement (core quarter phys : Nat)
  /-- REPLAY_PLACEMENT (R276): The recovery sequencer places the replayed team on a new cluster. -/
  | replayPlacement (team : Nat)
  /-- RENDEZVOUS_COMPLETE (R230): Every live wave has arrived and the team-level effect happens. -/
  | rendezvousComplete (team : Nat)
  /-- RGNC_COMPLETION (R237): Journal writes and held atomics are acknowledged and RGNC completes. -/
  | rgncCompletion (team : Nat)
  /-- BAR_TIMEOUT (R202): A barrier wait exceeds BWDT, a record is logged and the wave traps. -/
  | barTimeout (w : WaveKey) (pc : Word)
  /-- RENDEZVOUS_TIMEOUT (R230): A rendezvous wait exceeds BWDT. -/
  | rendezvousTimeout (w : WaveKey)
  /-- GROUP_BARRIER_TIMEOUT (R274): A GBWT wait exceeds BWDT. -/
  | groupBarrierTimeout (w : WaveKey) (pc : Word)
  /-- RING_RETRY (R204): A waiting ring operation retries when the ring allows it. -/
  | ringRetry (w : WaveKey) (pc : Word)
  /-- RING_TIMEOUT (R205): A ring or TSPAWN wait exceeds RWDT. -/
  | ringTimeout (w : WaveKey) (pc : Word)
  /-- ARMED_MAP_UPDATE (R270): A member core updates its armed map and replies after earlier STSRs land. -/
  | armedMapUpdate (w : WaveKey) (core : Nat)
  /-- BARINIT_REPLIES_DONE (R270): All member replies arrive and BARINIT completes. -/
  | barinitRepliesDone (w : WaveKey) (pc : Word)
  /-- STSR_PERFORM (R269): An STSR's words are written at the member. -/
  | stsrPerform (w : WaveKey) (op : Nat)
  /-- TTRIG_MARK (R312): After the release is done the path's threads are marked triggered. -/
  | ttrigMark (w : WaveKey)
  /-- DEPENDENCE_REEVALUATION (R304): Queue heads are re-evaluated every 10 µs or at a completion. -/
  | dependenceReevaluation
  /-- TASK_SELECT (R305): The package dispatcher chooses a ready head and places its first crew. -/
  | taskSelect
  /-- PRIORITY_AGING (R305): A waiting head gains effective priority each millisecond. -/
  | priorityAging (ctx qid : Nat)
  /-- RANGE_SPLIT (R308): A crew's range is halved and a new crew launched into the room. -/
  | rangeSplit (cluster : Nat)
  /-- DISPATCHER_ACCESS_FAULT (R451): A dispatcher access for a task fails and is handled by its table. -/
  | dispatcherAccessFault (ctx qid : Nat) (access : Nat)
  /-- L2_REQUEST (R289): A request reaching a line's home slice is performed there. -/
  | l2Request (req : Nat)
  /-- RDC_FILL (R291): A remote-data fill arrives and is installed or only delivered. -/
  | rdcFill (req : Nat)
  /-- DEADLOCK_PROBE_SEND (R281): An input blocked 4,096 network clocks sends a probe; outRouter and outPort: the input behind the output
  that its head packet waits for. -/
  | deadlockProbeSend (die router port cls outRouter outPort : Nat)
  /-- PROBE_FORWARD (R281): A received probe is passed on, dropped, or confirms a cycle; head: the input behind the output that the head
  of the receiving input waits for, if it has not moved for 256 network clocks. -/
  | probeForward (die probe : Nat) (head : Option (Nat × Nat))
  /-- RECOVERY_TOKEN (R282): The reservation token arrives at a router of the cycle. -/
  | recoveryToken (die token : Nat)
  /-- RECOVERY_SHIFT (R282): The commit moves each blocked head one hop into transit slots. -/
  | recoveryShift (die token : Nat)
  /-- LINK_REPLAY (R287): A die-to-die link replays a flit. -/
  | linkReplay (die link : Nat)
  /-- LINK_DEAD (R287): A link exhausts its replays and traffic is rerouted. -/
  | linkDead (die link : Nat)
  /-- REQUEST_TIMEOUT (R293): A request without reply times out and its tag's generation advances. -/
  | requestTimeout (req : Nat)
  /-- PACKET_AGE_DISCARD (R295): A router or port discards a packet that is too old. -/
  | packetAgeDiscard (req die : Nat)
  /-- STALE_REPLY_DROP (R295): A reply with a wrong generation is dropped at its requester. -/
  | staleReplyDrop (req die : Nat)
  /-- COPY_TRANSFER (R213): The copy engine reads the shape record and moves the tile data. -/
  | copyTransfer (w : WaveKey) (op : Nat)
  /-- COPY_ARRIVAL (R216): A finished copy arrives at its barrier object and is counted off. -/
  | copyArrival (w : WaveKey) (op : Nat)
  /-- TMCAST_MEMBER_DELIVERY (R215): A multicast tile is written or fails at one member. -/
  | tmcastMemberDelivery (w : WaveKey) (op member : Nat) (linkDead : Bool)
  /-- CLOVE_MISS_READ (R219): A missing block scale is fetched for a tile operation. -/
  | cloveMissRead (w : WaveKey) (op : Nat)
  /-- TILE_OP_START (R224): The matrix array starts a tile operation. -/
  | tileOpStart (w : WaveKey) (op : Nat)
  /-- TILE_OP_COMPLETE (R224): A tile operation writes its accumulators and is counted off. -/
  | tileOpComplete (w : WaveKey) (op : Nat)
  /-- ACCST_COMPLETE (R229): ACCST has written every byte of its C tile. -/
  | accstComplete (w : WaveKey) (op : Nat)
  /-- NMV_COMPLETE (R412): A near-memory product writes every y element. -/
  | nmvComplete (w : WaveKey) (op : Nat)
  /-- SCOUT_BATCH_SERVICED (R363): The page batch is serviced and the faulting instruction reissues. -/
  | scoutBatchServiced (w : WaveKey) (answers : List PageAnswer)
  /-- MIGRATION_RETRY (R365): A translation refused as migrating is retried after back-off. -/
  | migrationRetry (w : WaveKey)
  /-- MIGRATION_TIMEOUT (R365): An access still refused after 2 ms raises PAGE_FAULT. -/
  | migrationTimeout (w : WaveKey)
  /-- INVALIDATION_COMPLETE (R367): An invalidation of a range is reported complete. -/
  | invalidationComplete (ctx : Nat)
  /-- QUIESCENCE_ADVANCE (R369): The quiescence counter advances once earlier accesses have ended. -/
  | quiescenceAdvance
  /-- FETCH_FAULT (R370): An instruction fetch faults at its target. -/
  | fetchFault (w : WaveKey) (pc : Word)
  /-- PRIM_ACCEPT (R379): The exchange port accepts PRIM records and the path moves on. -/
  | primAccept (w : WaveKey) (pc : Word)
  /-- EXCHANGE_FORWARD (R381): The ashlar port drops or forwards a record to owner dies. -/
  | exchangeForward (ctx qid : Nat)
  /-- RECORD_BIN (R384): A record arriving at an owner is binned in its tiles. -/
  | recordBin (ctx qid die : Nat)
  /-- CLOSE_MARKER_ARRIVAL (R382): A grain's close marker arrives and may advance the order point. -/
  | closeMarkerArrival (ctx qid die : Nat) (grain : Nat)
  /-- TILE_FLUSH (R385): A tile is rendered early, saved and its entries freed. -/
  | tileFlush (ctx qid die tx ty : Nat)
  /-- TILE_BUFFER_GRANT (R389): A core grants a tile buffer in its scratchpad. -/
  | tileBufferGrant (ctx qid tx ty core : Nat)
  /-- PASS_RENDER (R390): With every grain complete the owner renders and writes its tiles. -/
  | passRender (ctx qid die : Nat)
  /-- PASS_END (R372): The pass releases and writes its completion record. -/
  | passEnd (ctx qid : Nat)
  /-- PIXEL_WAVE_LAUNCH (R392): The raster unit launches a pixel wave for covered quads. -/
  | pixelWaveLaunch (ctx qid tx ty : Nat)
  /-- BLEND_APPLY (R393): An ended fragment's exports are applied in sequence order. -/
  | blendApply (ctx qid tx ty : Nat)
  /-- SECTION_ACQUIRE (R397): A fragment acquires its ordered pixel section. -/
  | sectionAcquire (w : WaveKey) (pc : Word)
  /-- RASTER_WATCHDOG (R383): An order point unmoved for GWDT aborts the render queue. -/
  | rasterWatchdog (ctx qid die : Nat)
  /-- SECTION_TIMEOUT (R403): A section held longer than PXWDT aborts the render queue. -/
  | sectionTimeout (w : WaveKey) (lane : Nat)
  /-- RASTER_ACCESS_FAULT (R452): A raster unit access faults and aborts the queue. -/
  | rasterAccessFault (ctx qid : Nat) (addr : Nat) (cause : BitVec 8)
  /-- HBM_SCRUB (R406): The daily scrub corrects or poisons sectors. -/
  | hbmScrub (stack sector : Nat) (correctable : Bool)
  /-- BANK_ROW_RETIREMENT (R407): A faulty bank row is copied to a spare and switched. -/
  | bankRowRetirement (stack bank row : Nat)
  /-- NODE_REPLY (R437): A pooled memory node answers with data or an acknowledgement. -/
  | nodeReply (req : Nat) (data : List Byte)
  /-- NOT_READY_RETRY (R437): A not-ready request is retried after back-off. -/
  | notReadyRetry (req : Nat)
  /-- NODE_NEGATIVE_REPLY (R437): A negative reply fails the access with REMOTE_NACK. -/
  | nodeNegativeReply (req : Nat) (code : BitVec 8)
  /-- UALINK_KEY_INSTALL (R436): The next key is installed into the idle bank. -/
  | ualinkKeyInstall (port : Nat) (key : BitVec 256)
  /-- KEY_SWITCH (R436): The sender switches flits to the new key bank. -/
  | keySwitch (port : Nat)
  /-- KEY_RETIRE (R436): The old key bank is cleared after the receiver reports the switch. -/
  | keyRetire (port : Nat)
  /-- FLIT_AUTH_FAIL (R436): A flit failing authentication is replayed. -/
  | flitAuthFail (port : Nat)
  /-- UALINK_PORT_DEAD (R436): A port with exhausted replays is dead and rerouted. -/
  | ualinkPortDead (port : Nat)
  /-- COLL_MEMBER_DROP (R440): A member silent for CTIMEOUT is dropped. -/
  | collMemberDrop (w : WaveKey) (op rank : Nat)
  /-- COLL_EXCHANGE_COMPLETE (R440): The collective writes DST and its completion record. -/
  | collExchangeComplete (w : WaveKey) (op : Nat) (contribs : List Contribution)
  /-- MODULE_RESET (R429): The ROM verifies and loads firmware patches at reset. -/
  | moduleReset (patches : List Patch) (localGib : Nat)
  /-- HOST_RDMA_READ (R420): The host reads context memory through the memory key. -/
  | hostRdmaRead (mkey va n : Nat)
  /-- HOST_RDMA_WRITE (R420): The host writes context memory through the memory key. -/
  | hostRdmaWrite (mkey va : Nat) (data : List Byte)
  /-- SHORT_MESSAGE_DROP (R426): A message too short for a header is dropped and logged. -/
  | shortMessageDrop (bytes : List Byte) (qp srcIp : Nat)
  /-- OPEN (R424): Opens a session and negotiates version and features. -/
  | hostOpen (h : Hdr) (hostMax : BitVec 16) (features : DWord)
  /-- CLOSE (R422): Ends the session and destroys its contexts. -/
  | hostClose (h : Hdr)
  /-- CREATE_CTX (R422): Creates a context and reserves its areas. -/
  | createCtx (h : Hdr) (p : CtxArgs)
  /-- DESTROY_CTX (R422): Terminates a context. -/
  | destroyCtx (h : Hdr)
  /-- MAP (R449): Writes or removes page-table entries and invalidates. -/
  | hostMap (h : Hdr) (p : MapArgs)
  /-- CREATE_QUEUE (R302): Registers a task queue. -/
  | createQueue (h : Hdr) (p : QueueArgs)
  /-- LOAD_CODE (R87): Writes an object image's sections into the code window. -/
  | loadCode (h : Hdr) (image : List Byte)
  /-- CODE_SYNC (R371): Makes stored code visible to instruction fetch. -/
  | codeSync (h : Hdr)
  /-- SUBMIT (R422): Submits a task record or a render pass to a queue. -/
  | submit (h : Hdr) (qid : Nat) (p : Submission)
  /-- READ_LOG (R446): Returns error-log records and die counters. -/
  | readLog (h : Hdr) (fromSeq : Word)
  /-- SET_POLICY_BINPOOL (R428): Sets the per-die bin pool size. -/
  | setPolicyBinpool (h : Hdr) (mib : Nat)
  /-- SET_POLICY_JOURNAL (R428): Sets the context's region journal size. -/
  | setPolicyJournal (h : Hdr) (mib : Nat)
  /-- SET_POLICY_GROUP (R428): Claims or returns a group barrier. -/
  | setPolicyGroup (h : Hdr) (group : Nat) (claim : Bool)
  /-- SET_POLICY_FABMAP (R434): Sets the fabric node windows. -/
  | setPolicyFabmap (h : Hdr) (windows : List NodeWindow)
  /-- SET_POLICY_CGROUP (R438): Sets up a collective group. -/
  | setPolicyCgroup (h : Hdr) (p : CGroupArgs)
  /-- SET_POLICY_CTIMEOUT (R428): Sets the collective member timeout. -/
  | setPolicyCtimeout (h : Hdr) (us : Nat)
  /-- DEBUG_ATTACH (R29): Attaches a debugger to a context. -/
  | debugAttach (h : Hdr)
  /-- DEBUG_DETACH (R29): Detaches the debugger. -/
  | debugDetach (h : Hdr)
  /-- DEBUG_STOP (R30): Stops a wave for the debugger. -/
  | debugStop (h : Hdr) (w : WaveKey)
  /-- DEBUG_TEAM_STOP (R30): Sets team-stop so every wave of the team stops. -/
  | debugTeamStop (h : Hdr) (team : Nat) (on : Bool)
  /-- DEBUG_STEP (R31): Issues exactly one instruction of one path. -/
  | debugStep (h : Hdr) (w : WaveKey)
  /-- DEBUG_RESUME (R30): Resumes stopped waves. -/
  | debugResume (h : Hdr) (w : WaveKey)
  /-- DEBUG_READ_STATE (R422): Reads wave state. -/
  | debugReadState (h : Hdr) (w : WaveKey) (reg : DebugReg)
  /-- DEBUG_WRITE_STATE (R422): Writes wave state. -/
  | debugWriteState (h : Hdr) (w : WaveKey) (reg : DebugReg) (value : DWord)
  /-- DEBUG_ADDRESS_MATCH (R29): Sets the address-match registers. -/
  | debugAddressMatch (h : Hdr) (pcs : List Word)
  /-- GET_VERSION (R431): SPDM version request. -/
  | getVersion (h : Hdr)
  /-- GET_CAPABILITIES (R431): SPDM capabilities request. -/
  | getCapabilities (h : Hdr)
  /-- NEGOTIATE_ALGORITHMS (R431): SPDM algorithm negotiation. -/
  | negotiateAlgorithms (h : Hdr) (offered : Nat)
  /-- GET_DIGESTS (R431): SPDM certificate digests request. -/
  | getDigests (h : Hdr)
  /-- GET_CERTIFICATE (R430): Returns the module's identity certificate chain. -/
  | getCertificate (h : Hdr) (offset length : Nat)
  /-- CHALLENGE (R431): SPDM challenge signed with the identity key. -/
  | challenge (h : Hdr) (nonce : BitVec 256)
  /-- GET_MEASUREMENTS (R431): Returns the module's measurements. -/
  | getMeasurements (h : Hdr) (index : Nat)
  /-- KEY_EXCHANGE (R431): SPDM ECDHE key exchange. -/
  | keyExchange (h : Hdr) (hostKey : Nat)
  /-- FINISH (R431): Completes an SPDM secure session. -/
  | spdmFinish (h : Hdr) (verified : Bool)
  /-- END_SESSION (R431): Ends an SPDM secure session. -/
  | endSession (h : Hdr)
  /-- ILLEGAL_ENCODING (R79): Issue of a word that no instruction entry accepts raises ILLEGAL_OP or ILLEGAL_OPERAND precisely. -/
  | illegalEncoding (op : Bool) (word : Word)
  /-- PAGE_FAULT_SERVICED (R363): The package controller finishes servicing a page fault of a copy command, NMV, fetch, dispatcher or raster access, and the waiting access resumes or fails. -/
  | pageFaultServiced (fault : Nat) (answer : PageAnswer)
  /-- PAGE_MIGRATION (R365): The firmware marks a die-local page migrating, invalidates it, copies it and writes the new entry as normal. -/
  | pageMigration (ctx va toStack : Nat)
  /-- DEAD_PORT_RESTORE (R434): A dead UALink port is restored and returns to its FABMAP port mask. -/
  | deadPortRestore (port : Nat)
  /-- HOST_PORT_FAILURE (R442): A host Ethernet port fails, and responses and queue pairs on it are lost. -/
  | hostPortFailure (port : Nat)
  /-- PTIME_DISCIPLINE (R420): PTIME is adjusted by IEEE 1588 messages received on the host ports. -/
  | ptimeDiscipline (ns : DWord)
  deriving DecidableEq, Repr

end Sys2Proof
end

