-- ==== Sys2Proof/WellFormed.lean ====
section
/-! DEFINITION. Well-formedness of instructions as data: a literal word stands only where a literal-capable field holds 63
(spec/03_instruction_words.md R60, R69), and an event names places that the module has (spec/00_scope.md R2). The legality of a
word (R79) is in Decode.lean. -/

namespace Sys2Proof

/-- The value 63, which names the literal in a literal-capable source field (R65, R67). -/
def isLit (x : BitVec 6) : Bool := x == 63#6

/-- Some literal-capable field (R69) of the format holds 63. -/
def V3.takesLit (f : V3) : Bool := isLit f.a || isLit f.b
def V4.takesLit (f : V4) : Bool := isLit f.a || isLit f.b || isLit f.c
def VC.takesLit (f : VC) : Bool := isLit f.a || isLit f.b
def VX.takesLit (f : VX) : Bool := isLit f.a || isLit f.b
def U3.takesLit (f : U3) : Bool := isLit f.a || isLit f.b
def UCC.takesLit (f : UCC) : Bool := isLit f.a || isLit f.b

/-- The core and slot exist (R2, R158). -/
def WaveKey.ok (w : WaveKey) : Bool := w.core < 1024 && w.slot < 64

/-- The header's context field names a context 0 to 63 or none (R421). -/
def Hdr.ctxOk (h : Hdr) : Bool := h.ctx.toNat < 64 || h.ctx == BitVec.allOnes 32

/-- The literal word of the instruction and whether it takes one; events take none. -/
def Instr.lit : Instr → Option (Bool × Word)
  | .nop f => some (f.takesLit, f.lit)
  | .mov f => some (f.takesLit, f.lit)
  | .movi _ => none
  | .bcast _ => none
  | .sel f => some (f.takesLit, f.lit)
  | .perm f => some (f.takesLit, f.lit)
  | .iadd f => some (f.takesLit, f.lit)
  | .isub f => some (f.takesLit, f.lit)
  | .iaddi _ => none
  | .imul f => some (f.takesLit, f.lit)
  | .imulhs f => some (f.takesLit, f.lit)
  | .imulhu f => some (f.takesLit, f.lit)
  | .imad f => some (f.takesLit, f.lit)
  | .imulws f => some (f.takesLit, f.lit)
  | .imulwu f => some (f.takesLit, f.lit)
  | .iadd64 f => some (f.takesLit, f.lit)
  | .isub64 f => some (f.takesLit, f.lit)
  | .imin f => some (f.takesLit, f.lit)
  | .imax f => some (f.takesLit, f.lit)
  | .umin f => some (f.takesLit, f.lit)
  | .umax f => some (f.takesLit, f.lit)
  | .iabs f => some (f.takesLit, f.lit)
  | .and f => some (f.takesLit, f.lit)
  | .or f => some (f.takesLit, f.lit)
  | .xor f => some (f.takesLit, f.lit)
  | .andn f => some (f.takesLit, f.lit)
  | .andi _ => none
  | .ori _ => none
  | .xori _ => none
  | .shl f => some (f.takesLit, f.lit)
  | .shr f => some (f.takesLit, f.lit)
  | .sar f => some (f.takesLit, f.lit)
  | .shli _ => none
  | .shri _ => none
  | .sari _ => none
  | .shf f => some (f.takesLit, f.lit)
  | .bfeu f => some (f.takesLit, f.lit)
  | .bfes f => some (f.takesLit, f.lit)
  | .bfi f => some (f.takesLit, f.lit)
  | .bit f => some (f.takesLit, f.lit)
  | .icmp f => some (f.takesLit, f.lit)
  | .icmp64 f => some (f.takesLit, f.lit)
  | .fcmp f => some (f.takesLit, f.lit)
  | .dcmp f => some (f.takesLit, f.lit)
  | .plog _ => none
  | .pmov f => some (f.takesLit, f.lit)
  | .fadd f => some (f.takesLit, f.lit)
  | .fsub f => some (f.takesLit, f.lit)
  | .fmul f => some (f.takesLit, f.lit)
  | .ffma f => some (f.takesLit, f.lit)
  | .fmin f => some (f.takesLit, f.lit)
  | .fmax f => some (f.takesLit, f.lit)
  | .fminn f => some (f.takesLit, f.lit)
  | .fmaxn f => some (f.takesLit, f.lit)
  | .fsgn f => some (f.takesLit, f.lit)
  | .fdiv f => some (f.takesLit, f.lit)
  | .fsqrt f => some (f.takesLit, f.lit)
  | .fsfu f => some (f.takesLit, f.lit)
  | .frnd f => some (f.takesLit, f.lit)
  | .dadd f => some (f.takesLit, f.lit)
  | .dsub f => some (f.takesLit, f.lit)
  | .dmul f => some (f.takesLit, f.lit)
  | .dfma f => some (f.takesLit, f.lit)
  | .dmin f => some (f.takesLit, f.lit)
  | .dmax f => some (f.takesLit, f.lit)
  | .ddiv f => some (f.takesLit, f.lit)
  | .dsqrt f => some (f.takesLit, f.lit)
  | .dsfu f => some (f.takesLit, f.lit)
  | .hadd2 f => some (f.takesLit, f.lit)
  | .hmul2 f => some (f.takesLit, f.lit)
  | .hfma2 f => some (f.takesLit, f.lit)
  | .hmnx2 f => some (f.takesLit, f.lit)
  | .badd2 f => some (f.takesLit, f.lit)
  | .bmul2 f => some (f.takesLit, f.lit)
  | .bfma2 f => some (f.takesLit, f.lit)
  | .cvt f => some (f.takesLit, f.lit)
  | .ncvt f => some (f.takesLit, f.lit)
  | .regrp f => some (f.takesLit, f.lit)
  | .bra _ => none
  | .call _ => none
  | .brx f => some (f.takesLit, f.lit)
  | .callx f => some (f.takesLit, f.lit)
  | .ret f => some (f.takesLit, f.lit)
  | .exit f => some (f.takesLit, f.lit)
  | .trap _ => none
  | .bkpt f => some (f.takesLit, f.lit)
  | .vote f => some (f.takesLit, f.lit)
  | .shfl f => some (f.takesLit, f.lit)
  | .wred f => some (f.takesLit, f.lit)
  | .wscan f => some (f.takesLit, f.lit)
  | .wargx f => some (f.takesLit, f.lit)
  | .matchEq f => some (f.takesLit, f.lit)
  | .elect f => some (f.takesLit, f.lit)
  | .ldb _ => none
  | .ldbu _ => none
  | .ldh _ => none
  | .ldhu _ => none
  | .ldw _ => none
  | .ldd _ => none
  | .ldq _ => none
  | .stb _ => none
  | .sth _ => none
  | .stw _ => none
  | .std _ => none
  | .stq _ => none
  | .ldaq _ => none
  | .strl _ => none
  | .atom _ => none
  | .atoms _ => none
  | .ldsw _ => none
  | .ldsd _ => none
  | .ldsq _ => none
  | .stsw _ => none
  | .stsd _ => none
  | .stsq _ => none
  | .stsr _ => none
  | .mmad _ => none
  | .mmas _ => none
  | .mmah _ => none
  | .mmab _ => none
  | .mman _ => none
  | .mmaq _ => none
  | .mmasp _ => none
  | .accst _ => none
  | .pxlock f => some (f.takesLit, f.lit)
  | .pxexp f => some (f.takesLit, f.lit)
  | .pxkill f => some (f.takesLit, f.lit)
  | .pxrel f => some (f.takesLit, f.lit)
  | .unop f => some (f.takesLit, f.lit)
  | .umov f => some (f.takesLit, f.lit)
  | .umovi _ => none
  | .uadd f => some (f.takesLit, f.lit)
  | .usub f => some (f.takesLit, f.lit)
  | .uaddi _ => none
  | .umul f => some (f.takesLit, f.lit)
  | .umulhu f => some (f.takesLit, f.lit)
  | .uadd64 f => some (f.takesLit, f.lit)
  | .usub64 f => some (f.takesLit, f.lit)
  | .uminUniform f => some (f.takesLit, f.lit)
  | .umaxUniform f => some (f.takesLit, f.lit)
  | .uminu f => some (f.takesLit, f.lit)
  | .umaxu f => some (f.takesLit, f.lit)
  | .uand f => some (f.takesLit, f.lit)
  | .uor f => some (f.takesLit, f.lit)
  | .uxor f => some (f.takesLit, f.lit)
  | .uandi _ => none
  | .uori _ => none
  | .ushl f => some (f.takesLit, f.lit)
  | .ushr f => some (f.takesLit, f.lit)
  | .usar f => some (f.takesLit, f.lit)
  | .ushli _ => none
  | .ushri _ => none
  | .ubfe _ => none
  | .ubit _ => none
  | .ucmp f => some (f.takesLit, f.lit)
  | .usel f => some (f.takesLit, f.lit)
  | .qlog _ => none
  | .ufadd f => some (f.takesLit, f.lit)
  | .ufmul f => some (f.takesLit, f.lit)
  | .ucvt _ => none
  | .ubra _ => none
  | .ucall _ => none
  | .ubrx f => some (f.takesLit, f.lit)
  | .uret f => some (f.takesLit, f.lit)
  | .uloop _ => none
  | .rdlane _ => none
  | .actm f => some (f.takesLit, f.lit)
  | .sread _ => none
  | .swrite _ => none
  | .fence _ => none
  | .wait _ => none
  | .waitx _ => none
  | .barinit f => some (f.takesLit, f.lit)
  | .bararv f => some (f.takesLit, f.lit)
  | .barwt f => some (f.takesLit, f.lit)
  | .barsync f => some (f.takesLit, f.lit)
  | .gbarv f => some (f.takesLit, f.lit)
  | .gbwt f => some (f.takesLit, f.lit)
  | .gbset f => some (f.takesLit, f.lit)
  | .racq _ => none
  | .rcmt _ => none
  | .rpeek _ => none
  | .rrel _ => none
  | .tload _ => none
  | .tstore _ => none
  | .tgath _ => none
  | .tmcast _ => none
  | .nmv _ => none
  | .rgnb _ => none
  | .rgnc f => some (f.takesLit, f.lit)
  | .rgna f => some (f.takesLit, f.lit)
  | .safept _ => none
  | .free f => some (f.takesLit, f.lit)
  | .yield f => some (f.takesLit, f.lit)
  | .ttake f => some (f.takesLit, f.lit)
  | .tspawn _ => none
  | .ttrig f => some (f.takesLit, f.lit)
  | .prim _ => none
  | .coll _ => none
  | .recld _ => none
  | .trapu _ => none
  | .rtt f => some (f.takesLit, f.lit)
  | .errinjWrite _ _ => none
  | .clockReadLatch _ _ _ => none
  | .yieldExpiry _ _ => none
  | .addressMatchStop _ _ => none
  | .loadDataArrival _ _ => none
  | .storeAcknowledge _ _ => none
  | .waitComplete _ _ => none
  | .fenceActionComplete _ => none
  | .waveRetire _ => none
  | .rowGrant _ => none
  | .swapCandidacyTimeout _ => none
  | .swapOut _ => none
  | .swapGranuleDrain _ => none
  | .swapRestore _ => none
  | .splitChange _ => none
  | .rowRelocation _ _ => none
  | .l1Eviction _ _ _ => none
  | .teamAdmission _ _ => none
  | .crewAdmission _ _ => none
  | .crewReservation _ _ => none
  | .preemptRequest _ => none
  | .forcedStop _ => none
  | .teamSave _ => none
  | .teamRestore _ _ => none
  | .priorityPreemption => none
  | .thermalMigration _ => none
  | .laneRetirement _ _ _ => none
  | .replayPlacement _ => none
  | .rendezvousComplete _ => none
  | .rgncCompletion _ => none
  | .barTimeout _ _ => none
  | .rendezvousTimeout _ => none
  | .groupBarrierTimeout _ _ => none
  | .ringRetry _ _ => none
  | .ringTimeout _ _ => none
  | .armedMapUpdate _ _ => none
  | .barinitRepliesDone _ _ => none
  | .stsrPerform _ _ => none
  | .ttrigMark _ => none
  | .dependenceReevaluation => none
  | .taskSelect => none
  | .priorityAging _ _ => none
  | .rangeSplit _ => none
  | .dispatcherAccessFault _ _ _ => none
  | .l2Request _ => none
  | .rdcFill _ => none
  | .deadlockProbeSend _ _ _ _ _ _ => none
  | .probeForward _ _ _ => none
  | .recoveryToken _ _ => none
  | .recoveryShift _ _ => none
  | .linkReplay _ _ => none
  | .linkDead _ _ => none
  | .requestTimeout _ => none
  | .packetAgeDiscard _ _ => none
  | .staleReplyDrop _ _ => none
  | .copyTransfer _ _ => none
  | .copyArrival _ _ => none
  | .tmcastMemberDelivery _ _ _ _ => none
  | .cloveMissRead _ _ => none
  | .tileOpStart _ _ => none
  | .tileOpComplete _ _ => none
  | .accstComplete _ _ => none
  | .nmvComplete _ _ => none
  | .scoutBatchServiced _ _ => none
  | .migrationRetry _ => none
  | .migrationTimeout _ => none
  | .invalidationComplete _ => none
  | .quiescenceAdvance => none
  | .fetchFault _ _ => none
  | .primAccept _ _ => none
  | .exchangeForward _ _ => none
  | .recordBin _ _ _ => none
  | .closeMarkerArrival _ _ _ _ => none
  | .tileFlush _ _ _ _ _ => none
  | .tileBufferGrant _ _ _ _ _ => none
  | .passRender _ _ _ => none
  | .passEnd _ _ => none
  | .pixelWaveLaunch _ _ _ _ => none
  | .blendApply _ _ _ _ => none
  | .sectionAcquire _ _ => none
  | .rasterWatchdog _ _ _ => none
  | .sectionTimeout _ _ => none
  | .rasterAccessFault _ _ _ _ => none
  | .hbmScrub _ _ _ => none
  | .bankRowRetirement _ _ _ => none
  | .nodeReply _ _ => none
  | .notReadyRetry _ => none
  | .nodeNegativeReply _ _ => none
  | .ualinkKeyInstall _ _ => none
  | .keySwitch _ => none
  | .keyRetire _ => none
  | .flitAuthFail _ => none
  | .ualinkPortDead _ => none
  | .collMemberDrop _ _ _ => none
  | .collExchangeComplete _ _ _ => none
  | .moduleReset _ _ => none
  | .hostRdmaRead _ _ _ => none
  | .hostRdmaWrite _ _ _ => none
  | .shortMessageDrop _ _ _ => none
  | .hostOpen _ _ _ => none
  | .hostClose _ => none
  | .createCtx _ _ => none
  | .destroyCtx _ => none
  | .hostMap _ _ => none
  | .createQueue _ _ => none
  | .loadCode _ _ => none
  | .codeSync _ => none
  | .submit _ _ _ => none
  | .readLog _ _ => none
  | .setPolicyBinpool _ _ => none
  | .setPolicyJournal _ _ => none
  | .setPolicyGroup _ _ _ => none
  | .setPolicyFabmap _ _ => none
  | .setPolicyCgroup _ _ => none
  | .setPolicyCtimeout _ _ => none
  | .debugAttach _ => none
  | .debugDetach _ => none
  | .debugStop _ _ => none
  | .debugTeamStop _ _ _ => none
  | .debugStep _ _ => none
  | .debugResume _ _ => none
  | .debugReadState _ _ _ => none
  | .debugWriteState _ _ _ _ => none
  | .debugAddressMatch _ _ => none
  | .getVersion _ => none
  | .getCapabilities _ => none
  | .negotiateAlgorithms _ _ => none
  | .getDigests _ => none
  | .getCertificate _ _ _ => none
  | .challenge _ _ => none
  | .getMeasurements _ _ => none
  | .keyExchange _ _ => none
  | .spdmFinish _ _ => none
  | .endSession _ => none
  | .illegalEncoding _ _ => none
  | .pageFaultServiced _ _ => none
  | .pageMigration _ _ _ => none
  | .deadPortRestore _ => none
  | .hostPortFailure _ => none
  | .ptimeDiscipline _ => none

/-- The instruction takes a literal word. -/
def Instr.takesLit (i : Instr) : Bool := match i.lit with
  | some (b, _) => b
  | none => false

/-- The literal word it carries, zero where the format has none. -/
def Instr.litWord (i : Instr) : Word := match i.lit with
  | some (_, w) => w
  | none => 0

/-- The parameters of an event name places that exist. -/
def Instr.placesOk : Instr → Bool
  | .nop _ => true
  | .mov _ => true
  | .movi _ => true
  | .bcast _ => true
  | .sel _ => true
  | .perm _ => true
  | .iadd _ => true
  | .isub _ => true
  | .iaddi _ => true
  | .imul _ => true
  | .imulhs _ => true
  | .imulhu _ => true
  | .imad _ => true
  | .imulws _ => true
  | .imulwu _ => true
  | .iadd64 _ => true
  | .isub64 _ => true
  | .imin _ => true
  | .imax _ => true
  | .umin _ => true
  | .umax _ => true
  | .iabs _ => true
  | .and _ => true
  | .or _ => true
  | .xor _ => true
  | .andn _ => true
  | .andi _ => true
  | .ori _ => true
  | .xori _ => true
  | .shl _ => true
  | .shr _ => true
  | .sar _ => true
  | .shli _ => true
  | .shri _ => true
  | .sari _ => true
  | .shf _ => true
  | .bfeu _ => true
  | .bfes _ => true
  | .bfi _ => true
  | .bit _ => true
  | .icmp _ => true
  | .icmp64 _ => true
  | .fcmp _ => true
  | .dcmp _ => true
  | .plog _ => true
  | .pmov _ => true
  | .fadd _ => true
  | .fsub _ => true
  | .fmul _ => true
  | .ffma _ => true
  | .fmin _ => true
  | .fmax _ => true
  | .fminn _ => true
  | .fmaxn _ => true
  | .fsgn _ => true
  | .fdiv _ => true
  | .fsqrt _ => true
  | .fsfu _ => true
  | .frnd _ => true
  | .dadd _ => true
  | .dsub _ => true
  | .dmul _ => true
  | .dfma _ => true
  | .dmin _ => true
  | .dmax _ => true
  | .ddiv _ => true
  | .dsqrt _ => true
  | .dsfu _ => true
  | .hadd2 _ => true
  | .hmul2 _ => true
  | .hfma2 _ => true
  | .hmnx2 _ => true
  | .badd2 _ => true
  | .bmul2 _ => true
  | .bfma2 _ => true
  | .cvt _ => true
  | .ncvt _ => true
  | .regrp _ => true
  | .bra _ => true
  | .call _ => true
  | .brx _ => true
  | .callx _ => true
  | .ret _ => true
  | .exit _ => true
  | .trap _ => true
  | .bkpt _ => true
  | .vote _ => true
  | .shfl _ => true
  | .wred _ => true
  | .wscan _ => true
  | .wargx _ => true
  | .matchEq _ => true
  | .elect _ => true
  | .ldb _ => true
  | .ldbu _ => true
  | .ldh _ => true
  | .ldhu _ => true
  | .ldw _ => true
  | .ldd _ => true
  | .ldq _ => true
  | .stb _ => true
  | .sth _ => true
  | .stw _ => true
  | .std _ => true
  | .stq _ => true
  | .ldaq _ => true
  | .strl _ => true
  | .atom _ => true
  | .atoms _ => true
  | .ldsw _ => true
  | .ldsd _ => true
  | .ldsq _ => true
  | .stsw _ => true
  | .stsd _ => true
  | .stsq _ => true
  | .stsr _ => true
  | .mmad _ => true
  | .mmas _ => true
  | .mmah _ => true
  | .mmab _ => true
  | .mman _ => true
  | .mmaq _ => true
  | .mmasp _ => true
  | .accst _ => true
  | .pxlock _ => true
  | .pxexp _ => true
  | .pxkill _ => true
  | .pxrel _ => true
  | .unop _ => true
  | .umov _ => true
  | .umovi _ => true
  | .uadd _ => true
  | .usub _ => true
  | .uaddi _ => true
  | .umul _ => true
  | .umulhu _ => true
  | .uadd64 _ => true
  | .usub64 _ => true
  | .uminUniform _ => true
  | .umaxUniform _ => true
  | .uminu _ => true
  | .umaxu _ => true
  | .uand _ => true
  | .uor _ => true
  | .uxor _ => true
  | .uandi _ => true
  | .uori _ => true
  | .ushl _ => true
  | .ushr _ => true
  | .usar _ => true
  | .ushli _ => true
  | .ushri _ => true
  | .ubfe _ => true
  | .ubit _ => true
  | .ucmp _ => true
  | .usel _ => true
  | .qlog _ => true
  | .ufadd _ => true
  | .ufmul _ => true
  | .ucvt _ => true
  | .ubra _ => true
  | .ucall _ => true
  | .ubrx _ => true
  | .uret _ => true
  | .uloop _ => true
  | .rdlane _ => true
  | .actm _ => true
  | .sread _ => true
  | .swrite _ => true
  | .fence _ => true
  | .wait _ => true
  | .waitx _ => true
  | .barinit _ => true
  | .bararv _ => true
  | .barwt _ => true
  | .barsync _ => true
  | .gbarv _ => true
  | .gbwt _ => true
  | .gbset _ => true
  | .racq _ => true
  | .rcmt _ => true
  | .rpeek _ => true
  | .rrel _ => true
  | .tload _ => true
  | .tstore _ => true
  | .tgath _ => true
  | .tmcast _ => true
  | .nmv _ => true
  | .rgnb _ => true
  | .rgnc _ => true
  | .rgna _ => true
  | .safept _ => true
  | .free _ => true
  | .yield _ => true
  | .ttake _ => true
  | .tspawn _ => true
  | .ttrig _ => true
  | .prim _ => true
  | .coll _ => true
  | .recld _ => true
  | .trapu _ => true
  | .rtt _ => true
  | .errinjWrite w _ => w.ok
  | .clockReadLatch w _ _ => w.ok
  | .yieldExpiry w _ => w.ok
  | .addressMatchStop w _ => w.ok
  | .loadDataArrival w _ => w.ok
  | .storeAcknowledge w _ => w.ok
  | .waitComplete w _ => w.ok
  | .fenceActionComplete w => w.ok
  | .waveRetire w => w.ok
  | .rowGrant core => decide (core < 1024)
  | .swapCandidacyTimeout w => w.ok
  | .swapOut w => w.ok
  | .swapGranuleDrain w => w.ok
  | .swapRestore w => w.ok
  | .splitChange core => decide (core < 1024)
  | .rowRelocation w _ => w.ok
  | .l1Eviction core ctx _ => decide (core < 1024) && decide (ctx < 64)
  | .teamAdmission _ core => decide (core < 1024)
  | .crewAdmission _ cluster => decide (cluster < 256)
  | .crewReservation _ die => decide (die < 8)
  | .preemptRequest _ => true
  | .forcedStop w => w.ok
  | .teamSave _ => true
  | .teamRestore _ cluster => decide (cluster < 256)
  | .priorityPreemption => true
  | .thermalMigration _ => true
  | .laneRetirement core _ _ => decide (core < 1024)
  | .replayPlacement _ => true
  | .rendezvousComplete _ => true
  | .rgncCompletion _ => true
  | .barTimeout w _ => w.ok
  | .rendezvousTimeout w => w.ok
  | .groupBarrierTimeout w _ => w.ok
  | .ringRetry w _ => w.ok
  | .ringTimeout w _ => w.ok
  | .armedMapUpdate w core => w.ok && decide (core < 1024)
  | .barinitRepliesDone w _ => w.ok
  | .stsrPerform w _ => w.ok
  | .ttrigMark w => w.ok
  | .dependenceReevaluation => true
  | .taskSelect => true
  | .priorityAging ctx _ => decide (ctx < 64)
  | .rangeSplit cluster => decide (cluster < 256)
  | .dispatcherAccessFault ctx _ _ => decide (ctx < 64)
  | .l2Request _ => true
  | .rdcFill _ => true
  | .deadlockProbeSend die _ _ _ _ _ => decide (die < 8)
  | .probeForward die _ _ => decide (die < 8)
  | .recoveryToken die _ => decide (die < 8)
  | .recoveryShift die _ => decide (die < 8)
  | .linkReplay die _ => decide (die < 8)
  | .linkDead die _ => decide (die < 8)
  | .requestTimeout _ => true
  | .packetAgeDiscard _ die => decide (die < 8)
  | .staleReplyDrop _ die => decide (die < 8)
  | .copyTransfer w _ => w.ok
  | .copyArrival w _ => w.ok
  | .tmcastMemberDelivery w _ _ _ => w.ok
  | .cloveMissRead w _ => w.ok
  | .tileOpStart w _ => w.ok
  | .tileOpComplete w _ => w.ok
  | .accstComplete w _ => w.ok
  | .nmvComplete w _ => w.ok
  | .scoutBatchServiced w _ => w.ok
  | .migrationRetry w => w.ok
  | .migrationTimeout w => w.ok
  | .invalidationComplete ctx => decide (ctx < 64)
  | .quiescenceAdvance => true
  | .fetchFault w _ => w.ok
  | .primAccept w _ => w.ok
  | .exchangeForward ctx _ => decide (ctx < 64)
  | .recordBin ctx _ die => decide (ctx < 64) && decide (die < 8)
  | .closeMarkerArrival ctx _ die _ => decide (ctx < 64) && decide (die < 8)
  | .tileFlush ctx _ die _ _ => decide (ctx < 64) && decide (die < 8)
  | .tileBufferGrant ctx _ _ _ core => decide (ctx < 64) && decide (core < 1024)
  | .passRender ctx _ die => decide (ctx < 64) && decide (die < 8)
  | .passEnd ctx _ => decide (ctx < 64)
  | .pixelWaveLaunch ctx _ _ _ => decide (ctx < 64)
  | .blendApply ctx _ _ _ => decide (ctx < 64)
  | .sectionAcquire w _ => w.ok
  | .rasterWatchdog ctx _ die => decide (ctx < 64) && decide (die < 8)
  | .sectionTimeout w _ => w.ok
  | .rasterAccessFault ctx _ _ _ => decide (ctx < 64)
  | .hbmScrub stack _ _ => decide (stack < 16)
  | .bankRowRetirement stack _ _ => decide (stack < 16)
  | .nodeReply _ _ => true
  | .notReadyRetry _ => true
  | .nodeNegativeReply _ _ => true
  | .ualinkKeyInstall port _ => decide (port < 32)
  | .keySwitch port => decide (port < 32)
  | .keyRetire port => decide (port < 32)
  | .flitAuthFail port => decide (port < 32)
  | .ualinkPortDead port => decide (port < 32)
  | .collMemberDrop w _ _ => w.ok
  | .collExchangeComplete w _ _ => w.ok
  | .moduleReset _ _ => true
  | .hostRdmaRead _ _ _ => true
  | .hostRdmaWrite _ _ _ => true
  | .shortMessageDrop _ _ _ => true
  | .hostOpen h _ _ => h.ctxOk
  | .hostClose h => h.ctxOk
  | .createCtx h _ => h.ctxOk
  | .destroyCtx h => h.ctxOk
  | .hostMap h _ => h.ctxOk
  | .createQueue h _ => h.ctxOk
  | .loadCode h _ => h.ctxOk
  | .codeSync h => h.ctxOk
  | .submit h _ _ => h.ctxOk
  | .readLog h _ => h.ctxOk
  | .setPolicyBinpool h _ => h.ctxOk
  | .setPolicyJournal h _ => h.ctxOk
  | .setPolicyGroup h _ _ => h.ctxOk
  | .setPolicyFabmap h _ => h.ctxOk
  | .setPolicyCgroup h _ => h.ctxOk
  | .setPolicyCtimeout h _ => h.ctxOk
  | .debugAttach h => h.ctxOk
  | .debugDetach h => h.ctxOk
  | .debugStop h w => h.ctxOk && w.ok
  | .debugTeamStop h _ _ => h.ctxOk
  | .debugStep h w => h.ctxOk && w.ok
  | .debugResume h w => h.ctxOk && w.ok
  | .debugReadState h w _ => h.ctxOk && w.ok
  | .debugWriteState h w _ _ => h.ctxOk && w.ok
  | .debugAddressMatch h _ => h.ctxOk
  | .getVersion h => h.ctxOk
  | .getCapabilities h => h.ctxOk
  | .negotiateAlgorithms h _ => h.ctxOk
  | .getDigests h => h.ctxOk
  | .getCertificate h _ _ => h.ctxOk
  | .challenge h _ => h.ctxOk
  | .getMeasurements h _ => h.ctxOk
  | .keyExchange h _ => h.ctxOk
  | .spdmFinish h _ => h.ctxOk
  | .endSession h => h.ctxOk
  | .illegalEncoding _ _ => true
  | .pageFaultServiced _ _ => true
  | .pageMigration ctx _ _ => decide (ctx < 64)
  | .deadPortRestore port => decide (port < 32)
  | .hostPortFailure port => decide (port < 2)
  | .ptimeDiscipline _ => true

/-- Well-formed: a literal word other than zero only where one is taken, and existing places. -/
def Instr.wellFormed (i : Instr) : Bool := (i.takesLit || i.litWord == 0) && i.placesOk

end Sys2Proof
end

