-- ==== Sys2Proof/Decode.lean ====
section
/-! DEFINITION. The decoder: the fields of each format (spec/03_instruction_words.md R62, R63), the opcode map (R73), and the words
that are not instructions, refused by name (R79 and the illegal uses of each chapter). After it the encoder, from the same tables. -/

namespace Sys2Proof

/-- Why bytes are no instruction (R79); truncated: fewer bytes than the instruction has. -/
inductive Reject where
  | illegalOp
  | illegalOperand
  | truncated
  deriving DecidableEq, Repr

namespace Fields

/-- Bits hi:lo of an instruction word, n bits from lo (R59). -/
def fld (w : Word) (lo n : Nat) : BitVec n := w.extractLsb' lo n
def bit (w : Word) (i : Nat) : Bool := w.getLsbD i

def v3 (w l : Word) : V3 := ⟨fld w 18 6, fld w 12 6, fld w 6 6, bit w 5, bit w 4, fld w 1 3, bit w 0, l⟩
def v4 (w l : Word) : V4 := ⟨fld w 18 6, fld w 12 6, fld w 6 6, fld w 0 6, l⟩
def vi (w : Word) : VI := ⟨fld w 18 6, fld w 12 6, fld w 0 12⟩
def vc (w l : Word) : VC := ⟨fld w 21 3, fld w 18 3, fld w 12 6, fld w 6 6, bit w 5, bit w 4, fld w 1 3, bit w 0, l⟩
def vp (w : Word) : VP := ⟨fld w 21 3, fld w 18 3, fld w 15 3, fld w 12 3, fld w 4 8, fld w 1 3, bit w 0⟩
def vb (w : Word) : VB := ⟨fld w 21 3, bit w 20, fld w 0 20⟩
def vm (w : Word) : VM := ⟨fld w 18 6, fld w 12 6, fld w 8 4, fld w 6 2, fld w 0 6⟩
def vma (w : Word) : VMA := ⟨fld w 18 6, fld w 12 6, fld w 8 4, bit w 7, fld w 4 3, fld w 0 4⟩
def va (w : Word) : VA := ⟨fld w 18 6, fld w 12 6, fld w 8 4, fld w 4 4, fld w 1 3, bit w 0⟩
def vsa (w : Word) : VSA := ⟨fld w 18 6, fld w 12 6, fld w 8 4, bit w 7, fld w 0 7⟩
def vx (w l : Word) : VX := ⟨fld w 18 6, fld w 12 6, fld w 6 6, fld w 0 6, l⟩
def vt (w : Word) : VT := ⟨fld w 18 6, fld w 12 6, fld w 6 6, fld w 0 6⟩
def u3 (w l : Word) : U3 := ⟨fld w 18 6, fld w 12 6, fld w 6 6, fld w 3 3, bit w 2, fld w 0 2, l⟩
def ui (w : Word) : UI := ⟨fld w 18 6, fld w 12 6, fld w 0 12⟩
def uw (w : Word) : UW := ⟨fld w 18 6, fld w 0 18⟩
def ul (w : Word) : UL := ⟨fld w 18 6, fld w 0 18⟩
def ucc (w l : Word) : UCC := ⟨fld w 21 3, fld w 18 3, fld w 12 6, fld w 6 6, fld w 3 3, bit w 2, fld w 0 2, l⟩
def uf (w : Word) : UF := ⟨fld w 21 3, fld w 19 2, fld w 0 19⟩
def uk (w : Word) : UK := ⟨fld w 20 4, fld w 15 5, fld w 10 5, fld w 5 5, fld w 0 5⟩
def uc (w : Word) : UC := ⟨fld w 18 6, fld w 12 6, fld w 6 6, fld w 0 6⟩
def ur (w : Word) : UR := ⟨fld w 18 6, fld w 12 6, fld w 9 3, bit w 8, bit w 7, fld w 4 3, fld w 0 4⟩

def one (b : Bool) : BitVec 1 := BitVec.ofBool b

def v3Body (f : V3) : BitVec 24 := f.d ++ f.a ++ f.b ++ one f.ka ++ one f.kb ++ f.g ++ one f.gn
def v4Body (f : V4) : BitVec 24 := f.d ++ f.a ++ f.b ++ f.c
def viBody (f : VI) : BitVec 24 := f.d ++ f.a ++ f.imm
def vcBody (f : VC) : BitVec 24 := f.pd ++ f.cc ++ f.a ++ f.b ++ one f.ka ++ one f.kb ++ f.g ++ one f.gn
def vpBody (f : VP) : BitVec 24 := f.pd ++ f.pa ++ f.pb ++ f.pc ++ f.tt ++ f.g ++ one f.gn
def vbBody (f : VB) : BitVec 24 := f.p ++ one f.pn ++ f.off
def vmBody (f : VM) : BitVec 24 := f.d ++ f.a ++ f.br ++ f.ch ++ f.imm
def vmaBody (f : VMA) : BitVec 24 := f.d ++ f.a ++ f.br ++ one f.sz ++ f.sc ++ f.imm
def vaBody (f : VA) : BitVec 24 := f.d ++ f.a ++ f.br ++ f.aop ++ f.sc ++ one f.nr
def vsaBody (f : VSA) : BitVec 24 := f.d ++ f.a ++ f.aop ++ one f.nr ++ f.imm
def vxBody (f : VX) : BitVec 24 := f.d ++ f.a ++ f.b ++ f.fn
def vtBody (f : VT) : BitVec 24 := f.d ++ f.sa ++ f.sb ++ f.fn
def u3Body (f : U3) : BitVec 24 := f.d ++ f.a ++ f.b ++ f.qg ++ one f.qn ++ f.rz
def uiBody (f : UI) : BitVec 24 := f.d ++ f.a ++ f.imm
def uwBody (f : UW) : BitVec 24 := f.d ++ f.imm
def ulBody (f : UL) : BitVec 24 := f.a ++ f.off
def uccBody (f : UCC) : BitVec 24 := f.qd ++ f.cc ++ f.a ++ f.b ++ f.qg ++ one f.qn ++ f.rz
def ufBody (f : UF) : BitVec 24 := f.sc ++ f.kind ++ f.rz
def ukBody (f : UK) : BitVec 24 := f.set ++ f.t0 ++ f.t1 ++ f.t2 ++ f.t3
def ucBody (f : UC) : BitVec 24 := f.a ++ f.b ++ f.c ++ f.fn
def urBody (f : UR) : BitVec 24 := f.d ++ f.a ++ f.qd ++ one f.w ++ one f.sp ++ f.sc ++ f.rz

end Fields

/-! ### Words that no instruction entry accepts -/

namespace Legal

/-- The field is unused and must be 0 (R64). -/
def zero {n : Nat} (x : BitVec n) : Bool := x == 0
/-- A single destination: 62 is illegal, 63 discards (R65, R67). -/
def dst (x : BitVec 6) : Bool := x != 62#6
/-- A single source in a field that takes no literal (R69). -/
def srcNoLit (x : BitVec 6) : Bool := x != 63#6
/-- A pair source: even, 0 to 60 (R66). -/
def pairSrc (x : BitVec 6) : Bool := x.toNat ≤ 60 && x.toNat % 2 == 0
/-- A pair destination: even, 0 to 60, or 63 (R66). -/
def pairDst (x : BitVec 6) : Bool := pairSrc x || x == 63#6
/-- A quad source: a multiple of 4, 0 to 56 (R66). -/
def quadSrc (x : BitVec 6) : Bool := x.toNat ≤ 56 && x.toNat % 4 == 0
def quadDst (x : BitVec 6) : Bool := quadSrc x || x == 63#6
/-- An accumulator base: v0, v16 or v32 (R66, R221). -/
def acc (x : BitVec 6) : Bool := x == 0#6 || x == 16#6 || x == 32#6
/-- A register-index field: 0 to 61 (R67). -/
def idx (x : BitVec 6) : Bool := x.toNat ≤ 61
/-- A guard or unconditional condition: inversion only with a predicate 0 to 6 (R64, R70). -/
def guard (g : BitVec 3) (n : Bool) : Bool := !(g == 7#3 && n)
/-- A mark stands only on a field that names v0 to v61 (R71). -/
def mark (k : Bool) (x : BitVec 6) : Bool := !k || x.toNat ≤ 61
/-- A rounding code 0 to 5 (R36). -/
def rm (fn : BitVec 6) : Bool := (fn.extractLsb' 0 3).toNat ≤ 5
/-- A scope code 0 to 6 (R72). -/
def scope (sc : BitVec 3) : Bool := sc != 7#3
/-- Bits [5:3] of FN. -/
def fnHi (fn : BitVec 6) : BitVec 3 := fn.extractLsb' 3 3
def fnLo (fn : BitVec 6) : BitVec 3 := fn.extractLsb' 0 3

/-- V3 with D single, A and B single sources. -/
def v3Two (f : V3) : Bool := dst f.d && mark f.ka f.a && mark f.kb f.b && guard f.g f.gn
/-- V3 with B and KB unused. -/
def v3One (f : V3) : Bool := dst f.d && mark f.ka f.a && zero f.b && !f.kb && guard f.g f.gn
/-- V3 with a pair destination and single sources. -/
def v3Wide (f : V3) : Bool := pairDst f.d && mark f.ka f.a && mark f.kb f.b && guard f.g f.gn
/-- V3 on pairs. -/
def v3Pair (f : V3) : Bool := pairDst f.d && pairSrc f.a && pairSrc f.b && guard f.g f.gn
/-- V3 on a pair A alone. -/
def v3PairOne (f : V3) : Bool := pairDst f.d && pairSrc f.a && zero f.b && !f.kb && guard f.g f.gn
/-- V3 with no operand (NOP, EXIT, BKPT and the pixel instructions). -/
def v3None (f : V3) : Bool := zero f.d && zero f.a && zero f.b && !f.ka && !f.kb && guard f.g f.gn
/-- BRX, CALLX, RET (R121). -/
def v3Target (f : V3) : Bool := zero f.d && mark f.ka f.a && zero f.b && !f.kb && guard f.g f.gn
def viImm (f : VI) : Bool := dst f.d && srcNoLit f.a
def viShift (f : VI) : Bool := viImm f && zero (f.imm.extractLsb' 5 7)
def vcTwo (f : VC) : Bool := mark f.ka f.a && mark f.kb f.b && guard f.g f.gn
def vcPair (f : VC) : Bool := pairSrc f.a && pairSrc f.b && guard f.g f.gn
def vmLoad (d : BitVec 6 → Bool) (f : VM) : Bool := d f.d && srcNoLit f.a && f.ch != 3#2
def vsOk (d : BitVec 6 → Bool) (f : VI) : Bool := d f.d && srcNoLit f.a
/-- The D operand of an atomic (R76): pairs for .CAS, .ADD64 and .UMAX64, a quad for .CAS64, else one register, which is a
destination when the old value is returned. -/
def atomD (aop : BitVec 4) (nr : Bool) (d : BitVec 6) : Bool :=
  match aop.toNat with
  | 9 | 10 | 11 => pairSrc d
  | 12 => quadSrc d
  | _ => d != 63#6 && (nr || d != 62#6)
def vtMma (fn0 : Bool) (f : VT) : Bool := acc f.d && idx f.sa && idx f.sb && (if fn0 then zero f.fn else idx f.fn)
def u3Base (f : U3) : Bool := guard f.qg f.qn && zero f.rz
def u3Two (f : U3) : Bool := dst f.d && u3Base f
def u3One (f : U3) : Bool := dst f.d && zero f.b && u3Base f
def u3Pair (f : U3) : Bool := pairSrc f.d && pairSrc f.a && pairSrc f.b && u3Base f
def u3NoD (f : U3) : Bool := zero f.d && u3Base f
def u3AOnly (f : U3) : Bool := zero f.d && zero f.b && u3Base f
def u3None (f : U3) : Bool := zero f.d && zero f.a && zero f.b && u3Base f
def ucCopy (f : UC) : Bool := pairSrc f.a && pairSrc f.b && idx f.c && idx f.fn
/-- Ring operands: a scratchpad block by one register at team scope, a global block by an even pair (R77, R204). -/
def urRing (f : UR) : Bool :=
  zero f.rz && idx f.a && (if f.sp then f.sc == 1#3 else scope f.sc && pairSrc f.a)
/-- CVT types that occupy pairs (R117): F64, SI64, UI64. -/
def cvtPair (t : BitVec 3) : Bool := t == 0#3 || t == 6#3 || t == 7#3
/-- The reduction codes .ALLRED and .REDSCAT take 1 to 9, .ALLGATH and .BCAST 0 (R75). -/
def collFn (fn : BitVec 6) : Bool :=
  let red := (fn.extractLsb' 2 4).toNat
  if fn.getLsbD 0 then red == 0 else 1 ≤ red && red ≤ 9

end Legal

open Legal in
/-- The field that selects an operation holds an assigned value (R74, R75, R79 first case). -/
def opAssigned : Instr → Bool
  | .bit f => f.fn.toNat < 5
  | .pmov f => f.fn.toNat < 2
  | .fsgn f => f.fn.toNat < 4
  | .fsfu f => f.fn.toNat < 7
  | .dsfu f => (fnHi f.fn).toNat < 3
  | .ncvt f => (fnHi f.fn).toNat < 6
  | .vote f => f.fn.toNat < 4
  | .shfl f => (f.fn.extractLsb' 2 3).toNat < 5
  | .wred f | .wscan f =>
    let op := (fnHi f.fn).toNat
    op < 7 && (op < 4 || !f.fn.getLsbD 2)
  | .elect f => f.cc.toNat < 2
  | .pxexp f => !(f.fn.getLsbD 4 && !f.fn.getLsbD 3)
  | .ubit f => (f.imm.extractLsb' 0 3).toNat < 5
  | .ucvt f => f.imm.extractLsb' 2 10 == 0#10
  | .nmv f => (f.fn.extractLsb' 0 2) != 3#2 && fnHi f.fn == 0#3
  | .coll f => collFn f.fn
  | _ => true

open Legal in
/-- Every other condition of R59 to R78 and of the instruction's entry (R79 second case; R89, R106, R122, R127, R136). -/
def operandsOk : Instr → Bool
  | .nop f | .exit f | .bkpt f | .pxlock f | .pxkill f | .pxrel f => v3None f
  | .mov f | .iabs f | .fsqrt f => v3One f
  | .sel f => dst f.d && mark f.ka f.a && mark f.kb f.b && f.g != 7#3
  | .iadd f | .isub f | .imul f | .imulhs f | .imulhu f | .imin f | .imax f | .umin f | .umax f | .and f | .or f | .xor f
  | .andn f | .shl f | .shr f | .sar f | .fadd f | .fsub f | .fmul f | .fmin f | .fmax f | .fminn f | .fmaxn f | .fdiv f
  | .hadd2 f | .hmul2 f | .badd2 f | .bmul2 f => v3Two f
  | .imulws f | .imulwu f => v3Wide f
  | .iadd64 f | .isub64 f | .dadd f | .dsub f | .dmul f | .dmin f | .dmax f | .ddiv f => v3Pair f
  | .dsqrt f => v3PairOne f
  | .brx f | .callx f | .ret f => v3Target f
  | .matchEq f => pairDst f.d && mark f.ka f.a && zero f.b && !f.kb && guard f.g f.gn
  | .perm f | .imad f | .shf f | .bfi f | .ffma f | .hfma2 f | .bfma2 f => dst f.d
  | .bfeu f | .bfes f => dst f.d && zero f.b
  | .dfma f => pairDst f.d && pairSrc f.a && pairSrc f.b && pairSrc f.c
  | .movi f => dst f.d && zero f.a
  | .bcast f => dst f.d && srcNoLit f.a && zero f.imm
  | .iaddi f | .andi f | .ori f | .xori f => viImm f
  | .shli f | .shri f | .sari f => viShift f
  | .trap f => zero f.d && zero f.a
  | .ldsw f => vsOk dst f
  | .ldsd f => vsOk pairDst f
  | .ldsq f => vsOk quadDst f
  | .stsw f | .stsr f => vsOk srcNoLit f
  | .stsd f => vsOk pairSrc f
  | .stsq f => vsOk quadSrc f
  | .icmp f | .fcmp f => vcTwo f
  | .icmp64 f | .dcmp f => vcPair f
  | .elect f => zero f.a && zero f.b && !f.ka && !f.kb && guard f.g f.gn
  | .plog f | .qlog f => guard f.g f.gn
  | .bit f => dst f.d && zero f.b
  | .pmov f => zero f.b && (if f.fn == 0#6 then zero f.a && dst f.d else zero f.d)
  | .fsgn f => dst f.d && (f.fn.getLsbD 1 || zero f.b)
  | .fsfu f => dst f.d && zero f.b
  | .frnd f => dst f.d && zero f.b && fnHi f.fn == 0#3 && rm f.fn
  | .dsfu f =>
    pairSrc f.a && (match (fnHi f.fn).toNat with
      | 0 => pairDst f.d && zero f.b && rm f.fn
      | 1 => dst f.d && zero f.b && fnLo f.fn == 0#3
      | _ => pairDst f.d && rm f.fn)
  | .hmnx2 f => dst f.d && fnHi f.fn == 0#3
  | .cvt f =>
    let dt := fnHi f.b
    let st := fnLo f.b
    dt != st && fnHi f.fn == 0#3 && rm f.fn && (if cvtPair dt then pairDst f.d else dst f.d) && (!cvtPair st || pairSrc f.a)
  | .ncvt f => dst f.d && (if f.fn.getLsbD 3 then rm f.fn else fnLo f.fn == 0#3)
  | .regrp f => pairSrc f.b && zero (f.fn.extractLsb' 1 5) && dst f.d
  | .vote f => zero (f.a.extractLsb' 3 3) && zero f.b && dst f.d
  | .shfl f => !f.fn.getLsbD 5 && dst f.d
  | .wred f =>
    !f.fn.getLsbD 0 && zero f.b && (if f.fn.extractLsb' 1 2 == 3#2 then pairDst f.d && pairSrc f.a else dst f.d)
  | .wscan f => zero f.b && (if f.fn.extractLsb' 1 2 == 3#2 then pairDst f.d && pairSrc f.a else dst f.d)
  | .wargx f => fnHi f.fn == 0#3 && pairDst f.d
  | .pxexp f =>
    zero f.d && !f.fn.getLsbD 5 && (if f.fn.getLsbD 4 then zero f.a && fnLo f.fn == 0#3 else quadSrc f.a) &&
      (if f.fn.getLsbD 3 then idx f.b else zero f.b)
  | .bra f | .call f | .ubra f | .ucall f => guard f.p f.pn
  | .ldb f | .ldbu f | .ldh f | .ldhu f | .ldw f => vmLoad dst f
  | .ldd f => vmLoad pairDst f
  | .ldq f => vmLoad quadDst f
  | .stb f | .sth f | .stw f => vmLoad srcNoLit f
  | .std f => vmLoad pairSrc f
  | .stq f => vmLoad quadSrc f
  | .ldaq f => srcNoLit f.a && scope f.sc && (if f.sz then pairDst f.d else dst f.d)
  | .strl f => srcNoLit f.a && scope f.sc && (if f.sz then pairSrc f.d else srcNoLit f.d)
  | .atom f => srcNoLit f.a && scope f.sc && atomD f.aop f.nr f.d
  | .atoms f => srcNoLit f.a && atomD f.aop f.nr f.d
  | .mmad f | .mmas f | .mmah f | .mmab f | .mman f | .mmaq f => vtMma true f
  | .mmasp f => vtMma false f
  | .accst f => acc f.d && idx f.sa && pairSrc f.sb && zero f.fn
  | .unop f | .ttrig f => u3None f
  | .rgnc f | .rtt f => u3None f && f.qg == 7#3
  | .umov f | .gbarv f => u3One f
  | .actm f => u3One f && zero f.a
  | .uadd f | .usub f | .umul f | .umulhu f | .uminUniform f | .umaxUniform f | .uminu f | .umaxu f | .uand f | .uor f
  | .uxor f | .ushl f | .ushr f | .usar f | .ufadd f | .ufmul f | .bararv f => u3Two f
  | .usel f => dst f.d && zero f.rz && f.qg != 7#3
  | .uadd64 f | .usub64 f => u3Pair f
  | .ubrx f | .uret f | .barsync f | .rgna f | .yield f => u3AOnly f
  | .barinit f | .barwt f | .gbwt f | .gbset f | .free f => u3NoD f
  | .umovi f => dst f.d
  | .uaddi f | .uandi f | .uori f | .ubfe f => dst f.d && srcNoLit f.a
  | .ushli f | .ushri f | .rdlane f => dst f.d && srcNoLit f.a && zero (f.imm.extractLsb' 5 7)
  | .ubit f => dst f.d && srcNoLit f.a && zero (f.imm.extractLsb' 3 9)
  | .ucvt f => dst f.d && srcNoLit f.a
  | .sread f => dst f.d && zero f.a
  | .swrite f => zero f.d && srcNoLit f.a
  | .recld f => zero (f.d.extractLsb' 4 2) && pairSrc f.a
  | .trapu f => zero f.d && zero f.a
  | .uloop f => idx f.a
  | .ucmp f => zero f.rz && guard f.qg f.qn
  | .ttake f => zero f.rz && guard f.qg f.qn && f.cc == 0#3 && zero f.b && pairSrc f.a
  | .fence f => scope f.sc && zero f.rz
  | .wait f => f.set == 0#4
  | .waitx f => f.set == 1#4 && zero f.t3
  | .tload f | .tstore f | .tgath f | .tmcast f => ucCopy f
  | .nmv f => idx f.a && idx f.b && idx f.c
  | .rgnb f => pairSrc f.a && pairSrc f.b && zero f.c && zero f.fn
  | .safept f => pairSrc f.a && zero f.b && zero f.c && zero f.fn
  | .prim f => idx f.a && idx f.b && pairSrc f.c && zero (f.fn.extractLsb' 1 5)
  | .coll f => pairSrc f.a && pairSrc f.b && zero f.c
  | .racq f | .rpeek f => urRing f && dst f.d
  | .rcmt f => urRing f && f.qd == 7#3 && !f.w && srcNoLit f.d
  | .rrel f => urRing f && !f.w && srcNoLit f.d
  | .tspawn f => urRing f && idx f.d && (f.sp || (4 ≤ f.sc.toNat && f.sc.toNat ≤ 6))
  | _ => true

/-- The opcode map (R73): the instruction whose primary opcode is op, its fields taken from the word w and the literal l. -/
def parse (op : Nat) (w l : Word) : Option Instr :=
  match op with
  | 0x00 => some (.nop (Fields.v3 w l))
  | 0x01 => some (.mov (Fields.v3 w l))
  | 0x02 => some (.movi (Fields.vi w))
  | 0x03 => some (.bcast (Fields.vi w))
  | 0x04 => some (.sel (Fields.v3 w l))
  | 0x05 => some (.perm (Fields.v4 w l))
  | 0x06 => some (.iadd (Fields.v3 w l))
  | 0x07 => some (.isub (Fields.v3 w l))
  | 0x08 => some (.iaddi (Fields.vi w))
  | 0x09 => some (.imul (Fields.v3 w l))
  | 0x0A => some (.imulhs (Fields.v3 w l))
  | 0x0B => some (.imulhu (Fields.v3 w l))
  | 0x0C => some (.imad (Fields.v4 w l))
  | 0x0D => some (.imulws (Fields.v3 w l))
  | 0x0E => some (.imulwu (Fields.v3 w l))
  | 0x0F => some (.iadd64 (Fields.v3 w l))
  | 0x10 => some (.isub64 (Fields.v3 w l))
  | 0x11 => some (.imin (Fields.v3 w l))
  | 0x12 => some (.imax (Fields.v3 w l))
  | 0x13 => some (.umin (Fields.v3 w l))
  | 0x14 => some (.umax (Fields.v3 w l))
  | 0x15 => some (.iabs (Fields.v3 w l))
  | 0x16 => some (.and (Fields.v3 w l))
  | 0x17 => some (.or (Fields.v3 w l))
  | 0x18 => some (.xor (Fields.v3 w l))
  | 0x19 => some (.andn (Fields.v3 w l))
  | 0x1A => some (.andi (Fields.vi w))
  | 0x1B => some (.ori (Fields.vi w))
  | 0x1C => some (.xori (Fields.vi w))
  | 0x1D => some (.shl (Fields.v3 w l))
  | 0x1E => some (.shr (Fields.v3 w l))
  | 0x1F => some (.sar (Fields.v3 w l))
  | 0x20 => some (.shli (Fields.vi w))
  | 0x21 => some (.shri (Fields.vi w))
  | 0x22 => some (.sari (Fields.vi w))
  | 0x23 => some (.shf (Fields.v4 w l))
  | 0x24 => some (.bfeu (Fields.v4 w l))
  | 0x25 => some (.bfes (Fields.v4 w l))
  | 0x26 => some (.bfi (Fields.v4 w l))
  | 0x27 => some (.bit (Fields.vx w l))
  | 0x28 => some (.icmp (Fields.vc w l))
  | 0x29 => some (.icmp64 (Fields.vc w l))
  | 0x2A => some (.fcmp (Fields.vc w l))
  | 0x2B => some (.dcmp (Fields.vc w l))
  | 0x2C => some (.plog (Fields.vp w))
  | 0x2D => some (.pmov (Fields.vx w l))
  | 0x2E => some (.fadd (Fields.v3 w l))
  | 0x2F => some (.fsub (Fields.v3 w l))
  | 0x30 => some (.fmul (Fields.v3 w l))
  | 0x31 => some (.ffma (Fields.v4 w l))
  | 0x32 => some (.fmin (Fields.v3 w l))
  | 0x33 => some (.fmax (Fields.v3 w l))
  | 0x34 => some (.fminn (Fields.v3 w l))
  | 0x35 => some (.fmaxn (Fields.v3 w l))
  | 0x36 => some (.fsgn (Fields.vx w l))
  | 0x37 => some (.fdiv (Fields.v3 w l))
  | 0x38 => some (.fsqrt (Fields.v3 w l))
  | 0x39 => some (.fsfu (Fields.vx w l))
  | 0x3A => some (.frnd (Fields.vx w l))
  | 0x3B => some (.dadd (Fields.v3 w l))
  | 0x3C => some (.dsub (Fields.v3 w l))
  | 0x3D => some (.dmul (Fields.v3 w l))
  | 0x3E => some (.dfma (Fields.v4 w l))
  | 0x3F => some (.dmin (Fields.v3 w l))
  | 0x40 => some (.dmax (Fields.v3 w l))
  | 0x41 => some (.ddiv (Fields.v3 w l))
  | 0x42 => some (.dsqrt (Fields.v3 w l))
  | 0x43 => some (.dsfu (Fields.vx w l))
  | 0x44 => some (.hadd2 (Fields.v3 w l))
  | 0x45 => some (.hmul2 (Fields.v3 w l))
  | 0x46 => some (.hfma2 (Fields.v4 w l))
  | 0x47 => some (.hmnx2 (Fields.vx w l))
  | 0x48 => some (.badd2 (Fields.v3 w l))
  | 0x49 => some (.bmul2 (Fields.v3 w l))
  | 0x4A => some (.bfma2 (Fields.v4 w l))
  | 0x4B => some (.cvt (Fields.vx w l))
  | 0x4C => some (.ncvt (Fields.vx w l))
  | 0x4D => some (.regrp (Fields.vx w l))
  | 0x4E => some (.bra (Fields.vb w))
  | 0x4F => some (.call (Fields.vb w))
  | 0x50 => some (.brx (Fields.v3 w l))
  | 0x51 => some (.callx (Fields.v3 w l))
  | 0x52 => some (.ret (Fields.v3 w l))
  | 0x53 => some (.exit (Fields.v3 w l))
  | 0x54 => some (.trap (Fields.vi w))
  | 0x55 => some (.bkpt (Fields.v3 w l))
  | 0x56 => some (.vote (Fields.vx w l))
  | 0x57 => some (.shfl (Fields.vx w l))
  | 0x58 => some (.wred (Fields.vx w l))
  | 0x59 => some (.wscan (Fields.vx w l))
  | 0x5A => some (.wargx (Fields.vx w l))
  | 0x5B => some (.matchEq (Fields.v3 w l))
  | 0x5C => some (.elect (Fields.vc w l))
  | 0x5D => some (.ldb (Fields.vm w))
  | 0x5E => some (.ldbu (Fields.vm w))
  | 0x5F => some (.ldh (Fields.vm w))
  | 0x60 => some (.ldhu (Fields.vm w))
  | 0x61 => some (.ldw (Fields.vm w))
  | 0x62 => some (.ldd (Fields.vm w))
  | 0x63 => some (.ldq (Fields.vm w))
  | 0x64 => some (.stb (Fields.vm w))
  | 0x65 => some (.sth (Fields.vm w))
  | 0x66 => some (.stw (Fields.vm w))
  | 0x67 => some (.std (Fields.vm w))
  | 0x68 => some (.stq (Fields.vm w))
  | 0x69 => some (.ldaq (Fields.vma w))
  | 0x6A => some (.strl (Fields.vma w))
  | 0x6B => some (.atom (Fields.va w))
  | 0x6C => some (.atoms (Fields.vsa w))
  | 0x6D => some (.ldsw (Fields.vi w))
  | 0x6E => some (.ldsd (Fields.vi w))
  | 0x6F => some (.ldsq (Fields.vi w))
  | 0x70 => some (.stsw (Fields.vi w))
  | 0x71 => some (.stsd (Fields.vi w))
  | 0x72 => some (.stsq (Fields.vi w))
  | 0x73 => some (.stsr (Fields.vi w))
  | 0x74 => some (.mmad (Fields.vt w))
  | 0x75 => some (.mmas (Fields.vt w))
  | 0x76 => some (.mmah (Fields.vt w))
  | 0x77 => some (.mmab (Fields.vt w))
  | 0x78 => some (.mman (Fields.vt w))
  | 0x79 => some (.mmaq (Fields.vt w))
  | 0x7A => some (.mmasp (Fields.vt w))
  | 0x7B => some (.accst (Fields.vt w))
  | 0x7C => some (.pxlock (Fields.v3 w l))
  | 0x7D => some (.pxexp (Fields.vx w l))
  | 0x7E => some (.pxkill (Fields.v3 w l))
  | 0x7F => some (.pxrel (Fields.v3 w l))
  | 0x80 => some (.unop (Fields.u3 w l))
  | 0x81 => some (.umov (Fields.u3 w l))
  | 0x82 => some (.umovi (Fields.uw w))
  | 0x83 => some (.uadd (Fields.u3 w l))
  | 0x84 => some (.usub (Fields.u3 w l))
  | 0x85 => some (.uaddi (Fields.ui w))
  | 0x86 => some (.umul (Fields.u3 w l))
  | 0x87 => some (.umulhu (Fields.u3 w l))
  | 0x88 => some (.uadd64 (Fields.u3 w l))
  | 0x89 => some (.usub64 (Fields.u3 w l))
  | 0x8A => some (.uminUniform (Fields.u3 w l))
  | 0x8B => some (.umaxUniform (Fields.u3 w l))
  | 0x8C => some (.uminu (Fields.u3 w l))
  | 0x8D => some (.umaxu (Fields.u3 w l))
  | 0x8E => some (.uand (Fields.u3 w l))
  | 0x8F => some (.uor (Fields.u3 w l))
  | 0x90 => some (.uxor (Fields.u3 w l))
  | 0x91 => some (.uandi (Fields.ui w))
  | 0x92 => some (.uori (Fields.ui w))
  | 0x93 => some (.ushl (Fields.u3 w l))
  | 0x94 => some (.ushr (Fields.u3 w l))
  | 0x95 => some (.usar (Fields.u3 w l))
  | 0x96 => some (.ushli (Fields.ui w))
  | 0x97 => some (.ushri (Fields.ui w))
  | 0x98 => some (.ubfe (Fields.ui w))
  | 0x99 => some (.ubit (Fields.ui w))
  | 0x9A => some (.ucmp (Fields.ucc w l))
  | 0x9B => some (.usel (Fields.u3 w l))
  | 0x9C => some (.qlog (Fields.vp w))
  | 0x9D => some (.ufadd (Fields.u3 w l))
  | 0x9E => some (.ufmul (Fields.u3 w l))
  | 0x9F => some (.ucvt (Fields.ui w))
  | 0xA0 => some (.ubra (Fields.vb w))
  | 0xA1 => some (.ucall (Fields.vb w))
  | 0xA2 => some (.ubrx (Fields.u3 w l))
  | 0xA3 => some (.uret (Fields.u3 w l))
  | 0xA4 => some (.uloop (Fields.ul w))
  | 0xA5 => some (.rdlane (Fields.ui w))
  | 0xA6 => some (.actm (Fields.u3 w l))
  | 0xA7 => some (.sread (Fields.ui w))
  | 0xA8 => some (.swrite (Fields.ui w))
  | 0xA9 => some (.fence (Fields.uf w))
  | 0xAA => some (.wait (Fields.uk w))
  | 0xAB => some (.waitx (Fields.uk w))
  | 0xAC => some (.barinit (Fields.u3 w l))
  | 0xAD => some (.bararv (Fields.u3 w l))
  | 0xAE => some (.barwt (Fields.u3 w l))
  | 0xAF => some (.barsync (Fields.u3 w l))
  | 0xB0 => some (.gbarv (Fields.u3 w l))
  | 0xB1 => some (.gbwt (Fields.u3 w l))
  | 0xB2 => some (.gbset (Fields.u3 w l))
  | 0xB3 => some (.racq (Fields.ur w))
  | 0xB4 => some (.rcmt (Fields.ur w))
  | 0xB5 => some (.rpeek (Fields.ur w))
  | 0xB6 => some (.rrel (Fields.ur w))
  | 0xB7 => some (.tload (Fields.uc w))
  | 0xB8 => some (.tstore (Fields.uc w))
  | 0xB9 => some (.tgath (Fields.uc w))
  | 0xBA => some (.tmcast (Fields.uc w))
  | 0xBB => some (.nmv (Fields.uc w))
  | 0xBC => some (.rgnb (Fields.uc w))
  | 0xBD => some (.rgnc (Fields.u3 w l))
  | 0xBE => some (.rgna (Fields.u3 w l))
  | 0xBF => some (.safept (Fields.uc w))
  | 0xC0 => some (.free (Fields.u3 w l))
  | 0xC1 => some (.yield (Fields.u3 w l))
  | 0xC2 => some (.ttake (Fields.ucc w l))
  | 0xC3 => some (.tspawn (Fields.ur w))
  | 0xC4 => some (.ttrig (Fields.u3 w l))
  | 0xC5 => some (.prim (Fields.uc w))
  | 0xC6 => some (.coll (Fields.uc w))
  | 0xC7 => some (.recld (Fields.ui w))
  | 0xC8 => some (.trapu (Fields.ui w))
  | 0xC9 => some (.rtt (Fields.u3 w l))
  | _ => none

/-- The primary opcode of an instruction; events have none. -/
def Instr.opcode : Instr → Option (BitVec 8)
  | .nop _ => some 0x00#8
  | .mov _ => some 0x01#8
  | .movi _ => some 0x02#8
  | .bcast _ => some 0x03#8
  | .sel _ => some 0x04#8
  | .perm _ => some 0x05#8
  | .iadd _ => some 0x06#8
  | .isub _ => some 0x07#8
  | .iaddi _ => some 0x08#8
  | .imul _ => some 0x09#8
  | .imulhs _ => some 0x0A#8
  | .imulhu _ => some 0x0B#8
  | .imad _ => some 0x0C#8
  | .imulws _ => some 0x0D#8
  | .imulwu _ => some 0x0E#8
  | .iadd64 _ => some 0x0F#8
  | .isub64 _ => some 0x10#8
  | .imin _ => some 0x11#8
  | .imax _ => some 0x12#8
  | .umin _ => some 0x13#8
  | .umax _ => some 0x14#8
  | .iabs _ => some 0x15#8
  | .and _ => some 0x16#8
  | .or _ => some 0x17#8
  | .xor _ => some 0x18#8
  | .andn _ => some 0x19#8
  | .andi _ => some 0x1A#8
  | .ori _ => some 0x1B#8
  | .xori _ => some 0x1C#8
  | .shl _ => some 0x1D#8
  | .shr _ => some 0x1E#8
  | .sar _ => some 0x1F#8
  | .shli _ => some 0x20#8
  | .shri _ => some 0x21#8
  | .sari _ => some 0x22#8
  | .shf _ => some 0x23#8
  | .bfeu _ => some 0x24#8
  | .bfes _ => some 0x25#8
  | .bfi _ => some 0x26#8
  | .bit _ => some 0x27#8
  | .icmp _ => some 0x28#8
  | .icmp64 _ => some 0x29#8
  | .fcmp _ => some 0x2A#8
  | .dcmp _ => some 0x2B#8
  | .plog _ => some 0x2C#8
  | .pmov _ => some 0x2D#8
  | .fadd _ => some 0x2E#8
  | .fsub _ => some 0x2F#8
  | .fmul _ => some 0x30#8
  | .ffma _ => some 0x31#8
  | .fmin _ => some 0x32#8
  | .fmax _ => some 0x33#8
  | .fminn _ => some 0x34#8
  | .fmaxn _ => some 0x35#8
  | .fsgn _ => some 0x36#8
  | .fdiv _ => some 0x37#8
  | .fsqrt _ => some 0x38#8
  | .fsfu _ => some 0x39#8
  | .frnd _ => some 0x3A#8
  | .dadd _ => some 0x3B#8
  | .dsub _ => some 0x3C#8
  | .dmul _ => some 0x3D#8
  | .dfma _ => some 0x3E#8
  | .dmin _ => some 0x3F#8
  | .dmax _ => some 0x40#8
  | .ddiv _ => some 0x41#8
  | .dsqrt _ => some 0x42#8
  | .dsfu _ => some 0x43#8
  | .hadd2 _ => some 0x44#8
  | .hmul2 _ => some 0x45#8
  | .hfma2 _ => some 0x46#8
  | .hmnx2 _ => some 0x47#8
  | .badd2 _ => some 0x48#8
  | .bmul2 _ => some 0x49#8
  | .bfma2 _ => some 0x4A#8
  | .cvt _ => some 0x4B#8
  | .ncvt _ => some 0x4C#8
  | .regrp _ => some 0x4D#8
  | .bra _ => some 0x4E#8
  | .call _ => some 0x4F#8
  | .brx _ => some 0x50#8
  | .callx _ => some 0x51#8
  | .ret _ => some 0x52#8
  | .exit _ => some 0x53#8
  | .trap _ => some 0x54#8
  | .bkpt _ => some 0x55#8
  | .vote _ => some 0x56#8
  | .shfl _ => some 0x57#8
  | .wred _ => some 0x58#8
  | .wscan _ => some 0x59#8
  | .wargx _ => some 0x5A#8
  | .matchEq _ => some 0x5B#8
  | .elect _ => some 0x5C#8
  | .ldb _ => some 0x5D#8
  | .ldbu _ => some 0x5E#8
  | .ldh _ => some 0x5F#8
  | .ldhu _ => some 0x60#8
  | .ldw _ => some 0x61#8
  | .ldd _ => some 0x62#8
  | .ldq _ => some 0x63#8
  | .stb _ => some 0x64#8
  | .sth _ => some 0x65#8
  | .stw _ => some 0x66#8
  | .std _ => some 0x67#8
  | .stq _ => some 0x68#8
  | .ldaq _ => some 0x69#8
  | .strl _ => some 0x6A#8
  | .atom _ => some 0x6B#8
  | .atoms _ => some 0x6C#8
  | .ldsw _ => some 0x6D#8
  | .ldsd _ => some 0x6E#8
  | .ldsq _ => some 0x6F#8
  | .stsw _ => some 0x70#8
  | .stsd _ => some 0x71#8
  | .stsq _ => some 0x72#8
  | .stsr _ => some 0x73#8
  | .mmad _ => some 0x74#8
  | .mmas _ => some 0x75#8
  | .mmah _ => some 0x76#8
  | .mmab _ => some 0x77#8
  | .mman _ => some 0x78#8
  | .mmaq _ => some 0x79#8
  | .mmasp _ => some 0x7A#8
  | .accst _ => some 0x7B#8
  | .pxlock _ => some 0x7C#8
  | .pxexp _ => some 0x7D#8
  | .pxkill _ => some 0x7E#8
  | .pxrel _ => some 0x7F#8
  | .unop _ => some 0x80#8
  | .umov _ => some 0x81#8
  | .umovi _ => some 0x82#8
  | .uadd _ => some 0x83#8
  | .usub _ => some 0x84#8
  | .uaddi _ => some 0x85#8
  | .umul _ => some 0x86#8
  | .umulhu _ => some 0x87#8
  | .uadd64 _ => some 0x88#8
  | .usub64 _ => some 0x89#8
  | .uminUniform _ => some 0x8A#8
  | .umaxUniform _ => some 0x8B#8
  | .uminu _ => some 0x8C#8
  | .umaxu _ => some 0x8D#8
  | .uand _ => some 0x8E#8
  | .uor _ => some 0x8F#8
  | .uxor _ => some 0x90#8
  | .uandi _ => some 0x91#8
  | .uori _ => some 0x92#8
  | .ushl _ => some 0x93#8
  | .ushr _ => some 0x94#8
  | .usar _ => some 0x95#8
  | .ushli _ => some 0x96#8
  | .ushri _ => some 0x97#8
  | .ubfe _ => some 0x98#8
  | .ubit _ => some 0x99#8
  | .ucmp _ => some 0x9A#8
  | .usel _ => some 0x9B#8
  | .qlog _ => some 0x9C#8
  | .ufadd _ => some 0x9D#8
  | .ufmul _ => some 0x9E#8
  | .ucvt _ => some 0x9F#8
  | .ubra _ => some 0xA0#8
  | .ucall _ => some 0xA1#8
  | .ubrx _ => some 0xA2#8
  | .uret _ => some 0xA3#8
  | .uloop _ => some 0xA4#8
  | .rdlane _ => some 0xA5#8
  | .actm _ => some 0xA6#8
  | .sread _ => some 0xA7#8
  | .swrite _ => some 0xA8#8
  | .fence _ => some 0xA9#8
  | .wait _ => some 0xAA#8
  | .waitx _ => some 0xAB#8
  | .barinit _ => some 0xAC#8
  | .bararv _ => some 0xAD#8
  | .barwt _ => some 0xAE#8
  | .barsync _ => some 0xAF#8
  | .gbarv _ => some 0xB0#8
  | .gbwt _ => some 0xB1#8
  | .gbset _ => some 0xB2#8
  | .racq _ => some 0xB3#8
  | .rcmt _ => some 0xB4#8
  | .rpeek _ => some 0xB5#8
  | .rrel _ => some 0xB6#8
  | .tload _ => some 0xB7#8
  | .tstore _ => some 0xB8#8
  | .tgath _ => some 0xB9#8
  | .tmcast _ => some 0xBA#8
  | .nmv _ => some 0xBB#8
  | .rgnb _ => some 0xBC#8
  | .rgnc _ => some 0xBD#8
  | .rgna _ => some 0xBE#8
  | .safept _ => some 0xBF#8
  | .free _ => some 0xC0#8
  | .yield _ => some 0xC1#8
  | .ttake _ => some 0xC2#8
  | .tspawn _ => some 0xC3#8
  | .ttrig _ => some 0xC4#8
  | .prim _ => some 0xC5#8
  | .coll _ => some 0xC6#8
  | .recld _ => some 0xC7#8
  | .trapu _ => some 0xC8#8
  | .rtt _ => some 0xC9#8
  | .errinjWrite _ _ => none
  | .clockReadLatch _ _ _ => none
  | .yieldExpiry _ _ => none
  | .addressMatchStop _ _ => none
  | .loadDataArrival _ _ => none
  | .storeAcknowledge _ _ => none
  | .waitComplete _ _ => none
  | .fenceActionComplete _ => none
  | .waveRetire _ => none
  | .rowGrant _ => none
  | .swapCandidacyTimeout _ => none
  | .swapOut _ => none
  | .swapGranuleDrain _ => none
  | .swapRestore _ => none
  | .splitChange _ => none
  | .rowRelocation _ _ => none
  | .l1Eviction _ _ _ => none
  | .teamAdmission _ _ => none
  | .crewAdmission _ _ => none
  | .crewReservation _ _ => none
  | .preemptRequest _ => none
  | .forcedStop _ => none
  | .teamSave _ => none
  | .teamRestore _ _ => none
  | .priorityPreemption => none
  | .thermalMigration _ => none
  | .laneRetirement _ _ _ => none
  | .replayPlacement _ => none
  | .rendezvousComplete _ => none
  | .rgncCompletion _ => none
  | .barTimeout _ _ => none
  | .rendezvousTimeout _ => none
  | .groupBarrierTimeout _ _ => none
  | .ringRetry _ _ => none
  | .ringTimeout _ _ => none
  | .armedMapUpdate _ _ => none
  | .barinitRepliesDone _ _ => none
  | .stsrPerform _ _ => none
  | .ttrigMark _ => none
  | .dependenceReevaluation => none
  | .taskSelect => none
  | .priorityAging _ _ => none
  | .rangeSplit _ => none
  | .dispatcherAccessFault _ _ _ => none
  | .l2Request _ => none
  | .rdcFill _ => none
  | .deadlockProbeSend _ _ _ _ _ _ => none
  | .probeForward _ _ _ => none
  | .recoveryToken _ _ => none
  | .recoveryShift _ _ => none
  | .linkReplay _ _ => none
  | .linkDead _ _ => none
  | .requestTimeout _ => none
  | .packetAgeDiscard _ _ => none
  | .staleReplyDrop _ _ => none
  | .copyTransfer _ _ => none
  | .copyArrival _ _ => none
  | .tmcastMemberDelivery _ _ _ _ => none
  | .cloveMissRead _ _ => none
  | .tileOpStart _ _ => none
  | .tileOpComplete _ _ => none
  | .accstComplete _ _ => none
  | .nmvComplete _ _ => none
  | .scoutBatchServiced _ _ => none
  | .migrationRetry _ => none
  | .migrationTimeout _ => none
  | .invalidationComplete _ => none
  | .quiescenceAdvance => none
  | .fetchFault _ _ => none
  | .primAccept _ _ => none
  | .exchangeForward _ _ => none
  | .recordBin _ _ _ => none
  | .closeMarkerArrival _ _ _ _ => none
  | .tileFlush _ _ _ _ _ => none
  | .tileBufferGrant _ _ _ _ _ => none
  | .passRender _ _ _ => none
  | .passEnd _ _ => none
  | .pixelWaveLaunch _ _ _ _ => none
  | .blendApply _ _ _ _ => none
  | .sectionAcquire _ _ => none
  | .rasterWatchdog _ _ _ => none
  | .sectionTimeout _ _ => none
  | .rasterAccessFault _ _ _ _ => none
  | .hbmScrub _ _ _ => none
  | .bankRowRetirement _ _ _ => none
  | .nodeReply _ _ => none
  | .notReadyRetry _ => none
  | .nodeNegativeReply _ _ => none
  | .ualinkKeyInstall _ _ => none
  | .keySwitch _ => none
  | .keyRetire _ => none
  | .flitAuthFail _ => none
  | .ualinkPortDead _ => none
  | .collMemberDrop _ _ _ => none
  | .collExchangeComplete _ _ _ => none
  | .moduleReset _ _ => none
  | .hostRdmaRead _ _ _ => none
  | .hostRdmaWrite _ _ _ => none
  | .shortMessageDrop _ _ _ => none
  | .hostOpen _ _ _ => none
  | .hostClose _ => none
  | .createCtx _ _ => none
  | .destroyCtx _ => none
  | .hostMap _ _ => none
  | .createQueue _ _ => none
  | .loadCode _ _ => none
  | .codeSync _ => none
  | .submit _ _ _ => none
  | .readLog _ _ => none
  | .setPolicyBinpool _ _ => none
  | .setPolicyJournal _ _ => none
  | .setPolicyGroup _ _ _ => none
  | .setPolicyFabmap _ _ => none
  | .setPolicyCgroup _ _ => none
  | .setPolicyCtimeout _ _ => none
  | .debugAttach _ => none
  | .debugDetach _ => none
  | .debugStop _ _ => none
  | .debugTeamStop _ _ _ => none
  | .debugStep _ _ => none
  | .debugResume _ _ => none
  | .debugReadState _ _ _ => none
  | .debugWriteState _ _ _ _ => none
  | .debugAddressMatch _ _ => none
  | .getVersion _ => none
  | .getCapabilities _ => none
  | .negotiateAlgorithms _ _ => none
  | .getDigests _ => none
  | .getCertificate _ _ _ => none
  | .challenge _ _ => none
  | .getMeasurements _ _ => none
  | .keyExchange _ _ => none
  | .spdmFinish _ _ => none
  | .endSession _ => none
  | .illegalEncoding _ _ => none
  | .pageFaultServiced _ _ => none
  | .pageMigration _ _ _ => none
  | .deadPortRestore _ => none
  | .hostPortFailure _ => none
  | .ptimeDiscipline _ => none

/-- Bits [23:0] of the word. -/
def Instr.body : Instr → BitVec 24
  | .nop f => Fields.v3Body f
  | .mov f => Fields.v3Body f
  | .movi f => Fields.viBody f
  | .bcast f => Fields.viBody f
  | .sel f => Fields.v3Body f
  | .perm f => Fields.v4Body f
  | .iadd f => Fields.v3Body f
  | .isub f => Fields.v3Body f
  | .iaddi f => Fields.viBody f
  | .imul f => Fields.v3Body f
  | .imulhs f => Fields.v3Body f
  | .imulhu f => Fields.v3Body f
  | .imad f => Fields.v4Body f
  | .imulws f => Fields.v3Body f
  | .imulwu f => Fields.v3Body f
  | .iadd64 f => Fields.v3Body f
  | .isub64 f => Fields.v3Body f
  | .imin f => Fields.v3Body f
  | .imax f => Fields.v3Body f
  | .umin f => Fields.v3Body f
  | .umax f => Fields.v3Body f
  | .iabs f => Fields.v3Body f
  | .and f => Fields.v3Body f
  | .or f => Fields.v3Body f
  | .xor f => Fields.v3Body f
  | .andn f => Fields.v3Body f
  | .andi f => Fields.viBody f
  | .ori f => Fields.viBody f
  | .xori f => Fields.viBody f
  | .shl f => Fields.v3Body f
  | .shr f => Fields.v3Body f
  | .sar f => Fields.v3Body f
  | .shli f => Fields.viBody f
  | .shri f => Fields.viBody f
  | .sari f => Fields.viBody f
  | .shf f => Fields.v4Body f
  | .bfeu f => Fields.v4Body f
  | .bfes f => Fields.v4Body f
  | .bfi f => Fields.v4Body f
  | .bit f => Fields.vxBody f
  | .icmp f => Fields.vcBody f
  | .icmp64 f => Fields.vcBody f
  | .fcmp f => Fields.vcBody f
  | .dcmp f => Fields.vcBody f
  | .plog f => Fields.vpBody f
  | .pmov f => Fields.vxBody f
  | .fadd f => Fields.v3Body f
  | .fsub f => Fields.v3Body f
  | .fmul f => Fields.v3Body f
  | .ffma f => Fields.v4Body f
  | .fmin f => Fields.v3Body f
  | .fmax f => Fields.v3Body f
  | .fminn f => Fields.v3Body f
  | .fmaxn f => Fields.v3Body f
  | .fsgn f => Fields.vxBody f
  | .fdiv f => Fields.v3Body f
  | .fsqrt f => Fields.v3Body f
  | .fsfu f => Fields.vxBody f
  | .frnd f => Fields.vxBody f
  | .dadd f => Fields.v3Body f
  | .dsub f => Fields.v3Body f
  | .dmul f => Fields.v3Body f
  | .dfma f => Fields.v4Body f
  | .dmin f => Fields.v3Body f
  | .dmax f => Fields.v3Body f
  | .ddiv f => Fields.v3Body f
  | .dsqrt f => Fields.v3Body f
  | .dsfu f => Fields.vxBody f
  | .hadd2 f => Fields.v3Body f
  | .hmul2 f => Fields.v3Body f
  | .hfma2 f => Fields.v4Body f
  | .hmnx2 f => Fields.vxBody f
  | .badd2 f => Fields.v3Body f
  | .bmul2 f => Fields.v3Body f
  | .bfma2 f => Fields.v4Body f
  | .cvt f => Fields.vxBody f
  | .ncvt f => Fields.vxBody f
  | .regrp f => Fields.vxBody f
  | .bra f => Fields.vbBody f
  | .call f => Fields.vbBody f
  | .brx f => Fields.v3Body f
  | .callx f => Fields.v3Body f
  | .ret f => Fields.v3Body f
  | .exit f => Fields.v3Body f
  | .trap f => Fields.viBody f
  | .bkpt f => Fields.v3Body f
  | .vote f => Fields.vxBody f
  | .shfl f => Fields.vxBody f
  | .wred f => Fields.vxBody f
  | .wscan f => Fields.vxBody f
  | .wargx f => Fields.vxBody f
  | .matchEq f => Fields.v3Body f
  | .elect f => Fields.vcBody f
  | .ldb f => Fields.vmBody f
  | .ldbu f => Fields.vmBody f
  | .ldh f => Fields.vmBody f
  | .ldhu f => Fields.vmBody f
  | .ldw f => Fields.vmBody f
  | .ldd f => Fields.vmBody f
  | .ldq f => Fields.vmBody f
  | .stb f => Fields.vmBody f
  | .sth f => Fields.vmBody f
  | .stw f => Fields.vmBody f
  | .std f => Fields.vmBody f
  | .stq f => Fields.vmBody f
  | .ldaq f => Fields.vmaBody f
  | .strl f => Fields.vmaBody f
  | .atom f => Fields.vaBody f
  | .atoms f => Fields.vsaBody f
  | .ldsw f => Fields.viBody f
  | .ldsd f => Fields.viBody f
  | .ldsq f => Fields.viBody f
  | .stsw f => Fields.viBody f
  | .stsd f => Fields.viBody f
  | .stsq f => Fields.viBody f
  | .stsr f => Fields.viBody f
  | .mmad f => Fields.vtBody f
  | .mmas f => Fields.vtBody f
  | .mmah f => Fields.vtBody f
  | .mmab f => Fields.vtBody f
  | .mman f => Fields.vtBody f
  | .mmaq f => Fields.vtBody f
  | .mmasp f => Fields.vtBody f
  | .accst f => Fields.vtBody f
  | .pxlock f => Fields.v3Body f
  | .pxexp f => Fields.vxBody f
  | .pxkill f => Fields.v3Body f
  | .pxrel f => Fields.v3Body f
  | .unop f => Fields.u3Body f
  | .umov f => Fields.u3Body f
  | .umovi f => Fields.uwBody f
  | .uadd f => Fields.u3Body f
  | .usub f => Fields.u3Body f
  | .uaddi f => Fields.uiBody f
  | .umul f => Fields.u3Body f
  | .umulhu f => Fields.u3Body f
  | .uadd64 f => Fields.u3Body f
  | .usub64 f => Fields.u3Body f
  | .uminUniform f => Fields.u3Body f
  | .umaxUniform f => Fields.u3Body f
  | .uminu f => Fields.u3Body f
  | .umaxu f => Fields.u3Body f
  | .uand f => Fields.u3Body f
  | .uor f => Fields.u3Body f
  | .uxor f => Fields.u3Body f
  | .uandi f => Fields.uiBody f
  | .uori f => Fields.uiBody f
  | .ushl f => Fields.u3Body f
  | .ushr f => Fields.u3Body f
  | .usar f => Fields.u3Body f
  | .ushli f => Fields.uiBody f
  | .ushri f => Fields.uiBody f
  | .ubfe f => Fields.uiBody f
  | .ubit f => Fields.uiBody f
  | .ucmp f => Fields.uccBody f
  | .usel f => Fields.u3Body f
  | .qlog f => Fields.vpBody f
  | .ufadd f => Fields.u3Body f
  | .ufmul f => Fields.u3Body f
  | .ucvt f => Fields.uiBody f
  | .ubra f => Fields.vbBody f
  | .ucall f => Fields.vbBody f
  | .ubrx f => Fields.u3Body f
  | .uret f => Fields.u3Body f
  | .uloop f => Fields.ulBody f
  | .rdlane f => Fields.uiBody f
  | .actm f => Fields.u3Body f
  | .sread f => Fields.uiBody f
  | .swrite f => Fields.uiBody f
  | .fence f => Fields.ufBody f
  | .wait f => Fields.ukBody f
  | .waitx f => Fields.ukBody f
  | .barinit f => Fields.u3Body f
  | .bararv f => Fields.u3Body f
  | .barwt f => Fields.u3Body f
  | .barsync f => Fields.u3Body f
  | .gbarv f => Fields.u3Body f
  | .gbwt f => Fields.u3Body f
  | .gbset f => Fields.u3Body f
  | .racq f => Fields.urBody f
  | .rcmt f => Fields.urBody f
  | .rpeek f => Fields.urBody f
  | .rrel f => Fields.urBody f
  | .tload f => Fields.ucBody f
  | .tstore f => Fields.ucBody f
  | .tgath f => Fields.ucBody f
  | .tmcast f => Fields.ucBody f
  | .nmv f => Fields.ucBody f
  | .rgnb f => Fields.ucBody f
  | .rgnc f => Fields.u3Body f
  | .rgna f => Fields.u3Body f
  | .safept f => Fields.ucBody f
  | .free f => Fields.u3Body f
  | .yield f => Fields.u3Body f
  | .ttake f => Fields.uccBody f
  | .tspawn f => Fields.urBody f
  | .ttrig f => Fields.u3Body f
  | .prim f => Fields.ucBody f
  | .coll f => Fields.ucBody f
  | .recld f => Fields.uiBody f
  | .trapu f => Fields.uiBody f
  | .rtt f => Fields.u3Body f
  | .errinjWrite _ _ => 0
  | .clockReadLatch _ _ _ => 0
  | .yieldExpiry _ _ => 0
  | .addressMatchStop _ _ => 0
  | .loadDataArrival _ _ => 0
  | .storeAcknowledge _ _ => 0
  | .waitComplete _ _ => 0
  | .fenceActionComplete _ => 0
  | .waveRetire _ => 0
  | .rowGrant _ => 0
  | .swapCandidacyTimeout _ => 0
  | .swapOut _ => 0
  | .swapGranuleDrain _ => 0
  | .swapRestore _ => 0
  | .splitChange _ => 0
  | .rowRelocation _ _ => 0
  | .l1Eviction _ _ _ => 0
  | .teamAdmission _ _ => 0
  | .crewAdmission _ _ => 0
  | .crewReservation _ _ => 0
  | .preemptRequest _ => 0
  | .forcedStop _ => 0
  | .teamSave _ => 0
  | .teamRestore _ _ => 0
  | .priorityPreemption => 0
  | .thermalMigration _ => 0
  | .laneRetirement _ _ _ => 0
  | .replayPlacement _ => 0
  | .rendezvousComplete _ => 0
  | .rgncCompletion _ => 0
  | .barTimeout _ _ => 0
  | .rendezvousTimeout _ => 0
  | .groupBarrierTimeout _ _ => 0
  | .ringRetry _ _ => 0
  | .ringTimeout _ _ => 0
  | .armedMapUpdate _ _ => 0
  | .barinitRepliesDone _ _ => 0
  | .stsrPerform _ _ => 0
  | .ttrigMark _ => 0
  | .dependenceReevaluation => 0
  | .taskSelect => 0
  | .priorityAging _ _ => 0
  | .rangeSplit _ => 0
  | .dispatcherAccessFault _ _ _ => 0
  | .l2Request _ => 0
  | .rdcFill _ => 0
  | .deadlockProbeSend _ _ _ _ _ _ => 0
  | .probeForward _ _ _ => 0
  | .recoveryToken _ _ => 0
  | .recoveryShift _ _ => 0
  | .linkReplay _ _ => 0
  | .linkDead _ _ => 0
  | .requestTimeout _ => 0
  | .packetAgeDiscard _ _ => 0
  | .staleReplyDrop _ _ => 0
  | .copyTransfer _ _ => 0
  | .copyArrival _ _ => 0
  | .tmcastMemberDelivery _ _ _ _ => 0
  | .cloveMissRead _ _ => 0
  | .tileOpStart _ _ => 0
  | .tileOpComplete _ _ => 0
  | .accstComplete _ _ => 0
  | .nmvComplete _ _ => 0
  | .scoutBatchServiced _ _ => 0
  | .migrationRetry _ => 0
  | .migrationTimeout _ => 0
  | .invalidationComplete _ => 0
  | .quiescenceAdvance => 0
  | .fetchFault _ _ => 0
  | .primAccept _ _ => 0
  | .exchangeForward _ _ => 0
  | .recordBin _ _ _ => 0
  | .closeMarkerArrival _ _ _ _ => 0
  | .tileFlush _ _ _ _ _ => 0
  | .tileBufferGrant _ _ _ _ _ => 0
  | .passRender _ _ _ => 0
  | .passEnd _ _ => 0
  | .pixelWaveLaunch _ _ _ _ => 0
  | .blendApply _ _ _ _ => 0
  | .sectionAcquire _ _ => 0
  | .rasterWatchdog _ _ _ => 0
  | .sectionTimeout _ _ => 0
  | .rasterAccessFault _ _ _ _ => 0
  | .hbmScrub _ _ _ => 0
  | .bankRowRetirement _ _ _ => 0
  | .nodeReply _ _ => 0
  | .notReadyRetry _ => 0
  | .nodeNegativeReply _ _ => 0
  | .ualinkKeyInstall _ _ => 0
  | .keySwitch _ => 0
  | .keyRetire _ => 0
  | .flitAuthFail _ => 0
  | .ualinkPortDead _ => 0
  | .collMemberDrop _ _ _ => 0
  | .collExchangeComplete _ _ _ => 0
  | .moduleReset _ _ => 0
  | .hostRdmaRead _ _ _ => 0
  | .hostRdmaWrite _ _ _ => 0
  | .shortMessageDrop _ _ _ => 0
  | .hostOpen _ _ _ => 0
  | .hostClose _ => 0
  | .createCtx _ _ => 0
  | .destroyCtx _ => 0
  | .hostMap _ _ => 0
  | .createQueue _ _ => 0
  | .loadCode _ _ => 0
  | .codeSync _ => 0
  | .submit _ _ _ => 0
  | .readLog _ _ => 0
  | .setPolicyBinpool _ _ => 0
  | .setPolicyJournal _ _ => 0
  | .setPolicyGroup _ _ _ => 0
  | .setPolicyFabmap _ _ => 0
  | .setPolicyCgroup _ _ => 0
  | .setPolicyCtimeout _ _ => 0
  | .debugAttach _ => 0
  | .debugDetach _ => 0
  | .debugStop _ _ => 0
  | .debugTeamStop _ _ _ => 0
  | .debugStep _ _ => 0
  | .debugResume _ _ => 0
  | .debugReadState _ _ _ => 0
  | .debugWriteState _ _ _ _ => 0
  | .debugAddressMatch _ _ => 0
  | .getVersion _ => 0
  | .getCapabilities _ => 0
  | .negotiateAlgorithms _ _ => 0
  | .getDigests _ => 0
  | .getCertificate _ _ _ => 0
  | .challenge _ _ => 0
  | .getMeasurements _ _ => 0
  | .keyExchange _ _ => 0
  | .spdmFinish _ _ => 0
  | .endSession _ => 0
  | .illegalEncoding _ _ => 0
  | .pageFaultServiced _ _ => 0
  | .pageMigration _ _ _ => 0
  | .deadPortRestore _ => 0
  | .hostPortFailure _ => 0
  | .ptimeDiscipline _ => 0

/-- Why a word that parses to i is no instruction, if it is none: ILLEGAL_OP before ILLEGAL_OPERAND (R79). (Log 13: DEDUCED.) (Log 14: DEDUCED.) -/
def illegal (i : Instr) : Option Reject :=
  if !opAssigned i then some .illegalOp else if !operandsOk i then some .illegalOperand else none

/-- A little-endian word from its four bytes (R6, R59). -/
def wordOfBytes (b0 b1 b2 b3 : Byte) : Word := b3 ++ b2 ++ b1 ++ b0

/-- The four bytes of a word in ascending address order (R6). -/
def wordBytes (w : Word) : List Byte :=
  [w.extractLsb' 0 8, w.extractLsb' 8 8, w.extractLsb' 16 8, w.extractLsb' 24 8]

/-- The instruction of a word and the literal word after it; the literal is dropped where none is taken (R60, R69). -/
def decodeWords (w l : Word) : Except Reject Instr :=
  match parse (w.extractLsb' 24 8).toNat w 0 with
  | none => .error .illegalOp
  | some i =>
    match illegal i with
    | some r => .error r
    | none => if i.takesLit then
        match parse (w.extractLsb' 24 8).toNat w l with
        | some j => .ok j
        | none => .error .illegalOp
      else .ok i

/-- Bytes of an instruction in the code window: 4, or 8 with a literal word (R60). -/
def Instr.size (i : Instr) : Nat := if i.takesLit then 8 else 4

/-- The decoder: total on any bytes; it answers the instruction and the bytes after it, or refuses by name. (Log 67: DESIGN CHOICE.) -/
def decode : List Byte → Except Reject (Instr × List Byte)
  | b0 :: b1 :: b2 :: b3 :: rest =>
    match rest with
    | c0 :: c1 :: c2 :: c3 :: rest' =>
      match decodeWords (wordOfBytes b0 b1 b2 b3) (wordOfBytes c0 c1 c2 c3) with
      | .error r => .error r
      | .ok i => .ok (i, if i.takesLit then rest' else rest)
    | _ =>
      match decodeWords (wordOfBytes b0 b1 b2 b3) 0 with
      | .error r => .error r
      | .ok i => if i.takesLit then .error .truncated else .ok (i, rest)
  | _ => .error .truncated

/-- The instruction the decoder reads from the row's bits w, the words above nbits zero. -/
def decodeTableWord (_nbits w : Nat) : Option Instr :=
  match decode (wordBytes (BitVec.ofNat 32 w) ++ wordBytes (BitVec.ofNat 32 (w / 2 ^ 32))) with
  | .ok (i, _) => some i
  | .error _ => none

/-! ### The encoder -/

/-- The words of an instruction: the instruction word, and the literal word where it takes one; none for an event. (Log 67: DESIGN CHOICE.) -/
def encode (i : Instr) : List Word :=
  match i.opcode with
  | none => []
  | some op => ((op ++ i.body : BitVec 32)) :: (if i.takesLit then [i.litWord] else [])

/-- The bytes of an instruction as they lie in the code window. -/
def encodeBytes (i : Instr) : List Byte := (encode i).flatMap wordBytes

end Sys2Proof
end

