-- ==== Sys2Proof/Config.lean ====
section
/-! DEFINITION. What the spec fixes for this part as numbers, and the free values: opaque constants with no body, so that nothing
in Lean can evaluate one. Each is applied to the counter State.freeCount, which the step that reads one advances. -/

namespace Sys2Proof.Config

/-- A byte whose value the spec leaves open (spec/08_the_core.md R170, spec/18_package_rasteriser.md R385). Log 7: DESIGN CHOICE. -/
opaque freeByte : Nat → BitVec 8

/-- A 32-bit word whose value the spec leaves open. Log 7: DESIGN CHOICE. -/
opaque freeWord : Nat → BitVec 32

/-- The measurement values of spec/21_host_and_fabric.md R431, by index; the spec gives no figures. Log 7: DESIGN CHOICE. -/
opaque measurement : Nat → BitVec 384

/-- The certificate chain of R430: its bytes by position; the spec gives none. Log 7: DESIGN CHOICE. -/
opaque certByte : Nat → BitVec 8

/-- The bytes of one element of a collective that names no reduction, .ALLGATH and .BCAST (spec/21_host_and_fabric.md R439): the spec
gives its COUNT in elements and states no element type. Log 7: DESIGN CHOICE. -/
opaque collElement : Nat

/-- Whether a read that may be merged with an older pending read of its line is (spec/14_the_die.md R296). Log 24: DESIGN CHOICE. -/
opaque mergeRead : Nat → Bool

/-- The packet places of a network buffer beyond two, the least that R286 of spec/14_the_die.md needs; the spec gives no size. Log 73: DESIGN
CHOICE. -/
opaque morePlaces : Nat

/-- Dies, clusters per die, cores per cluster, wave slots per core (spec/00_scope.md R2). -/
def dies : Nat := 8
def clustersPerDie : Nat := 32
def coresPerCluster : Nat := 4
def slotsPerCore : Nat := 64
def slotsPerQuarter : Nat := 16
def rowsPerGranule : Nat := 256

/-- Arithmetic clocks in one microsecond (R5: 1.5 GHz). -/
def clocksPerUs : Nat := 1500

/-- Network clocks are counted in fifteenths of sixteen arithmetic clocks (R5: 1.6 GHz): the arithmetic clocks that n network clocks last, rounded up. -/
def networkClocks (n : Nat) : Nat := (n * 15 + 15) / 16

end Sys2Proof.Config
end

