-- ==== Sys2Proof/Machine/State.lean ====
section
/-! DEFINITION. The state of the module as plain data: every register, queue, counter and mark that the spec names, together with
the few fields that the model adds to run (agenda, accidents, sel, pending, prior, phase, nextId, freeCount: log 1, 2, 7, 44: DESIGN CHOICE), and its value right after reset. -/

namespace Sys2Proof.Machine

/-- How a step can stop the machine. No rule of the spec stops it: no meaning of this model raises halted. -/
inductive Fault where
  /-- Raised by nothing: the spec describes an effect for every instruction. Safe. -/
  | halted
  deriving DecidableEq, Repr

/-- Why the model gives no meaning. -/
inductive Refusal where
  /-- Raised by an arm of exec whose instruction has no meaning yet. Safe. -/
  | notModelled (mnemonic : String)
  deriving DecidableEq, Repr

/-! ### Threads (R12, R14, R15) -/

/-- Status of a thread (R12, R14). -/
inductive LaneStatus where
  | live
  | exited
  | absent
  deriving DecidableEq, Repr

/-- Block state of a thread but for stopped, which is kept apart so that the state before a stop is not lost (R15, R153). -/
inductive Block where
  | none
  | held
  | waiting
  deriving DecidableEq, Repr

/-- The span in which a yielding thread is not ready (R149). -/
inductive YieldSpan where
  | none
  | until (clock : Nat)
  | opportunity
  deriving DecidableEq, Repr

/-- One thread (R12), with its trigger mark (R312). -/
structure Lane where
  pc : Word
  preds : BitVec 7
  predPois : BitVec 7
  status : LaneStatus
  block : Block
  stopped : Bool
  passed : BitVec 7
  trig : Bool
  yieldSpan : YieldSpan
  deriving DecidableEq, Repr

/-- One row of the register pool, mapped to a name (R165): lane words, poison bits, parity bits, pending readers, and which row of the
pool it is: 256 times its granule and the row within it. par: the lanes whose stored parity bit disagrees with their word (log 69: DEDUCED). -/
structure Row where
  words : Lanes Word
  pois : LaneMask
  par : LaneMask
  readers : LaneMask
  place : Nat
  deriving DecidableEq, Repr

/-! ### Outstanding operations (R193 to R196) -/

/-- The seven counter classes (R13). -/
inductive Class where
  | ld
  | st
  | cp
  | tl
  | nm
  | rs
  | fx
  deriving DecidableEq, Repr

/-- A memory byte with its poison mark. -/
structure MByte where
  val : Byte
  pois : Bool
  deriving DecidableEq, Repr

/-- One byte of a lane's access: where it is, and its value once captured. -/
structure ByteAcc where
  va : Nat
  pa : Nat
  got : Option MByte
  deriving DecidableEq, Repr

/-- One lane's access: its bytes in order, its data for a write, the old value of an atomic. -/
structure LaneAcc where
  lane : Nat
  bytes : List ByteAcc
  data : List MByte
  old : Option DWord
  oldPois : Bool
  deriving DecidableEq, Repr

/-- What one operation fails with (R196): the cause, its failing lanes, its address. precise: TCAUSE[8] is 0 (R294). -/
structure Failure where
  cause : Nat
  lanes : LaneMask
  addr : DWord
  info : Word
  precise : Bool
  deriving DecidableEq, Repr

/-- The level an acquire, a release or an atomic is performed at (R187, R188). -/
inductive Level where
  | l1
  | home
  deriving DecidableEq, Repr

/-- A tile operation's operands as read at issue (R222, R223): opcode, accumulator base, both headers and their addresses, the steps,
the metadata address, the column and the lane of an injected residue error (R225). -/
structure TileOp where
  op : BitVec 8
  acc : Nat
  hdrA : List Byte
  hdrB : List Byte
  addrA : Nat
  addrB : Nat
  stepA : Nat
  stepB : Nat
  metaAddr : Nat
  hit : Option (Nat × Nat)
  deriving DecidableEq, Repr

/-- What an ACCST read at issue while its accumulator names still waited for a tile operation (R229): the base name, its command and
descriptor, whether a field of it is poisoned, its biases and its table with their poison, the address of the C tile. -/
structure AccLate where
  acc : Nat
  cmd : Word
  desc : List Byte
  descPois : Bool
  bias : List MByte
  table : List MByte
  header : Nat
  deriving DecidableEq, Repr

/-- What an ACCST will write (R229): runs of bytes at scratchpad addresses, or what it computes them from once its accumulators are
there. -/
structure AccOp where
  writes : List (Nat × List MByte)
  late : Option AccLate
  deriving DecidableEq, Repr

/-- A copy command's operands (R211). -/
structure CopyOp where
  op : BitVec 8
  record : Nat
  k0 : Word
  row0 : Word
  header : Nat
  members : BitVec 4
  barrier : Word
  deriving DecidableEq, Repr

/-- One clove-cache entry (R219): context, tensor, row, block; the scale and its poison. -/
structure Clove where
  ctx : Nat
  tid : Nat
  row : Nat
  blk : Nat
  val : Word
  pois : Bool
  deriving DecidableEq, Repr

/-- A copy whose transfer is done (R213 to R216): its T bytes; for TMCAST the tile and scales still to be delivered, the members that
failed and those that are done. -/
structure Moved where
  span : Nat
  start : Nat
  hdr : List Byte
  data : List MByte
  scales : List Clove
  failed : BitVec 4
  finished : BitVec 4
  deriving DecidableEq, Repr

/-- One lane's word of an STSR (R268): the member's team, the offset, the data with its poison; void: the team has gone meanwhile (R269). -/
structure Remote where
  team : Nat
  off : Nat
  word : Word
  pois : Bool
  void : Bool
  deriving DecidableEq, Repr

/-- How far a release store has come (R187): it waits for earlier accesses; its pushes with an identity below a mark are under way; its own
writes are. -/
inductive RelStep where
  | waits
  | pushes (mark : Nat)
  | sent
  deriving DecidableEq, Repr

/-- What an outstanding operation does, with the operands it read at issue. -/
inductive OpKind where
  /-- VM load, LDAQ (acq: its scope), RECLD (record: its number). -/
  | load (dst width : Nat) (signed : Bool) (hint : BitVec 2) (acq : Option Nat) (record : Option Nat) (accs : List LaneAcc)
  /-- VM store written into the L1, or travelling home with .BYPASS: its lanes' bytes then. -/
  | store (bypass : Bool) (accs : List LaneAcc)
  /-- STRL at a scope. -/
  | release (scope : Nat) (accs : List LaneAcc) (step : RelStep)
  /-- ATOM: operation code, scope, where it is performed. -/
  | atom (aop : BitVec 4) (scope : Nat) (noRet : Bool) (dst : Nat) (level : Level) (accs : List LaneAcc)
  /-- Copy command: its shape record once read, the bytes it has asked for; moved: its transfer is done and its arrival outstanding. -/
  | copy (c : CopyOp) (rec_ : Option (List Byte)) (accs : List LaneAcc) (moved : Option Moved)
  /-- Tile operation; started: the array has begun it; the scale bytes it has asked for (R219). -/
  | tile (t : TileOp) (started : Bool) (accs : List LaneAcc)
  | accst (a : AccOp)
  /-- NMV (R410): its descriptor as read at issue, the scratchpad addresses of x and y, its types. -/
  | nmv (desc : List Byte) (x y : Nat) (fn : BitVec 6)
  /-- STSR: the word of each lane (R268). -/
  | stsr (writes : List Remote)
  /-- COLL with its operands (R439): the addresses of its descriptor and record; the ranks dropped so far (R440). -/
  | coll (desc record : Nat) (fn : BitVec 6) (dropped : List Nat) (mark : Option Nat)
  deriving DecidableEq, Repr

/-- An outstanding operation: counted in its class until it is counted off (R193, R194). -/
structure Op where
  id : Nat
  cls : Class
  pc : Word
  lanes : LaneMask
  kind : OpKind
  done : Bool
  fail : Option Failure
  born : Nat
  deriving DecidableEq, Repr

/-- A failure whose operation has been counted off, waiting for a covering WAIT (R196). -/
structure Pending where
  op : Nat
  cls : Class
  pc : Word
  fail : Failure
  deriving DecidableEq, Repr

/-! ### Waits in place (R15) and fences -/

/-- The ring operations (R204, R315). -/
inductive RingOp where
  | racq
  | rcmt
  | rpeek
  | rrel
  | tspawn
  deriving DecidableEq, Repr

/-- What a waiting path waits for (R15). arming: an object, its control word, and the cores that have not yet replied, each with the identity
below which its STSRs must still be performed once its map has been updated (R270); syncDue: the arrival of a BARSYNC that is still to be
made (R201); groupLeft: the acquire that ends a GBWT (R274); in ring, mark: the pushes of its release are under way, those with an identity below
that (R204). -/
inductive WaitWhy where
  | counters (pairs : List (Class × Nat))
  | barrier (obj : Nat) (gen : Word)
  | arming (obj : Nat) (ctl : Word) (cores : List (Nat × Option Nat))
  | syncDue (obj : Nat)
  | group (g : Nat) (gen : Word)
  | groupLeft (action : Nat)
  | ring (op : RingOp) (f : UR) (mark : Option Nat)
  | rendezvous (i : Instr)
  | prim (recs : List (List Byte)) (grain : Nat) (close : Bool)
  | pixelSection (lanes : LaneMask)
  | exit
  | page (asked : List (Nat × Nat))
  | migrating (since nextAt back va level access : Nat) (fails : LaneMask)
  deriving DecidableEq, Repr

/-- A wait in place: its threads, where they stand, the next word, when it began, and the watchdog value in µs that governs it, 0 when
none does: a later write of the watchdog leaves it as it was (R145). -/
structure Wait where
  lanes : LaneMask
  pc : Word
  next : Word
  since : Nat
  limit : Word
  why : WaitWhy
  deriving DecidableEq, Repr

/-- What an ordering action in progress ends with (R197, R201, R204, R273, R312): barArrive adds n at an object and gives BARARV its register,
or none for BARSYNC; ringRelease is an RREL: its block, scope and level, its slot, the register of its result. -/
inductive FenceWhat where
  | fence (kind : BitVec 2)
  | groupArrive (g : Nat) (d : BitVec 6)
  | barArrive (obj n : Nat) (d : Option (BitVec 6))
  | ringRelease (sp : Bool) (addr scope : Nat) (home : Bool) (slot : Word) (qd : BitVec 3)
  | trigger (lanes : LaneMask)
  | groupAcquire
  | pixelRelease (lanes : LaneMask)
  deriving DecidableEq, Repr

/-- An ordering action of a wave not yet done: it covers the operations with identity below upTo; pushed: its pushes, with identities below
that, are under way (R197). -/
structure Fence where
  what : FenceWhat
  scope : Nat
  upTo : Nat
  pushed : Option Nat
  deriving DecidableEq, Repr

/-! ### Pixel waves (R392) -/

/-- A fragment of a pixel wave (R392): a thread that is no helper. samples: its covered samples with their interpolated depth. -/
structure Frag where
  lane : Nat
  x : Nat
  y : Nat
  seq : Nat
  samples : List (Nat × Word)
  killed : Bool
  locked : Bool
  released : Bool
  lockedAt : Nat
  colours : List (Nat × List Word)
  depth : Option Word
  deriving DecidableEq, Repr

/-- What the raster unit gives a pixel wave at launch: its pass, its tile, its fragments. -/
structure PixelWave where
  ctx : Nat
  queue : Nat
  tx : Nat
  ty : Nat
  recAddr : Nat
  args : Nat
  frags : List Frag
  deriving DecidableEq, Repr

/-- How far a pre-emption has stopped a wave (R150, R172). -/
inductive StopState where
  | running
  | atSafepoint (mask : DWord)
  | forced
  deriving DecidableEq, Repr

/-- One wave (R13) with the rename map of its threads (R165) and everything in flight on its behalf. injId: which write of ERRINJ the
injection of the wave is (R241; log 29: DEDUCED). -/
structure Wave where
  uid : Nat
  ctx : Nat
  team : Nat
  index : BitVec 5
  lanes : Lanes Lane
  rows : List (Nat × Row)
  sregs : Vector Word 62
  sPois : BitVec 62
  qregs : BitVec 7
  qPois : BitVec 7
  brecs : Vector (BitVec 128) 16
  bPois : BitVec 16
  fpc : Word
  ops : List Op
  pend : List Pending
  waits : List Wait
  fences : List Fence
  growStall : Bool
  granted : Nat
  swapped : Option (List (Nat × Row))
  swapCandidate : Bool
  clockHi : Word
  ptimeHi : Word
  errinj : Word
  errCount : Nat
  injId : Nat
  tcause : Word
  tpc : Word
  taddrLo : Word
  taddrHi : Word
  tmask : Word
  tinfo : Word
  tvec : Word
  tpaths : Word
  handler : Bool
  rdcKept : List (Nat × Nat)
  dbgStopped : Bool
  dbgStep : Bool
  matchSkip : LaneMask
  bkptLanes : LaneMask
  lastLane : Nat
  lastUni : Nat
  stop : StopState
  refused : List Nat
  exitPc : Word
  spawning : List (Word × Nat × Bool)
  pixel : Option PixelWave
  deriving DecidableEq, Repr

/-- Scout mode (R361, R362): the wave as it stood at the faulting instruction, the faulting path and its PC, how many instructions have
run ahead, the pages collected with their access kinds, the names written into fresh rows, and what is unknown. -/
structure Scout where
  saved : Wave
  path : LaneMask
  pc : Word
  count : Nat
  pages : List (Nat × Nat)
  fresh : List Nat
  unkV : List (Nat × LaneMask)
  unkP : List (Nat × LaneMask)
  unkS : BitVec 62
  unkQ : BitVec 7
  unkB : BitVec 16
  deriving DecidableEq, Repr

/-! ### Teams, crews, tasks, queues, contexts -/

/-- A checkpoint (R232): the waves, the windows' bytes with poison, parity and armed bits, the clusters of the failed attempts (R276). -/
structure Checkpoint where
  waves : List Wave
  windows : List (Nat × Nat)
  bytes : List Host.Cell
  pois : List Nat
  par : List Nat
  armed : List Nat
  failed : List (Nat × Nat)
  deriving DecidableEq, Repr

/-- A held atomic (R233): operation, scope, lanes. -/
structure HeldAtomic where
  aop : BitVec 4
  scope : Nat
  accs : List LaneAcc
  deriving DecidableEq, Repr

/-- A region in progress (R231 to R245). journal: virtual and physical address and value of each spilled byte; fired: the injections that
have fired in an attempt (R241); struck: the virtual addresses of held bytes, in the L1 or the journal, that an uncorrectable ECC error has
struck and that the next access finds (R240), an input (log 44: DESIGN CHOICE). -/
structure Region where
  ck : Checkpoint
  atomics : List HeldAtomic
  journal : List (Nat × Nat × MByte)
  overfull : Bool
  committing : Bool
  fired : List Nat
  struck : List Nat
  deriving DecidableEq, Repr

/-- Why a team is to be stopped (R172, R277, R317, R318). -/
inductive PreemptWhy where
  | priority
  | thermal
  | invalidation
  | crewReplay
  deriving DecidableEq, Repr

/-- One team: placement, scratchpad, region, barrier masks, rendezvous, replay and save state. spPar: the scratchpad words whose stored
parity bit disagrees with them (R174; log 69: DEDUCED). -/
structure Team where
  id : Nat
  ctx : Nat
  crew : Nat
  task : Nat
  teamId : Word
  member : Nat
  declared : Nat
  core : Nat
  spBase : Nat
  spSize : Nat
  sp : List Host.Cell
  spPois : List Nat
  spPar : List Nat
  armed : List Nat
  arrived : List (Nat × LaneMask)
  liveWaves : Nat
  retired : List (Nat × Word)
  rgnstat : Word
  rgnatt : Word
  region : Option Region
  resident : Bool
  preempt : Option (PreemptWhy × Nat)
  saved : Option (List Wave)
  savedAt : Nat
  replay : Option (Nat × Nat × Nat)
  teamStop : Bool
  placedAt : Nat
  deriving DecidableEq, Repr

/-- One crew: its task, its range [lo, hi) (R306), its cluster when placed (R265). bound: while split changes run for it, the core that
each member is bound to (R163, R265); heat: it was saved for heat (R318). -/
structure Crew where
  id : Nat
  task : Nat
  first : Nat
  size : Nat
  lo : Nat
  hi : Nat
  place : Option Nat
  waitSince : Nat
  startedAt : Nat
  saved : Bool
  retired : Bool
  bound : List (Nat × Nat)
  heat : Bool
  deriving DecidableEq, Repr

/-- One running task: the fields of its record (R299), its queue slot and its number in the ring (the counter value at its commit), its
effective priority, its completion state. -/
structure Task where
  id : Nat
  ctx : Nat
  queue : Nat
  slot : Nat
  num : Nat
  recAddr : Nat
  bytes : List Byte
  eff : Nat
  nextTeam : Nat
  noSplit : Bool
  teams : List Nat
  invalid : Bool
  moved : Bool
  replayed : Bool
  untaken : Bool
  complete : Bool
  deriving DecidableEq, Repr

/-- One registered queue (R302, R303): head is the oldest committed task that has not started, headNum its number in the ring. -/
structure Queue where
  qid : Nat
  block : Nat
  render : Bool
  pxpois : Bool
  head : Option Nat
  headNum : Nat
  headBytes : List Byte
  headReady : Bool
  readySince : Nat
  age : Nat
  triggered : Bool
  running : List (Nat × Bool)
  aborted : Bool
  deriving DecidableEq, Repr

/-- One context (R427 and the rules of its attributes). ended: it has been terminated; its number, its page table and its frames stay until
it is destroyed (log 12: DEDUCED). -/
structure Context where
  num : Nat
  session : Word
  codeBase : Nat
  tvec : Word
  ptbase : Nat
  window : Nat
  mkey : Nat
  bwdt : Word
  rwdt : Word
  pxwdt : Word
  journalMiB : Nat
  ctimeout : Nat
  swapBase : Nat
  ckptBase : Nat
  tables : List Nat
  code : List Host.Cell
  debugger : Bool
  matches_ : List Word
  frozenAt : Option Nat
  queues : List (Nat × Queue)
  ended : Bool
  deriving DecidableEq, Repr

/-- One group barrier (R271): waves holds, team by team, the mask of waves that have arrived in this generation. -/
structure Group where
  gen : Word
  mset : List Nat
  nset : List Nat
  arrived : BitVec 17
  owner : Option (BitVec 6)
  waves : List (Nat × LaneMask)
  deriving DecidableEq, Repr

/-! ### Cores -/

/-- One byte of an L1 line: its value, poison, dirty mark and the waves the dirty byte belongs to (R186, R331). -/
structure LByte where
  val : Byte
  pois : Bool
  dirty : Bool
  owners : List Nat
  deriving DecidableEq, Repr

/-- One L1 line (R186, R356): tagged by context and virtual line, its physical line, kept W and D, the bytes present.
held: the team whose region holds it (R233). -/
structure Line where
  ctx : Nat
  vline : Nat
  pline : Nat
  w : Bool
  d : Bool
  held : Option Nat
  bytes : List (Nat × LByte)
  deriving DecidableEq, Repr

/-- Who a split change serves (R163). -/
inductive Requester where
  | team (t : Nat)
  | tile (ctx qid tx ty : Nat)
  deriving DecidableEq, Repr

/-- A pending split change: target granules of scratchpad, who it serves (none once it no longer needs it). -/
structure Split where
  target : Nat
  by_ : Option Requester
  done : Bool
  deriving DecidableEq, Repr

/-- A granted tile buffer (R389). -/
structure TileBuf where
  ctx : Nat
  queue : Nat
  tx : Nat
  ty : Nat
  base : Nat
  size : Nat
  deriving DecidableEq, Repr

/-- One core: the split of its local array (R161), row queue (R167), swap granule (R169), L1, clove cache, armed map (R270),
remap tables (R157), retirement state (R177), thermal state (R318); busy: by quarter, and 4 more for the special-function unit, the clock
from which the DP pipe or that unit accepts an issue (R160). rowErrors, withdrawnRows: by row of the pool; temp, tempLimit, hotSince: the
temperature, the firmware's limit, since when it has been above it (R318; log 36: DESIGN CHOICE); kept: the allocations, as team, place
and KiB, of teams that have gone while remote stores to them are under way (R269). -/
structure CoreSt where
  regGrans : List Nat
  draining : List Nat
  scratchGrans : Nat
  l1Grans : Nat
  split : Option Split
  rowQueue : List (Nat × Nat)
  swapRows : List (Nat × Nat)
  l1 : List Line
  clove : List Clove
  armedMap : List (Nat × Nat)
  remap : List (Nat × Nat)
  laneErrors : List (Nat × Nat × Nat)
  rowErrors : List (Nat × Nat)
  unitErrors : List (Nat × Nat)
  withdrawnRows : List Nat
  withdrawnUnits : List Nat
  inService : Bool
  emptying : Bool
  slowed : Bool
  temp : Nat
  tempLimit : Nat
  hotSince : Option Nat
  kept : List (Nat × Nat × Nat)
  tiles : List TileBuf
  array : List (WaveKey × Nat)
  busy : List (Nat × Nat)
  deriving DecidableEq, Repr

/-! ### Die, package and fabric -/

/-- A copy in a remote-data slice (R290, R291): its way; pend gives, for a pending byte, the number of its write; base: the place in the order
of the homes at which it was read there, later: that of an acknowledged write, for each byte that has one since (R326). -/
structure Copy where
  pline : Nat
  epoch : Nat
  way : Nat
  bytes : List MByte
  base : Nat
  pend : List (Nat × Nat)
  later : List (Nat × Nat)
  deriving DecidableEq, Repr

/-- A line that an L2 slice holds: its way, and which of its bytes are dirty (R288); its value is the home's, in State.mem. -/
structure L2Line where
  pline : Nat
  way : Nat
  dirty : BitVec 128
  deriving DecidableEq, Repr

/-- A group of 4,096 sets of a slice, of the L2 or of the remote-data cache (R288, R297). -/
structure WayGroup where
  rdc : Bool
  slice : Nat
  group : Nat
  deriving DecidableEq, Repr

/-- Who sends requests (R292): a core, a core's copy engine port, a remote-data slice. -/
inductive NetAgent where
  | core (n : Nat)
  | port (n : Nat)
  | slice (die s : Nat)
  deriving DecidableEq, Repr

/-- Where a request is bound (R290): for the remote-data slice of its die, for the home; its reply for that slice again, for the requester. -/
inductive Leg where
  | toSlice
  | toHome
  | backSlice
  | backHere
  deriving DecidableEq, Repr

/-- Where a packet stands (R278, R282, R286): not yet in the network; in the buffer of a router's input, or in the transit slot of one; at the
agent that it is bound for; nowhere, lost with a link or discarded for its age (R287, R295). Routers count through the package, sixteen to a die; ports 0 to 5 are those of the row and the column, 6 is
that of the router's own agents, 7 that of its die-to-die link. -/
inductive Spot where
  | outside
  | input (router port : Nat)
  | slot (router port : Nat)
  | there
  | lost
  deriving DecidableEq, Repr

/-- What a request asks of a line's home. A write has its bytes by address; low: those of which only the low nibble is written (R213). An atomic
carries its lanes, whose old values come back. -/
inductive ReqKind where
  | read (bypass noCopy : Bool)
  | write (bytes : List (Nat × MByte)) (low : List Nat)
  | atomic (aop : BitVec 4) (ret : Bool) (accs : List LaneAcc)
  deriving DecidableEq, Repr

/-- A request, from issue until its reply has come back (R292, R293): who sends it, its tag (1,024: none yet) and generation, the operation it
serves and those that share its reply (R296), its line; owners: whose dirty bytes a push carries (R187); number: of a write in its
remote-data slice, and of the newest write that a read served there carries back (R290); stamp: its place in the order in which homes perform
(R289); noInstall, noShare: its reply enters no cache, takes no further read; dead: it has timed out. As a packet: where it stands and since
when, its place in its buffer, when it entered the package, the recoveries that have moved it (R283, R295). -/
structure Request where
  id : Nat
  by_ : NetAgent
  core : Nat
  tag : Nat
  gen : BitVec 4
  key : WaveKey
  op : Nat
  sharers : List (WaveKey × Nat)
  ctx : Nat
  vline : Nat
  pline : Nat
  kind : ReqKind
  owners : List Nat
  epoch : Nat
  number : Nat
  stamp : Nat
  born : Nat
  performed : Bool
  reply : Option (List MByte)
  noInstall : Bool
  noShare : Bool
  dead : Bool
  tries : Nat
  retryAt : Nat
  leg : Leg
  spot : Spot
  seat : Nat
  injected : Nat
  movedAt : Nat
  recoveries : Nat
  deriving DecidableEq, Repr

/-- An input of the die network that has been found blocked (R281, R282): probedAt: the clock of its last probe; out: the input that its head
waits to enter, as an event tells it for traffic that the model does not follow; slot: its transit slot is reserved. An input is a router, a
port and a class: 0 request, 1 response, 2 raster exchange (R280). -/
structure NetInput where
  router : Nat
  port : Nat
  cls : Nat
  probedAt : Option Nat
  out : Option (Nat × Nat)
  slot : Bool
  deriving DecidableEq, Repr

/-- A probe (R281): the input that sent it and the one where it stands, routers counted through the package. -/
structure Probe where
  id : Nat
  origin : Nat × Nat × Nat
  at_ : Nat × Nat × Nat
  deriving DecidableEq, Repr

/-- A recovery token (R282): its origin, the inputs whose slots it has reserved, whether it has returned. -/
structure Token where
  id : Nat
  origin : Nat × Nat × Nat
  visited : List (Nat × Nat × Nat)
  closed : Bool
  deriving DecidableEq, Repr

/-- The counters of R298 and R402, 32 bits, saturating. -/
structure DieCounters where
  l2ce : Word
  l2ue : Word
  rdce : Word
  rdue : Word
  wayret : Word
  dlkrec : Word
  dlklost : Word
  timeouts : Word
  stalereply : Word
  lnkreplay : Word
  lnkdead : Word
  primdrop : Word
  flushes : Word
  reopens : Word
  deriving DecidableEq, Repr

/-- One die. forwarded, unacked: the writes that each remote-data slice has numbered and those not yet acknowledged (R290); tags: the
generations that have advanced (R292); wayMasks: the ways retired of each set group, wayErrs: their corrected errors, by group, way and
clock (R297); deadLinks: 0 east, 1 west, 2 and 3 the halves of the cross link at routers 4 and 11 (R284, R287). -/
structure Die where
  epoch : Nat
  copies : List Copy
  l2 : List L2Line
  forwarded : List (Nat × Nat)
  unacked : List (Nat × Nat)
  tags : List (NetAgent × Nat × BitVec 4)
  wayMasks : List (WayGroup × BitVec 16)
  wayErrs : List (WayGroup × Nat × Nat)
  inputs : List NetInput
  probes : List Probe
  tokens : List Token
  deadLinks : List Nat
  reserved : Option (Nat × Nat)
  counters : DieCounters
  deriving DecidableEq, Repr

/-- Counters and spare-row table of one stack (R407, R408): per bank, the rows served by spares; errs: errors found in a row, as bank,
row, clock and whether uncorrectable; withdrawn: faulty rows of banks without spares. -/
structure Stack where
  hbmce : Word
  hbmue : Word
  rowret : Word
  sparelow : Word
  spares : List (Nat × List Nat)
  errs : List (Nat × Nat × Nat × Bool)
  withdrawn : List (Nat × Nat)
  deriving DecidableEq, Repr

/-- A UALink port (R434, R436). -/
structure UaPort where
  alive : Bool
  bank0 : Option (BitVec 256)
  bank1 : Option (BitVec 256)
  current : Bool
  switching : Bool
  deriving DecidableEq, Repr

/-- A page service in progress for an agent that is not a scouting wave (R217, R363, R370, R451), or a migrating page that such an agent
has been refused since a clock (R365). -/
structure PageFault where
  id : Nat
  ctx : Nat
  va : Nat
  access : Nat
  answered : Option Bool
  migratingSince : Option Nat
  deriving DecidableEq, Repr

/-- An invalidation in progress (R367): the range; requests with a lower identity used the old translation; the physical ranges that it
frees; the teams being pre-empted for it; the MAP command that waits for its report. -/
structure Invalidation where
  ctx : Nat
  va : Nat
  size : Nat
  upTo : Nat
  frees : List (Nat × Nat)
  teams : List Nat
  hdr : Option Hdr
  deriving DecidableEq, Repr

/-- A page being migrated by the firmware (R365): its entry's address, its size, its frame and the frame it goes to. -/
structure Migration where
  ctx : Nat
  va : Nat
  entry : Nat
  size : Nat
  source : Nat
  target : Nat
  deriving DecidableEq, Repr

/-- One record of the error log (R444), with the session of its context, which READ_LOG serves (R446). -/
structure LogRec where
  session : Word
  kind : Nat
  seq : Word
  ptime : DWord
  noctx : Bool
  place : BitVec 26
  async : Bool
  cause : BitVec 8
  body : List Word
  deriving DecidableEq, Repr

/-! ### Rasteriser (spec/18_package_rasteriser.md) -/

/-- A primitive record on its way or binned: its grain, its sequence number, its bytes (R377, R378). -/
structure Prim where
  grain : Nat
  seq : Nat
  bytes : List Byte
  deriving DecidableEq, Repr

/-- A grain that a render task has taken (R377): the crew that took it, whether it is closed, one past the last index it has sent. -/
structure Grain where
  n : Nat
  crew : Nat
  closed : Bool
  next : Nat
  deriving DecidableEq, Repr

/-- What stands in an exchange port's queue (R381): a record, or the close of a grain. -/
structure PortItem where
  die : Nat
  grain : Nat
  prim : Option Prim
  deriving DecidableEq, Repr

/-- The grain state at one owner die (R381 to R383): records received, close markers arrived with their counts. -/
structure OwnerSt where
  die : Nat
  orderPoint : Nat
  movedAt : Nat
  received : List (Nat × Nat)
  closed : List (Nat × Nat)
  deriving DecidableEq, Repr

/-- The stored data of one target of one sample, or of its depth: its words and their poison. -/
structure Sample where
  words : List Word
  pois : Bool
  deriving DecidableEq, Repr

/-- How far a tile has come: nothing under way, an early flush (R385), the render at pass end (R390), written to the targets. -/
inductive TilePhase where
  | idle
  | flushing
  | closing
  | written
  deriving DecidableEq, Repr

/-- One tile of a pass (R384 to R390). bin: its entries; work: the entries being rendered, of the first of which quads quads have been
launched; taken: entries that work began with; core: where its buffer is open; samples: by 16 × sample number + target (8: depth), one
not listed as the buffer was cleared; ended: fragments of retired waves not yet applied. -/
structure TileSt where
  tx : Nat
  ty : Nat
  bin : List Prim
  work : List Prim
  quads : Nat
  taken : Nat
  phase : TilePhase
  opened : Bool
  core : Option Nat
  saved : Bool
  samples : List (Nat × Sample)
  ended : List Frag
  deriving DecidableEq, Repr

/-- One render pass (R372); the first of a queue is the open one. tasks: its render tasks by their numbers in the ring; started: those that have started; sent: records sent, by grain and
owner die; exchange: records on their way to an owner die; markers: close markers on their way (die, grain, count). -/
structure Pass where
  ctx : Nat
  qid : Nat
  recAddr : Nat
  rec_ : List Byte
  tasks : List (Nat × List Byte)
  started : List Nat
  status : Nat
  grains : List Grain
  port : List PortItem
  sent : List ((Nat × Nat) × Nat)
  exchange : List (Nat × Prim)
  markers : List (Nat × Nat × Nat)
  owners : List OwnerSt
  tiles : List TileSt
  deriving DecidableEq, Repr

/-! ### Host and fabric (spec/21_host_and_fabric.md) -/

/-- What the module sends on the host ports: a response or event header with its payload. (Log 68: DESIGN CHOICE.) -/
structure HostMsg where
  hdr : Hdr
  payload : List Byte
  deriving DecidableEq, Repr

/-- The SPDM responder of a session (R431): how far the connection has come, the algorithms agreed, the key exchange under way, whether a
secure session stands. -/
structure Spdm where
  stage : Nat
  algorithms : Nat
  exchanged : Option Nat
  secured : Bool
  deriving DecidableEq, Repr

/-- A session (R424, R425): the next SEQ to perform, the stored response to the last one. -/
structure Session where
  id : Word
  version : Nat
  features : DWord
  nextSeq : Word
  qp : Nat
  stored : Option HostMsg
  spdm : Spdm
  deriving DecidableEq, Repr

/-- A collective group of a context (R438): used: the operation numbers that this module has used in it (R439). -/
structure CGroup where
  group : Nat
  ctx : Nat
  members : List Nat
  rank : Nat
  staging : Nat
  used : List Nat
  deriving DecidableEq, Repr

/-- One entry of the agenda: an event that the outside world or the timing brings, so many clocks after the one before (log 1: DESIGN CHOICE). -/
structure Due where
  delay : Nat
  ev : Instr
  deriving DecidableEq, Repr

/-- An error that has struck an array of a die and that the next access to its line finds (R297), an input (log 44: DESIGN CHOICE): in a
remote-data slice or in the L2, the line, whether it is uncorrectable. -/
structure Upset where
  die : Nat
  rdc : Bool
  pline : Nat
  hard : Bool
  deriving DecidableEq, Repr

/-- What befalls the module from outside, an input (log 44: DESIGN CHOICE): a bit of a lane word of a pool row or of a scratchpad word flips
(R174, by core and place); an uncorrectable error strikes a held byte of a team (R240); an error strikes an array of a die (R297); a core's
temperature and limit are read (R318). -/
inductive Accident where
  | row (core place lane : Nat)
  | scratch (core word : Nat)
  | held (team va : Nat)
  | array (u : Upset)
  | heat (core temp limit : Nat)
  deriving DecidableEq, Repr

/-- Which slot an issue belongs to (R22, R25, R159): P1 or P2 of the lane slot, the uniform slot, or a slot that took the wave while
only yielding paths stood there (R149). -/
inductive SlotUse where
  | lane
  | pair
  | uniform
  | idleLane
  | idleUniform
  deriving DecidableEq, Repr

/-- The issue in progress (log 2: DESIGN CHOICE): the wave, the issuing path, its PC, the next word's, the instruction word; its slot, and
the threads that the slot passed over (R22). -/
structure Sel where
  key : WaveKey
  mask : LaneMask
  pc : Word
  next : Word
  word : Word
  slot : SlotUse
  skipped : LaneMask
  deriving DecidableEq, Repr

/-- The whole module. frames: the physical ranges in use, as base, size and context, one for each reference; spoil: freed ranges with the
value of Q when they were freed (R369); quiesceAt: when Q took its value; rdmaOut: what RDMA READs have returned (R420). pending: the
issues of this arithmetic clock still to come (R22, R159); prior: the issuing wave as it stood before its issue (R88, R167). accidents: what is
to befall the module, each so many clocks after the one before. -/
structure State where
  agenda : List Due
  accidents : List (Nat × Accident)
  sel : Sel
  pending : List Sel
  prior : Option Wave
  phase : Bool
  nextId : Nat
  freeCount : Nat
  clock : Nat
  ptimeBase : Nat
  ptimeAt : Nat
  mem : List Host.Cell
  poisoned : List Nat
  localGib : Nat
  binPool : Nat
  frames : List (Nat × Nat × Nat)
  waves : List (WaveKey × Wave)
  scouts : List (WaveKey × Scout)
  teams : List (Nat × Team)
  crews : List (Nat × Crew)
  tasks : List (Nat × Task)
  contexts : List (Nat × Context)
  lastChosen : Nat × Nat
  chosen : Option (Nat × Nat × Nat)
  lastDepEval : Option Nat
  groups : List (Nat × Group)
  cores : List (Nat × CoreSt)
  dies : List (Nat × Die)
  hbm : List (Nat × Stack)
  net : List Request
  faults : List PageFault
  invalidations : List Invalidation
  migrations : List Migration
  quiescence : Nat
  quiesceAt : Nat
  spoil : List (Nat × Nat × Nat)
  log : List LogRec
  logSeq : Word
  logLost : Word
  passes : List Pass
  sessions : List (Word × Session)
  outbox : List HostMsg
  rdmaOut : List (List Byte)
  hostPorts : BitVec 2
  fabmap : List NodeWindow
  ports : List (Nat × UaPort)
  cgroups : List CGroup
  patches : List Patch
  patchVersion : Nat
  upsets : List Upset
  deriving DecidableEq, Repr

/-- The canonical form of a byte store: addresses strictly rising, no byte equal to what an unlisted address reads as. -/
abbrev Memory.wf (m : List Host.Cell) : Prop :=
  (m.map Prod.fst).Pairwise (· < ·) ∧ ∀ c ∈ m, c.2 ≠ 0#8

/-- A core at reset: 16 register, 12 scratchpad and 4 L1 granules, everything empty (R161). (Log 11: DESIGN CHOICE.) -/
def CoreSt.initial : CoreSt where
  regGrans := List.range 16
  draining := []
  scratchGrans := 12
  l1Grans := 4
  split := none
  rowQueue := []
  swapRows := []
  l1 := []
  clove := []
  armedMap := []
  remap := []
  laneErrors := []
  rowErrors := []
  unitErrors := []
  withdrawnRows := []
  withdrawnUnits := []
  inService := true
  emptying := false
  slowed := false
  temp := 0
  tempLimit := 0
  hotSince := none
  kept := []
  tiles := []
  array := []
  busy := []

def DieCounters.initial : DieCounters := ⟨0, 0, 0, 0, 0, 0, 0, 0, 0, 0, 0, 0, 0, 0⟩

def Die.initial : Die where
  epoch := 0
  copies := []
  l2 := []
  forwarded := []
  unacked := []
  tags := []
  wayMasks := []
  wayErrs := []
  inputs := []
  probes := []
  tokens := []
  deadLinks := []
  reserved := none
  counters := DieCounters.initial

def Stack.initial : Stack := ⟨0, 0, 0, 0, [], [], []⟩

def Group.initial : Group := ⟨0, [], [], 0, none, []⟩

def Spdm.initial : Spdm := ⟨0, 0, none, false⟩

def UaPort.initial : UaPort := ⟨true, none, none, false, false⟩

def Sel.initial : Sel := ⟨⟨0, 0⟩, 0, 0, 0, 0, .lane, 0⟩

/-- The module right after reset (R145, R146, R161, R271, R350, R428): nothing resident, no context, no session. A core, die, stack,
group or port that no list names is in its initial state. (Log 5: DESIGN CHOICE.) (Log 11: DESIGN CHOICE.) (Log 66: DEDUCED.) -/
def State.reset : State where
  agenda := []
  accidents := []
  sel := Sel.initial
  pending := []
  prior := none
  phase := false
  nextId := 0
  freeCount := 0
  clock := 0
  ptimeBase := 0
  ptimeAt := 0
  mem := []
  poisoned := []
  localGib := 16
  binPool := 256
  frames := []
  waves := []
  scouts := []
  teams := []
  crews := []
  tasks := []
  contexts := []
  lastChosen := (63, 15)
  chosen := none
  lastDepEval := none
  groups := []
  cores := []
  dies := []
  hbm := []
  net := []
  faults := []
  invalidations := []
  migrations := []
  quiescence := 0
  quiesceAt := 0
  spoil := []
  log := []
  logSeq := 0
  logLost := 0
  passes := []
  sessions := []
  outbox := []
  rdmaOut := []
  hostPorts := 3
  fabmap := []
  ports := []
  cgroups := []
  patches := []
  patchVersion := 0
  upsets := []

end Sys2Proof.Machine
end

