-- ==== Sys2Proof/Machine/Base.lean ====
section
/-! DEFINITION. The parts that every operation over the state uses: keyed lists, byte stores, access to each part of State, threads,
the register file with its rename map (R165, R166), and the operation counters (R193, R194). -/

namespace Sys2Proof.Machine

/-- What a meaning answers. -/
abbrev Res := Host.Outcome State Fault Refusal

/-! ### Keyed lists -/

/-- The value filed under a key. -/
def assocGet {κ α : Type} [DecidableEq κ] : List (κ × α) → κ → Option α
  | [], _ => none
  | (k', v) :: t, k => if k' = k then some v else assocGet t k

/-- File a value under a key, replacing what stands there. -/
def assocSet {κ α : Type} [DecidableEq κ] : List (κ × α) → κ → α → List (κ × α)
  | [], k, v => [(k, v)]
  | (k', v') :: t, k, v => if k' = k then (k, v) :: t else (k', v') :: assocSet t k v

/-- Take a key out. -/
def assocErase {κ α : Type} [DecidableEq κ] (l : List (κ × α)) (k : κ) : List (κ × α) := l.filter (fun p => p.1 ≠ k)

/-- A list with each value once, where it first stands. -/
def firsts {α : Type} [DecidableEq α] (l : List α) : List α := l.foldl (fun acc x => if x ∈ acc then acc else acc ++ [x]) []

/-! ### Byte stores in canonical form -/

/-- The byte at an address; an unlisted address reads zero. (Log 3: DESIGN CHOICE.) -/
def cellGet : List Host.Cell → Nat → Byte
  | [], _ => 0
  | (b, v) :: t, a => if b = a then v else cellGet t a

/-- Put a byte at an address, keeping the addresses rising and listing no zero. (Log 3: DESIGN CHOICE.) -/
def cellSet : List Host.Cell → Nat → Byte → List Host.Cell
  | [], a, v => if v = 0#8 then [] else [(a, v)]
  | (b, w) :: t, a, v =>
    if a < b then (if v = 0#8 then (b, w) :: t else (a, v) :: (b, w) :: t)
    else if a = b then (if v = 0#8 then t else (a, v) :: t)
    else (b, w) :: cellSet t a v

/-- Put bytes at rising addresses from a. -/
def cellPut (m : List Host.Cell) (a : Nat) : List Byte → List Host.Cell
  | [] => m
  | b :: t => cellPut (cellSet m a b) (a + 1) t

/-- n bytes from a. -/
def cellTake (m : List Host.Cell) (a n : Nat) : List Byte := (List.range n).map (fun i => cellGet m (a + i))

/-- The value of bytes, the lowest address least significant (R6). -/
def leNat : List Byte → Nat
  | [] => 0
  | b :: t => b.toNat + 256 * leNat t

/-- The n low bytes of a value, least significant first. -/
def leBytes : Nat → Nat → List Byte
  | 0, _ => []
  | n + 1, x => BitVec.ofNat 8 x :: leBytes n (x / 256)

def leWord (l : List Byte) : Word := BitVec.ofNat 32 (leNat l)
def wordLe (w : Word) : List Byte := leBytes 4 w.toNat

/-! ### Places -/

def dieOf (core : Nat) : Nat := core / 128
def clusterOf (core : Nat) : Nat := core / 4 % 32
def coreInCluster (core : Nat) : Nat := core % 4
/-- The quarter of a wave slot: sixteen slots each (R158; log 8: DEDUCED). -/
def quarterOf (slot : Nat) : Nat := slot / 16

/-- PLACE of R444, as R202 lays it out. -/
def placeWord (ctx core : Nat) : BitVec 26 :=
  BitVec.ofNat 26 (ctx % 64 + dieOf core * 256 + clusterOf core * 65536 + coreInCluster core * 16777216)

/-- PLACE of a record to which no context applies: only the die (R444). -/
def diePlace (die : Nat) : BitVec 26 := BitVec.ofNat 26 (die * 256)

/-! ### Access to the parts of State -/

/-- A lane that holds no thread. -/
def Lane.absent : Lane := ⟨0, 0, 0, .absent, .none, false, 0, false, .none⟩

/-- The wave read at a slot where none is resident: no lane of it holds a thread. -/
def Wave.absent : Wave where
  uid := 0
  ctx := 0
  team := 0
  index := 0
  lanes := Vector.replicate 32 Lane.absent
  rows := []
  sregs := Vector.replicate 62 0
  sPois := 0
  qregs := 0
  qPois := 0
  brecs := Vector.replicate 16 0
  bPois := 0
  fpc := 0
  ops := []
  pend := []
  waits := []
  fences := []
  growStall := false
  granted := 0
  swapped := none
  swapCandidate := false
  clockHi := 0
  ptimeHi := 0
  errinj := 0
  errCount := 0
  injId := 0
  tcause := 0
  tpc := 0
  taddrLo := 0
  taddrHi := 0
  tmask := 0
  tinfo := 0
  tvec := 0
  tpaths := 0
  handler := false
  rdcKept := []
  dbgStopped := false
  dbgStep := false
  matchSkip := 0
  bkptLanes := 0
  lastLane := 0
  lastUni := 0
  stop := .running
  refused := []
  exitPc := 0
  spawning := []
  pixel := none

def Team.absent : Team where
  id := 0
  ctx := 0
  crew := 0
  task := 0
  teamId := 0
  member := 0
  declared := 0
  core := 0
  spBase := 0
  spSize := 0
  sp := []
  spPois := []
  spPar := []
  armed := []
  arrived := []
  liveWaves := 0
  retired := []
  rgnstat := 0
  rgnatt := 0
  region := none
  resident := false
  preempt := none
  saved := none
  savedAt := 0
  replay := none
  teamStop := false
  placedAt := 0

def Crew.absent : Crew := ⟨0, 0, 0, 1, 0, 0, none, 0, 0, false, true, [], false⟩

def Task.absent : Task where
  id := 0
  ctx := 0
  queue := 0
  slot := 0
  num := 0
  recAddr := 0
  bytes := []
  eff := 0
  nextTeam := 0
  noSplit := true
  teams := []
  invalid := false
  moved := false
  replayed := false
  untaken := false
  complete := true

def Context.absent : Context where
  num := 64
  session := 0
  codeBase := 0
  tvec := 0
  ptbase := 0
  window := 0
  mkey := 0
  bwdt := 0
  rwdt := 0
  pxwdt := 0
  journalMiB := 0
  ctimeout := 10000
  swapBase := 0
  ckptBase := 0
  tables := []
  code := []
  debugger := false
  matches_ := []
  frozenAt := none
  queues := []
  ended := false

def State.wave (s : State) (k : WaveKey) : Wave := (assocGet s.waves k).getD Wave.absent
def State.setWave (s : State) (k : WaveKey) (w : Wave) : State := { s with waves := assocSet s.waves k w }
def State.modWave (s : State) (k : WaveKey) (f : Wave → Wave) : State := s.setWave k (f (s.wave k))
/-- A wave is resident at the slot. -/
def State.hasWave (s : State) (k : WaveKey) : Bool := (assocGet s.waves k).isSome
def State.team (s : State) (t : Nat) : Team := (assocGet s.teams t).getD Team.absent
def State.setTeam (s : State) (t : Nat) (x : Team) : State := { s with teams := assocSet s.teams t x }
def State.modTeam (s : State) (t : Nat) (f : Team → Team) : State := s.setTeam t (f (s.team t))
def State.crew (s : State) (c : Nat) : Crew := (assocGet s.crews c).getD Crew.absent
def State.setCrew (s : State) (c : Nat) (x : Crew) : State := { s with crews := assocSet s.crews c x }
def State.task (s : State) (t : Nat) : Task := (assocGet s.tasks t).getD Task.absent
def State.setTask (s : State) (t : Nat) (x : Task) : State := { s with tasks := assocSet s.tasks t x }
def State.context (s : State) (c : Nat) : Context := (assocGet s.contexts c).getD Context.absent
def State.setContext (s : State) (c : Nat) (x : Context) : State := { s with contexts := assocSet s.contexts c x }
def State.core (s : State) (c : Nat) : CoreSt := (assocGet s.cores c).getD CoreSt.initial
def State.setCore (s : State) (c : Nat) (x : CoreSt) : State := { s with cores := assocSet s.cores c x }
def State.modCore (s : State) (c : Nat) (f : CoreSt → CoreSt) : State := s.setCore c (f (s.core c))
def State.die (s : State) (d : Nat) : Die := (assocGet s.dies d).getD Die.initial
def State.setDie (s : State) (d : Nat) (x : Die) : State := { s with dies := assocSet s.dies d x }
def State.modDie (s : State) (d : Nat) (f : Die → Die) : State := s.setDie d (f (s.die d))
def State.stack (s : State) (d : Nat) : Stack := (assocGet s.hbm d).getD Stack.initial
def State.setStack (s : State) (d : Nat) (x : Stack) : State := { s with hbm := assocSet s.hbm d x }
def State.group (s : State) (g : Nat) : Group := (assocGet s.groups g).getD Group.initial
def State.setGroup (s : State) (g : Nat) (x : Group) : State := { s with groups := assocSet s.groups g x }
def State.port (s : State) (p : Nat) : UaPort := (assocGet s.ports p).getD UaPort.initial
def State.setPort (s : State) (p : Nat) (x : UaPort) : State := { s with ports := assocSet s.ports p x }

/-- A fresh identity for an operation, a wave, a team, a request (model; log 2: DESIGN CHOICE). -/
def State.fresh (s : State) : Nat × State := (s.nextId, { s with nextId := s.nextId + 1 })

/-- A free word (log 7: DESIGN CHOICE): the spec leaves the value open. -/
def State.freeWord (s : State) : Word × State := (Config.freeWord s.freeCount, { s with freeCount := s.freeCount + 1 })

/-- The wave of the issue in progress. -/
def State.cur (s : State) : Wave := s.wave s.sel.key
def State.modCur (s : State) (f : Wave → Wave) : State := s.modWave s.sel.key f
/-- The team of the issuing wave. -/
def State.curTeam (s : State) : Team := s.team s.cur.team

/-- The resident waves of a team, by key. -/
def State.teamWaves (s : State) (t : Nat) : List (WaveKey × Wave) := s.waves.filter (fun p => p.2.team = t)
/-- The resident waves of a core. -/
def State.coreWaves (s : State) (c : Nat) : List (WaveKey × Wave) := s.waves.filter (fun p => p.1.core = c)

/-- CLOCK (R146). -/
def State.clock64 (s : State) : DWord := BitVec.ofNat 64 s.clock
/-- PTIME in nanoseconds: the disciplined base plus two thirds of the arithmetic clocks since (R5, R146). (Log 5: DESIGN CHOICE.) -/
def State.ptime (s : State) : DWord := BitVec.ofNat 64 (s.ptimeBase + (s.clock - s.ptimeAt) * 2 / 3)

/-! ### Threads -/

def Lane.isLive (l : Lane) : Bool := l.status == .live
/-- A live thread that is not blocked (R15, R16). -/
def Lane.free (l : Lane) : Bool := l.isLive && l.block == .none && !l.stopped

def Wave.laneMask (w : Wave) (f : Lane → Bool) : LaneMask := maskOf (fun i => f w.lanes[i])
def Wave.live (w : Wave) : LaneMask := w.laneMask Lane.isLive
/-- Change the lanes of a mask. -/
def Wave.mapLanes (w : Wave) (m : LaneMask) (f : Fin 32 → Lane → Lane) : Wave :=
  { w with lanes := Vector.ofFn (fun i => if m.getLsbD i then f i w.lanes[i] else w.lanes[i]) }
/-- Put the threads of a mask at a PC. -/
def Wave.moveTo (w : Wave) (m : LaneMask) (pc : Word) : Wave := w.mapLanes m (fun _ l => { l with pc := pc })
/-- The threads of a mask become waiting. -/
def Wave.blockAs (w : Wave) (m : LaneMask) (b : Block) : Wave := w.mapLanes m (fun _ l => { l with block := b })

/-- The threads of a mask are passed over once more; the count saturates at 127 (R12, R22). -/
def Wave.countPass (w : Wave) (m : LaneMask) : Wave := w.mapLanes m (fun _ l => { l with passed := if l.passed = 127#7 then l.passed else l.passed + 1 })

/-- The issuing path moves to the next word (R60, R119). -/
def State.advance (s : State) : State := s.modCur (fun w => w.moveTo s.sel.mask s.sel.next)

/-- The watchdog of a wait for a reason, in µs (R145): of a barrier unless its object has it off, of a ring or a group; 0 where none counts. -/
def State.watchdog (s : State) (ctx : Nat) : WaitWhy → Word
  | .barrier .. => (s.context ctx).bwdt
  | .syncDue _ => (s.context ctx).bwdt
  | .group .. => (s.context ctx).bwdt
  | .rendezvous _ => (s.context ctx).bwdt
  | .ring .. => (s.context ctx).rwdt
  | .pixelSection _ => (s.context ctx).pxwdt
  | _ => 0

/-- The wait of the issuing path for a reason, under the watchdog as it now stands (R145). -/
def State.pathWait (s : State) (why : WaitWhy) : Wait := ⟨s.sel.mask, s.sel.pc, s.sel.next, s.clock, s.watchdog s.cur.ctx why, why⟩

/-- The issuing path waits in place for a reason (R15). -/
def State.waitFor (s : State) (why : WaitWhy) : State :=
  s.modCur (fun w => { w.blockAs s.sel.mask .waiting with waits := w.waits ++ [s.pathWait why] })

/-- A completed wait: its threads move to the next word (R17). -/
def Wave.endWait (w : Wave) (wt : Wait) : Wave :=
  let w := (w.blockAs wt.lanes .none).moveTo wt.lanes wt.next
  { w with waits := w.waits.filter (fun x => x != wt), swapCandidate := false }

/-- Threads that a trap or its return takes out of their waits; the others of those waits go on waiting (R17, R151, R153). -/
def Wave.leaveWaits (w : Wave) (m : LaneMask) : Wave :=
  { w with waits := w.waits.filterMap (fun x =>
      let left := x.lanes &&& ~~~m
      if left = 0 then none else some { x with lanes := left }) }

/-- The wait of the path that stands at a PC. -/
def Wave.waitAt (w : Wave) (pc : Word) : Option Wait := w.waits.find? (fun x => x.pc == pc)

/-! ### The register file and its rename map (R165, R166) -/

def Wave.row (w : Wave) (n : Nat) : Option Row := assocGet w.rows n
/-- A lane's copy of a name; an unmapped name reads zero (R88). -/
def Wave.vword (w : Wave) (n : Nat) (i : Fin 32) : Word :=
  match w.row n with
  | some r => r.words[i]
  | none => 0
/-- The poison bit of a lane's copy; an unmapped name reads clean (R176). -/
def Wave.vpois (w : Wave) (n : Nat) : LaneMask :=
  match w.row n with
  | some r => r.pois
  | none => 0

/-- Rows of the register pool that some wave maps, on a core. -/
def State.placesMapped (s : State) (c : Nat) : List Nat := (s.coreWaves c).flatMap (fun p => p.2.rows.map (fun r => r.2.place))
/-- Rows promised to waves that have not yet mapped them (R167). -/
def State.rowsGranted (s : State) (c : Nat) : Nat := ((s.coreWaves c).map (fun p => p.2.granted)).sum
/-- The granule of a row of the pool. -/
def granOf (place : Nat) : Nat := place / Config.rowsPerGranule
/-- What a new row can be: a row of a granule that is not draining, neither mapped nor withdrawn (R161, R163, R177). -/
structure Pool where
  grans : List Nat
  used : List Nat
def CoreSt.openGrans (x : CoreSt) : List Nat := x.regGrans.filter (fun g => !x.draining.contains g)
def State.pool (s : State) (c : Nat) : Pool := ⟨(s.core c).openGrans, s.placesMapped c ++ (s.core c).withdrawnRows⟩
/-- Rows that can still be allocated: those of the pool, less the granted ones. -/
def State.rowsFree (s : State) (c : Nat) : Nat :=
  let p := s.pool c
  p.grans.length * Config.rowsPerGranule - ((p.used.filter (fun a => p.grans.contains (granOf a))).dedup.length + s.rowsGranted c)
/-- The first of n rows from a that is not in use. -/
def firstFree (used : List Nat) : Nat → Nat → Option Nat
  | 0, _ => none
  | n + 1, a => if used.contains a then firstFree used n (a + 1) else some a
/-- A row that the pool can give beside some already taken; which one it is cannot be observed (R165). -/
def Pool.pick (p : Pool) (taken : List Nat) : Nat :=
  (p.grans.findSome? (fun g => firstFree (p.used ++ taken) Config.rowsPerGranule (g * Config.rowsPerGranule))).getD 0

/-- A row as it is allocated: zero and clean in every lane, every live lane a pending reader (R165). -/
def Row.fresh (live : LaneMask) (place : Nat) : Row := ⟨Vector.replicate 32 0, 0, 0, live, place⟩

/-- The row of the pool that the next name of a wave would take. -/
def Wave.nextPlace (w : Wave) (pool : Pool) : Nat := pool.pick (w.rows.map (fun r => r.2.place))

/-- The lanes of m of a row take words and poison, their parity anew, and become pending readers (R165). -/
def Row.put (r : Row) (m : LaneMask) (vals : Fin 32 → Word) (pois : LaneMask) : Row :=
  { r with
    words := Vector.ofFn (fun i => if m.getLsbD i then vals i else r.words[i])
    pois := (r.pois &&& ~~~m) ||| (pois &&& m)
    par := r.par &&& ~~~m
    readers := r.readers ||| m }

/-- Write the lanes of m of one name: a first write allocates, a later one sets the mask bits of the lanes it writes (R165). -/
def Wave.writeV (w : Wave) (pool : Pool) (n : Nat) (m : LaneMask) (vals : Fin 32 → Word) (pois : LaneMask) : Wave :=
  if m = 0 then w
  else
    let r := (w.row n).getD (Row.fresh w.live (w.nextPlace pool))
    { w with rows := assocSet w.rows n (r.put m vals pois), granted := if (w.row n).isSome then w.granted else w.granted - 1 }

/-- Map a name without writing a lane of it, as the issue of a load does (R185). -/
def Wave.allocV (w : Wave) (pool : Pool) (n : Nat) : Wave :=
  if (w.row n).isSome then w
  else { w with rows := assocSet w.rows n (Row.fresh w.live (w.nextPlace pool)), granted := w.granted - 1 }

/-- Rows of one wave each put in a row of the pool, beside some already taken. -/
def Pool.place (p : Pool) : List Nat → List (Nat × Row) → List (Nat × Row)
  | _, [] => []
  | taken, (n, r) :: t =>
    let a := p.pick taken
    (n, { r with place := a }) :: p.place (a :: taken) t

/-- Clear the claims of the lanes of m on a name; a mask that reaches zero frees the row (R166). -/
def Wave.clearClaim (w : Wave) (m : LaneMask) (n : Nat) : Wave :=
  match w.row n with
  | none => w
  | some r =>
    let left := r.readers &&& ~~~m
    if left = 0 then { w with rows := assocErase w.rows n } else { w with rows := assocSet w.rows n { r with readers := left } }

/-- Clear the claims of the lanes of m on every name (R14, R123). -/
def Wave.clearAll (w : Wave) (m : LaneMask) : Wave :=
  { w with rows := (w.rows.map (fun p => (p.1, { p.2 with readers := p.2.readers &&& ~~~m }))).filter (fun p => p.2.readers ≠ 0) }

/-! ### Uniform registers and predicates (R67, R68) -/

/-- s0 to s61; 62 reads WAVE; 63 the literal (R67, R69). -/
def Wave.sreg (w : Wave) (f : BitVec 6) (lit : Word) : Word :=
  if h : f.toNat < 62 then w.sregs[f.toNat] else if f = 62#6 then w.index.setWidth 32 else lit
def Wave.sregPois (w : Wave) (f : BitVec 6) : Bool := f.toNat < 62 && w.sPois.getLsbD f.toNat
def Wave.spair (w : Wave) (f : BitVec 6) : DWord := pairOf (w.sreg f 0) (w.sreg (f + 1) 0)
def Wave.spairPois (w : Wave) (f : BitVec 6) : Bool := w.sregPois f || w.sregPois (f + 1)
/-- Write s[f]; 63 discards (R67). A clean result clears the poison (R176). -/
def Wave.setS (w : Wave) (f : BitVec 6) (x : Word) (pois : Bool) : Wave :=
  if h : f.toNat < 62 then
    let bit : BitVec 62 := 1#62 <<< f.toNat
    { w with sregs := w.sregs.set f.toNat x, sPois := if pois then w.sPois ||| bit else w.sPois &&& ~~~bit }
  else w
/-- q0 to q6; q7 reads 1. -/
def Wave.q (w : Wave) (n : BitVec 3) : Bool := n = 7#3 || w.qregs.getLsbD n.toNat
def Wave.qp (w : Wave) (n : BitVec 3) : Bool := n ≠ 7#3 && w.qPois.getLsbD n.toNat
def Wave.setQ (w : Wave) (n : BitVec 3) (x pois : Bool) : Wave :=
  if n = 7#3 then w
  else
    let bit : BitVec 7 := 1#7 <<< n.toNat
    { w with qregs := if x then w.qregs ||| bit else w.qregs &&& ~~~bit, qPois := if pois then w.qPois ||| bit else w.qPois &&& ~~~bit }
/-- A lane predicate; p7 reads 1 (R68). -/
def Lane.p (l : Lane) (n : BitVec 3) : Bool := n = 7#3 || l.preds.getLsbD n.toNat
def Lane.pp (l : Lane) (n : BitVec 3) : Bool := n ≠ 7#3 && l.predPois.getLsbD n.toNat
def Lane.setP (l : Lane) (n : BitVec 3) (x pois : Bool) : Lane :=
  if n = 7#3 then l
  else
    let bit : BitVec 7 := 1#7 <<< n.toNat
    { l with preds := if x then l.preds ||| bit else l.preds &&& ~~~bit
             predPois := if pois then l.predPois ||| bit else l.predPois &&& ~~~bit }
/-- The buffer record of a number (R68, R178). -/
def Wave.brec (w : Wave) (n : BitVec 4) : BitVec 128 := w.brecs[n.toNat]'(by omega)
def Wave.setB (w : Wave) (n : BitVec 4) (x : BitVec 128) (pois : Bool) : Wave :=
  let bit : BitVec 16 := 1#16 <<< n.toNat
  { w with brecs := w.brecs.set n.toNat x (by omega), bPois := if pois then w.bPois ||| bit else w.bPois &&& ~~~bit }

/-! ### Counters (R193, R194) -/

/-- The number of operations of a class not yet counted off. -/
def Wave.count (w : Wave) (c : Class) : Nat := (w.ops.filter (fun o => o.cls = c)).length
def Wave.drained (w : Wave) : Bool := w.ops.isEmpty
def Wave.op (w : Wave) (id : Nat) : Option Op := w.ops.find? (fun o => o.id = id)
def Wave.setOp (w : Wave) (o : Op) : Wave := { w with ops := w.ops.map (fun x => if x.id = o.id then o else x) }

/-- Split off the oldest done operations of a class: an operation is counted off only after every older one of its class (R194). -/
def countOff (c : Class) : List Op → List Op × List Op
  | [] => ([], [])
  | o :: t =>
    if o.cls = c then
      if o.done then let (off, rest) := countOff c t; (o :: off, rest) else ([], o :: t)
    else let (off, rest) := countOff c t; (off, o :: rest)

/-- Count off what can be counted off in a class; a failure of a counted-off operation awaits its delivery (R196). -/
def Wave.settle (w : Wave) (c : Class) : Wave :=
  let (off, rest) := countOff c w.ops
  { w with ops := rest, pend := w.pend ++ off.filterMap (fun o => o.fail.map (fun f => ⟨o.id, o.cls, o.pc, f⟩)) }

/-- The operation completes, perhaps with a failure, and its class is counted off as far as it goes. -/
def Wave.finish (w : Wave) (id : Nat) (fail : Option Failure) : Wave :=
  match w.op id with
  | none => w
  | some o => (w.setOp { o with done := true, fail := fail }).settle o.cls

/-- Issue an operation: count it in its class. -/
def State.issueOp (s : State) (cls : Class) (kind : OpKind) : State :=
  let (id, s) := s.fresh
  s.modCur (fun w => { w with ops := w.ops ++ [⟨id, cls, s.sel.pc, s.sel.mask, kind, false, none, s.clock⟩] })

/-- The next value of a 32-bit counter that saturates (R298, R402, R408). -/
def satInc (w : Word) : Word := if w = BitVec.allOnes 32 then w else w + 1

/-! ### Cause codes -/

/-- The cause codes of R443. -/
def causeIllegalOp : Nat := 0x01
def causeIllegalOperand : Nat := 0x02
def causePriv : Nat := 0x03
def causeSwtrap : Nat := 0x04
def causeBkpt : Nat := 0x05
def causeMisalign : Nat := 0x06
def causeBounds : Nat := 0x07
def causePageFault : Nat := 0x08
def causeProt : Nat := 0x09
def causeDiscarded : Nat := 0x0A
def causeRemoteNack : Nat := 0x0B
def causeTimeout : Nat := 0x0C
def causePoison : Nat := 0x0D
def causeCollMismatch : Nat := 0x0E
def causeBarTimeout : Nat := 0x0F
def causeBarClobber : Nat := 0x10
def causeRgnViolation : Nat := 0x11
def causeRgnUnrecoverable : Nat := 0x12
def causeRingTimeout : Nat := 0x13
def causeMcastPartial : Nat := 0x14
def causePxOrderTimeout : Nat := 0x15
def causeUninitRead : Nat := 0x16

end Sys2Proof.Machine
end

