-- ==== Sys2Proof/Machine/Space.lean ====
section
/-! DEFINITION. Memory as addresses: physical windows and homes (spec/17 R349, spec/19 R404), home bytes and their poison (R406), the
page walk and the checks of an access (spec/17 R351 to R360), and ranges as the engines reach them. -/

namespace Sys2Proof.Machine

/-! ### Windows and homes -/

def lineAddr (a : Nat) : Nat := a / 128 * 128
def va56 (a : Nat) : Nat := a % 2 ^ 56
def gib : Nat := 2 ^ 30
/-- One past the interleaved window: 16 × I GiB (R349, R350). -/
def State.interleavedEnd (s : State) : Nat := 16 * (64 - s.localGib) * gib
def localBase (st : Nat) : Nat := 0x10000000000 + st * 0x400000000
def fabricBase : Nat := 0x8000000000000

/-- The windows of R349. -/
inductive Window where
  | interleaved
  | local_ (st : Nat)
  | fabric
  | unassigned
  deriving DecidableEq, Repr

def State.window (s : State) (pa : Nat) : Window :=
  if pa < s.interleavedEnd then .interleaved
  else if 0x10000000000 ≤ pa ∧ pa < localBase 16 ∧ (pa - 0x10000000000) % 0x400000000 < s.localGib * gib then
    .local_ ((pa - 0x10000000000) / 0x400000000)
  else if fabricBase ≤ pa ∧ pa < 2 ^ 52 then .fabric
  else .unassigned

def nibble (x i : Nat) : Nat := x / 2 ^ i % 16
/-- Three hashed address fields (R288, R404). -/
def xor3 (x a b c : Nat) : Nat := (nibble x a ^^^ nibble x b) ^^^ nibble x c
/-- The stack that holds a physical address (R404). -/
def State.stackOf (s : State) (pa : Nat) : Nat :=
  match s.window pa with
  | .local_ st => st
  | _ => xor3 pa 12 16 20
/-- The address within its stack (R404). -/
def State.stackAddr (s : State) (pa : Nat) : Nat :=
  match s.window pa with
  | .local_ st => (64 - s.localGib) * gib + (pa - localBase st)
  | _ => pa / 65536 * 4096 + pa % 4096
/-- The home die of a line in HBM4E (R404). -/
def State.homeDie (s : State) (pa : Nat) : Nat := s.stackOf pa / 2
/-- The home slice, and the remote-data slice, of a line (R288, R290). -/
def sliceOf (pa : Nat) : Nat := xor3 pa 7 13 19
def State.isFabric (s : State) (pa : Nat) : Bool := s.window pa == .fabric

/-! ### Ranges, as base and size -/

def overlaps (a n b m : Nat) : Bool := a < b + m && b < a + n
/-- What is left of ranges outside one other. -/
def rangeLess1 (l : List (Nat × Nat)) (b m : Nat) : List (Nat × Nat) :=
  l.flatMap (fun r =>
    if overlaps r.1 r.2 b m then
      ((if r.1 < b then [(r.1, b - r.1)] else []) ++ (if b + m < r.1 + r.2 then [(b + m, r.1 + r.2 - (b + m))] else []))
    else [r])
/-- What is left of ranges outside others. -/
def rangeLess (l : List (Nat × Nat)) (others : List (Nat × Nat)) : List (Nat × Nat) :=
  others.foldl (fun acc o => rangeLess1 acc o.1 o.2) l

/-! ### Bytes at the home (R289, R406) -/

def insertSorted (l : List Nat) (x : Nat) : List Nat :=
  match l with
  | [] => [x]
  | y :: t => if x < y then x :: y :: t else if x = y then y :: t else y :: insertSorted t x

/-- A byte as its home holds it; poison has the granule of a 32-byte sector (R406). -/
def State.homeByte (s : State) (pa : Nat) : MByte := ⟨cellGet s.mem pa, s.poisoned.contains (pa / 32)⟩
def State.homeBytes (s : State) (pa n : Nat) : List MByte := (List.range n).map (fun i => s.homeByte (pa + i))

/-- The poisoned sectors after one write of the bytes (R406): a poisoned byte poisons its sector, 32 clean bytes clean it. -/
def sectorsAfter (pois : List Nat) (bs : List (Nat × MByte)) : List Nat :=
  ((bs.map (fun b => b.1 / 32)).dedup).foldl (fun acc sec =>
    let mine := bs.filter (fun b => b.1 / 32 = sec)
    if mine.any (fun b => b.2.pois) then insertSorted acc sec
    else if 32 ≤ (mine.map Prod.fst).dedup.length then acc.filter (· ≠ sec)
    else acc) pois

/-- One write performed at the home. -/
def State.homeWrite (s : State) (bs : List (Nat × MByte)) : State :=
  { s with mem := bs.foldl (fun m b => cellSet m b.1 b.2.val) s.mem, poisoned := sectorsAfter s.poisoned bs }

/-! ### The page walk (R351 to R354) -/

/-- What a walk of the table meets. -/
inductive Walk where
  | none (level : Nat)
  | malformed (level : Nat)
  | leaf (entryAddr : Nat) (e : BitVec 64) (level : Nat)
  deriving DecidableEq, Repr

def State.entryAt (s : State) (a : Nat) : BitVec 64 := BitVec.ofNat 64 (leNat (cellTake s.mem a 8))
def pageSize (level : Nat) : Nat := 2 ^ (16 + 10 * level)

namespace Pte
def valid (e : BitVec 64) : Bool := e.getLsbD 0
def leaf (e : BitVec 64) : Bool := e.getLsbD 1
def r (e : BitVec 64) : Bool := e.getLsbD 2
def w (e : BitVec 64) : Bool := e.getLsbD 3
def x (e : BitVec 64) : Bool := e.getLsbD 4
def dirty (e : BitVec 64) : Bool := e.getLsbD 6
def mtype (e : BitVec 64) : Nat := (e.extractLsb' 8 2).toNat
def state (e : BitVec 64) : Nat := (e.extractLsb' 10 2).toNat
def home (e : BitVec 64) : Nat := (e.extractLsb' 12 2).toNat
def frame (e : BitVec 64) : Nat := (e.extractLsb' 16 36).toNat * 65536
def psn (e : BitVec 64) : Bool := e.getLsbD 59
/-- A leaf with the fields of R353. -/
def mk (frame : Nat) (r w x : Bool) (home mtype state : BitVec 2) (psn : Bool) : BitVec 64 :=
  BitVec.ofNat 64 (frame / 65536 % 2 ^ 36 * 65536 + home.toNat * 4096 + state.toNat * 1024 + mtype.toNat * 256
    + (if psn then 2 ^ 59 else 0) + x.toNat * 16 + w.toNat * 8 + r.toNat * 4 + 3)
/-- A table entry (R352). -/
def table (next : Nat) : BitVec 64 := BitVec.ofNat 64 (next / 65536 % 2 ^ 36 * 65536 + 1)
end Pte

/-- A page lies wholly in the window its HOME names (R353, R354). -/
def State.homeAgrees (s : State) (home frame size : Nat) : Bool :=
  match home with
  | 0 => frame + size ≤ s.interleavedEnd
  | 3 => fabricBase ≤ frame && frame + size ≤ 2 ^ 52
  | _ => match s.window frame with
    | .local_ st => (frame - localBase st) + size ≤ s.localGib * gib
    | _ => false

/-- R354 on a leaf at a level; a discarded page's FRAME is ignored (R364). (Log 25: DEDUCED.) -/
def State.leafMalformed (s : State) (e : BitVec 64) (level : Nat) : Bool :=
  level = 3 || e.extractLsb' 52 7 ≠ 0 || e.extractLsb' 14 2 ≠ 0 || e.getLsbD 7 || Pte.state e = 3 || Pte.mtype e = 3
    || (Pte.state e ≠ 1 && (Pte.frame e % pageSize level ≠ 0 || !s.homeAgrees (Pte.home e) (Pte.frame e) (pageSize level)))

/-- R354 on a table entry at a level: the next table lies in HBM4E (R351). -/
def State.tableMalformed (s : State) (e : BitVec 64) (level : Nat) : Bool :=
  level = 0 || e.extractLsb' 52 8 ≠ 0 || e.extractLsb' 2 14 ≠ 0
    || (match s.window (Pte.frame e) with
        | .interleaved => false
        | .local_ _ => false
        | _ => true)

def State.walkFrom (s : State) (va : Nat) : Nat → Nat → Walk
  | 0, _ => .malformed 0
  | n + 1, tbl =>
    let ea := tbl + 8 * (va / pageSize n % 1024)
    let e := s.entryAt ea
    if !Pte.valid e then .none n
    else if Pte.leaf e then (if s.leafMalformed e n then .malformed n else .leaf ea e n)
    else if s.tableMalformed e n then .malformed n
    else s.walkFrom va n (Pte.frame e)

def State.walk (s : State) (ctx va : Nat) : Walk := s.walkFrom va 4 (s.context ctx).ptbase

/-- How an access is made (R360). -/
inductive Access where
  | read
  | write
  | atomic
  | fetch
  deriving DecidableEq, Repr

def Access.code : Access → Nat
  | .read => 0
  | .write => 1
  | .atomic => 2
  | .fetch => 3
def Access.writes : Access → Bool
  | .write => true
  | .atomic => true
  | _ => false

/-- What a translation comes to. -/
inductive Xlat where
  | ok (pa : Nat) (e : BitVec 64) (entryAddr : Nat)
  | fault (cause reason level : Nat)
  | noPage (level : Nat)
  | migrating (level : Nat)
  deriving DecidableEq, Repr

/-- The checks of R360 in the order it gives. -/
def State.translate (s : State) (ctx va : Nat) (acc : Access) : Xlat :=
  match s.walk ctx va with
  | .malformed l => .fault causeProt 4 l
  | .none l => .noPage l
  | .leaf ea e l =>
    if Pte.state e = 2 then .migrating l
    else if acc = .read && !Pte.r e then .fault causeProt 1 l
    else if acc.writes && !Pte.w e then .fault causeProt 2 l
    else if acc = .fetch && (!Pte.x e || Pte.mtype e ≠ 0) then .fault causeProt 3 l
    else if Pte.psn e && acc ≠ .read then .fault causeProt 5 l
    else if Pte.state e = 1 && acc ≠ .read then .fault causeDiscarded 6 l
    else .ok (if Pte.state e = 1 then 0 else Pte.frame e + va % pageSize l) e ea

/-- TINFO of a translation trap (R360). -/
def xlatInfo (reason level : Nat) (acc : Access) : Word := BitVec.ofNat 32 (0x40000 + reason * 0x100 + level * 0x10 + acc.code)

/-- The walker sets A, and D for a write, in the entry at its home (R358). -/
def State.markAD (s : State) (ea : Nat) (write : Bool) : State :=
  let b := cellGet s.mem ea
  { s with mem := cellSet s.mem ea (b ||| (if write then 0x60#8 else 0x20#8)) }

/-- Write a whole table entry at its home. -/
def State.putEntry (s : State) (ea : Nat) (e : BitVec 64) : State := { s with mem := cellPut s.mem ea (leBytes 8 e.toNat) }

def Xlat.bad : Xlat → Bool
  | .ok _ _ _ => false
  | _ => true

/-! ### Ranges of virtual memory as engines reach them -/

/-- The first failure that the bytes of a range meet, or the translation of its first byte. -/
def State.xlatRange (s : State) (ctx va n : Nat) (acc : Access) : Nat × Xlat :=
  match (List.range n).find? (fun i => (s.translate ctx (va56 (va + i)) acc).bad) with
  | some i => (va56 (va + i), s.translate ctx (va56 (va + i)) acc)
  | none => (va, s.translate ctx va acc)

/-- One byte of each 64 KiB page that a range touches: translations change at no other place. -/
def pagePoints (va n : Nat) : List Nat :=
  if n = 0 then [] else va :: (List.range ((va % 65536 + n - 1) / 65536)).map (fun i => va56 ((va / 65536 + i + 1) * 65536))
/-- Every byte of a range can be reached. -/
def State.areaOk (s : State) (ctx va n : Nat) (acc : Access) : Bool := (pagePoints va n).all (fun v => !(s.translate ctx v acc).bad)
/-- The physical address of a byte whose translation is good. -/
def State.paOf (s : State) (ctx va : Nat) (acc : Access) : Nat :=
  match s.translate ctx va acc with
  | .ok pa _ _ => pa
  | _ => 0
/-- A byte of a range as read at its home: zero on a discarded page (R364), poisoned on a poisoned one (R366). -/
def State.vaByte (s : State) (ctx va : Nat) : MByte :=
  match s.translate ctx va .read with
  | .ok pa e _ => if Pte.state e = 1 then ⟨0, false⟩ else if Pte.psn e then ⟨(s.homeByte pa).val, true⟩ else s.homeByte pa
  | _ => ⟨0, false⟩
def State.vaBytes (s : State) (ctx va n : Nat) : List MByte := (List.range n).map (fun i => s.vaByte ctx (va56 (va + i)))
/-- The walker's marks over a range (R358). -/
def State.markRange (s : State) (ctx va n : Nat) (acc : Access) : State :=
  (((List.range n).map (fun i => va56 (va + i))).filter (fun v => v = va || v % 128 = 0)).foldl (fun s v =>
    match s.translate ctx v acc with
    | .ok _ _ ea => s.markAD ea acc.writes
    | _ => s) s
/-- Bytes written at their homes, in rising virtual order; no copy of a core's L1 is touched. (Log 31: DEDUCED.) -/
def State.vaWrite (s : State) (ctx va : Nat) (bs : List MByte) : State :=
  (s.markRange ctx va bs.length .write).homeWrite
    (bs.zipIdx.map (fun b => (s.paOf ctx (va56 (va + b.2)) .write, b.1)))
def valBytes (n x : Nat) : List MByte := (leBytes n x).map (fun b => ⟨b, false⟩)
def bytesNat (l : List MByte) : Nat := leNat (l.map MByte.val)

end Sys2Proof.Machine
end

