-- ==== Sys2Proof/Machine/TileData.lean ====
section
/-! DEFINITION. Pass records (spec/18_package_rasteriser.md R373, R374), the stored samples of a tile and their places in the targets,
and the writing of tiles as they stand that an abort makes (R401 step 3, R403). -/

namespace Sys2Proof.Machine

def bytesWord (b : List Byte) (off : Nat) : Word := leWord ((b.drop off).take 4)
def bytesDWord (b : List Byte) (off : Nat) : Nat := leNat ((b.drop off).take 8)

/-- The context number names no context: as an event carries it (R421). -/
def noCtx : Word := 0xFFFFFFFF

namespace PassRec
def crec (b : List Byte) : Nat := bytesDWord b 0x00
def pixEntry (b : List Byte) : Word := bytesWord b 0x08
def pixRtab (b : List Byte) : Nat := (bytesWord b 0x0C).toNat
def pixArgs (b : List Byte) : Nat := bytesDWord b 0x10
def gfirst (b : List Byte) : Nat := bytesDWord b 0x18
def glast (b : List Byte) : Nat := bytesDWord b 0x20
def width (b : List Byte) : Nat := (bytesWord b 0x28).toNat % 65536
def height (b : List Byte) : Nat := (bytesWord b 0x28).toNat / 65536
def ctl (b : List Byte) : Word := bytesWord b 0x2C
def glog2 (b : List Byte) : Nat := ((ctl b).extractLsb' 8 4).toNat
def dload (b : List Byte) : Bool := (ctl b).getLsbD 6
def dwrite (b : List Byte) : Bool := (ctl b).getLsbD 5
def dcmp (b : List Byte) : Nat := ((ctl b).extractLsb' 2 3).toNat
/-- Samples per pixel. -/
def samples (b : List Byte) : Nat := 2 ^ ((ctl b).toNat % 4)
def dbase (b : List Byte) : Nat := bytesDWord b 0x30
def clrz (b : List Byte) : Word := bytesWord b 0x38
def tilecap (b : List Byte) : Nat := (bytesWord b 0x3C).toNat
def savebase (b : List Byte) : Nat := bytesDWord b 0x40
def gwdt (b : List Byte) : Nat := (bytesWord b 0x48).toNat
def dpitch (b : List Byte) : Nat := (bytesWord b 0x4C).toNat
/-- The owner die of a tile (R376). -/
def owner (b : List Byte) (tx ty : Nat) : Nat := leNat ((b.drop 0x50).take 24) / 2 ^ (3 * (ty % 8 * 8 + tx % 8)) % 8
/-- Fields of target t (R374). -/
def base (b : List Byte) (t : Nat) : Nat := bytesDWord b (0x80 + 16 * t)
def rt (b : List Byte) (t : Nat) : Word := bytesWord b (0x88 + 16 * t)
def pitch (b : List Byte) (t : Nat) : Nat := (bytesWord b (0x8C + 16 * t)).toNat
def fmt (b : List Byte) (t : Nat) : Nat := (rt b t).toNat % 4
def load (b : List Byte) (t : Nat) : Bool := (rt b t).getLsbD 2
def blend (b : List Byte) (t : Nat) : Bool := (rt b t).getLsbD 3
def srcf (b : List Byte) (t : Nat) : Nat := ((rt b t).extractLsb' 4 3).toNat
def dstf (b : List Byte) (t : Nat) : Nat := ((rt b t).extractLsb' 7 3).toNat
def srcfa (b : List Byte) (t : Nat) : Nat := ((rt b t).extractLsb' 10 3).toNat
def dstfa (b : List Byte) (t : Nat) : Nat := ((rt b t).extractLsb' 13 3).toNat
/-- Bytes of a sample of a format. -/
def fmtBytes (f : Nat) : Nat := if f = 0 then 0 else 2 ^ (f + 1)
/-- The targets that have data, 8 standing for depth. -/
def targets (b : List Byte) : List Nat := ((List.range 8).filter (fun t => fmt b t ≠ 0)) ++ (if dbase b = 0 then [] else [8])
def bytesOf (b : List Byte) (t : Nat) : Nat := if t = 8 then 4 else fmtBytes (fmt b t)
/-- Bytes per sample, and the tile buffer's size (R375). -/
def perSample (b : List Byte) : Nat := ((targets b).map (bytesOf b)).sum
def bufSize (b : List Byte) : Nat := 4096 * samples b * perSample b
/-- The address of sample 0 of pixel (x, y) in a target (R374). -/
def at_ (b : List Byte) (t x y : Nat) : Nat :=
  if t = 8 then va56 (dbase b + (y * dpitch b + x) * samples b * 4)
  else va56 (base b t % 2 ^ 56 + (y * pitch b t + x) * samples b * bytesOf b t)
/-- The slot of a tile in the save area (R385). -/
def slot (b : List Byte) (tx ty : Nat) : Nat := va56 (savebase b + (ty * ((width b + 63) / 64) + tx) * bufSize b)
def gsize (b : List Byte) : Nat := 2 ^ glog2 b
/-- The raster watchdog in µs (R373). -/
def watchdog (b : List Byte) : Nat := if gwdt b = 0 then 100000 else gwdt b
end PassRec

/-- The pixels of a tile's row or column inside the target, from a tile index and the target's size. -/
def tileSpan (i size : Nat) : List Nat := (List.range 64).filterMap (fun d => if 64 * i + d < size then some (64 * i + d) else none)

/-- The number of a sample in its tile. -/
def sampleNo (b : List Byte) (t : TileSt) (x y k : Nat) : Nat := ((y - 64 * t.ty) * 64 + (x - 64 * t.tx)) * PassRec.samples b + k

/-- A sample's stored data; one not listed holds the clear value (R388). -/
def TileSt.get (t : TileSt) (b : List Byte) (n tgt : Nat) : Sample :=
  (assocGet t.samples (16 * n + tgt)).getD
    (if tgt = 8 then ⟨[PassRec.clrz b], false⟩ else ⟨List.replicate (PassRec.bytesOf b tgt / 4) 0, false⟩)
def TileSt.put (t : TileSt) (n tgt : Nat) (x : Sample) : TileSt := { t with samples := assocSet t.samples (16 * n + tgt) x }

def Sample.bytes (x : Sample) : List MByte := x.words.flatMap (fun w => (wordLe w).map (fun b => ⟨b, x.pois⟩))

/-- One row of a tile in one target: its address and bytes. -/
def TileSt.rowBytes (t : TileSt) (b : List Byte) (tgt y : Nat) : List MByte :=
  (tileSpan t.tx (PassRec.width b)).flatMap (fun x => (List.range (PassRec.samples b)).flatMap (fun k => (t.get b (sampleNo b t x y k) tgt).bytes))

/-- The rows of a tile in its targets: target, y, address. -/
def TileSt.rows (t : TileSt) (b : List Byte) : List (Nat × Nat × Nat) :=
  (PassRec.targets b).flatMap (fun tgt => (tileSpan t.ty (PassRec.height b)).map (fun y => (tgt, y, PassRec.at_ b tgt (64 * t.tx) y)))

/-- The poisoned samples of a row, as pixels (R403). -/
def TileSt.poisonedPixels (t : TileSt) (b : List Byte) (tgt y : Nat) : List Nat :=
  (tileSpan t.tx (PassRec.width b)).filter (fun x => (List.range (PassRec.samples b)).any (fun k => (t.get b (sampleNo b t x y k) tgt).pois))

/-- Write a tile to its targets as it stands (R390, R401); clear: poison is cleared, as under PXPOIS = 1. A row that faults is dropped. -/
def State.writeTile (s : State) (ctx : Nat) (b : List Byte) (t : TileSt) (clear : Bool) : State :=
  (t.rows b).foldl (fun s r =>
    let bs := (t.rowBytes b r.1 r.2.1).map (fun m => if clear then { m with pois := false } else m)
    if (s.xlatRange ctx r.2.2 bs.length .write).2.bad then s else s.vaWrite ctx r.2.2 bs) s

/-- A fragment has ended: its thread has exited or it was killed (R392, R396). -/
def Wave.fragEnded (w : Wave) (f : Frag) : Bool := f.killed || !((w.lanes[f.lane]?).any Lane.isLive)
/-- A fragment holds its section: acquired, not released; one that ends gives it up unless its release is still under way (R397). -/
def Wave.fragHolds (w : Wave) (f : Frag) : Bool :=
  f.locked && !f.released && (!w.fragEnded f || w.fences.any (fun x => match x.what with
    | .pixelRelease m => m.getLsbD f.lane
    | _ => false))
/-- A thread of the wave holds an ordered pixel section (R150, R173, R398). -/
def Wave.holdsSection (w : Wave) : Bool := w.pixel.any (fun p => p.frags.any w.fragHolds)

/-- The pixel waves of a queue, resident and saved. -/
def State.pixelWaves (s : State) (ctx qid : Nat) : List Wave :=
  (s.waves.map Prod.snd ++ s.teams.flatMap (fun t => t.2.saved.getD [])).filter
    (fun w => w.pixel.any (fun p => p.ctx = ctx && p.queue = qid))

/-- The pixels whose sections are held. -/
def State.heldPixels (s : State) (ctx qid : Nat) : List (Nat × Nat) :=
  (s.pixelWaves ctx qid).flatMap (fun w => (w.pixel.map (fun p => (p.frags.filter w.fragHolds).map (fun f => (f.x, f.y)))).getD [])

/-- Every sample of the pixels is poisoned in the tile buffer (R403). -/
def TileSt.poison (t : TileSt) (b : List Byte) (px : List (Nat × Nat)) : TileSt :=
  (px.filter (fun p => p.1 / 64 = t.tx ∧ p.2 / 64 = t.ty)).foldl (fun t p =>
    (List.range (PassRec.samples b)).foldl (fun t k => (PassRec.targets b).foldl (fun t tgt =>
      let n := sampleNo b t p.1 p.2 k
      t.put n tgt { t.get b n tgt with pois := true }) t) t) t

/-- The open pass of a queue is its first. -/
def State.openPass (s : State) (ctx qid : Nat) : Option Pass := s.passes.find? (fun p => p.ctx = ctx ∧ p.qid = qid)

/-- Every tile of a queue that has been opened is written as it stands, its poison with it (R401 step 3); one that a flush has saved is
first reloaded from its slot, which counts as a reopen, and left unwritten when the slot cannot be read. (Log 53: DEDUCED.) -/
def State.writeTiles (s : State) (ctx qid : Nat) : State :=
  match s.openPass ctx qid with
  | none => s
  | some p => (p.tiles.filter (fun t => t.opened && t.phase != .written)).foldl (fun (s : State) t =>
      if t.core.isSome then s.writeTile ctx p.rec_ t false
      else if t.saved && s.areaOk ctx (PassRec.slot p.rec_ t.tx t.ty) (PassRec.bufSize p.rec_) .read then
        (s.writeTile ctx p.rec_ t false).modDie (PassRec.owner p.rec_ t.tx t.ty) (fun d =>
          { d with counters := { d.counters with reopens := satInc d.counters.reopens } })
      else s) s

/-- A context ends while sections are held: those pixels are poisoned and their queues' tiles are written (R403). -/
def State.abandonSections (s : State) (ctx : Nat) : State :=
  (((s.passes.filter (fun p => p.ctx = ctx)).map Pass.qid).dedup).foldl (fun (s : State) q =>
    let held := s.heldPixels ctx q
    if held.isEmpty then s
    else
      let s : State := { s with passes := s.passes.map (fun (p : Pass) => if p.ctx = ctx ∧ p.qid = q then { p with tiles := p.tiles.map (fun t => t.poison p.rec_ held) } else p) }
      s.writeTiles ctx q) s

end Sys2Proof.Machine
end

