-- ==== Sys2Proof/Machine/Ops.lean ====
section
/-! DEFINITION. The named operations over the state: the error log (R444), the termination of a context (R427), taking a trap (R151,
R152) and leaving it (R153), and the checks at issue that the meanings share. -/

namespace Sys2Proof.Machine

/-! ### The error log (R444 to R446) and the host's events (R422) -/

/-- The bytes of the log ring a record takes: a 32-byte header and its body padded to 8. -/
def LogRec.size (r : LogRec) : Nat := 32 + (4 * r.body.length + 7) / 8 * 8

/-- Drop the oldest records until the ring of 4 MiB holds the rest; each drop raises LOST. -/
def logTrim : Nat → List LogRec → Word → List LogRec × Word
  | 0, l, lost => (l, lost)
  | n + 1, l, lost =>
    if (l.map LogRec.size).sum ≤ 4194304 then (l, lost)
    else match l with
      | [] => ([], lost)
      | _ :: t => logTrim n t (lost + 1)

/-- Write a log record: it takes the next SEQ and the present PTIME. (Log 16: DEDUCED.) -/
def State.logRec (s : State) (kind : Nat) (noctx : Bool) (place : BitVec 26) (async : Bool) (cause : Nat) (body : List Word) : State :=
  let r : LogRec := ⟨if noctx then 0 else (s.context (place.toNat % 64)).session, kind, s.logSeq, s.ptime, noctx, place, async, BitVec.ofNat 8 cause, body⟩
  let l := s.log ++ [r]
  let (l, lost) := logTrim l.length l s.logLost
  { s with log := l, logSeq := s.logSeq + 1, logLost := lost }

/-- An unsolicited event to the host (R422, OP 0x30): which event stands in its first payload word (log 21: DESIGN CHOICE). -/
def State.hostEvent (s : State) (session : Word) (ctx : Word) (payload : List Byte) : State :=
  if s.hostPorts = 0 then s
  else
    let v : Session := (assocGet s.sessions session).getD ⟨session, 0x0100, 0, 0, 0, none, Spdm.initial⟩
    let h : Hdr := ⟨0x30#8, 0, true, false, BitVec.ofNat 8 (v.version / 256), BitVec.ofNat 8 v.version, session, 0,
      BitVec.ofNat 32 payload.length, ctx, 0, 0, v.qp, 0⟩
    { s with outbox := s.outbox ++ [⟨h, payload⟩] }

/-! ### The scratchpad's share of the local array (R162, R163) -/

/-- The KiB ranges of the scratchpad region that allocations and tile buffers cover on a core (R162, R389), those of teams that have gone
among them while remote stores to them are under way (R269). -/
def State.scratchHeld (s : State) (core : Nat) : List (Nat × Nat) :=
  ((s.teams.filter (fun p => p.2.resident ∧ p.2.core = core)).map (fun p => (p.2.spBase, p.2.spSize / 1024)))
    ++ ((s.core core).tiles.map (fun t => (t.base, t.size))) ++ ((s.core core).kept.map Prod.snd)
def nextGran (used : List Nat) : Nat := ((List.range 64).find? (fun g => !used.contains g)).getD 64

/-- Granules that leave the scratchpad: first to the register pool until it holds 16, then to the L1. -/
def CoreSt.giveGranules : Nat → CoreSt → CoreSt
  | 0, c => c
  | n + 1, c =>
    CoreSt.giveGranules n
      (if c.regGrans.length < 16 then
        { c with scratchGrans := c.scratchGrans - 1, regGrans := c.regGrans ++ [nextGran c.regGrans] }
      else { c with scratchGrans := c.scratchGrans - 1, l1Grans := c.l1Grans + 1 })

/-- When no change is pending, every granule at the scratchpad's top end that nothing covers leaves at once. -/
def State.shrinkScratch (s : State) (core : Nat) : State :=
  let c := s.core core
  match c.split with
  | some _ => s
  | none =>
    let top := (s.scratchHeld core).foldl (fun m u => if u.2 = 0 then m else max m (u.1 + u.2)) 0
    s.setCore core (CoreSt.giveGranules (c.scratchGrans - (top + 31) / 32) c)

/-- An allocation or a tile buffer has been freed on some cores: their scratchpads shrink (R163). -/
def State.shrinkAll (s : State) (cores : List Nat) : State := cores.foldl State.shrinkScratch s

/-! ### Ending a context (R151, R152, R319, R427, R450) -/

/-- Waves go: their requests that have not left go with them; those under way find nobody waiting, and enter no L1. -/
def State.orphan (s : State) (gone : WaveKey → Bool) : State :=
  let ours := fun (r : Request) => gone r.key && r.sharers.all (fun x => gone x.1)
  { s with net := (s.net.filter (fun r => !(r.spot = .outside && ours r))).map (fun r =>
      if ours r then { r with noInstall := true, noShare := true } else r) }

/-- Everything of a context that runs or waits ends: its waves, teams, crews (pixel crews among them, which have no task), tasks, queues, passes, requests, the lines its regions hold,
its armed maps, its tile buffers (R319), its clusters' reservations (R266); the scratchpads it leaves shrink (R163); its groups return to
their reset values (R275). (Log 12: DEDUCED.) -/
def State.endContext (s : State) (c : Nat) : State :=
  let ours : List Nat := (s.teams.filter (fun p => p.2.ctx = c)).map Prod.fst
  let tasks : List Nat := (s.tasks.filter (fun p => p.2.ctx = c)).map Prod.fst
  let mates : List Nat := (s.teams.filter (fun p => p.2.ctx = c)).map (fun p => p.2.crew)
  let crews : List Nat := (s.crews.filter (fun p => tasks.contains p.2.task || mates.contains p.1)).map Prod.fst
  let left : List Nat := ((s.teams.filter (fun p => p.2.ctx = c && p.2.resident)).map (fun p => p.2.core)
    ++ (s.cores.filter (fun p => p.2.tiles.any (fun t => t.ctx = c))).map Prod.fst).dedup
  let s := s.orphan (fun k => (assocGet s.waves k).any (fun w => w.ctx = c))
  State.shrinkAll { s with
    waves := s.waves.filter (fun p => p.2.ctx ≠ c)
    scouts := s.scouts.filter (fun p => p.2.saved.ctx ≠ c)
    teams := s.teams.filter (fun p => p.2.ctx ≠ c)
    crews := s.crews.filter (fun p => !crews.contains p.1)
    tasks := s.tasks.filter (fun p => p.2.ctx ≠ c)
    passes := s.passes.filter (fun p => p.ctx ≠ c)
    faults := s.faults.filter (fun f => f.ctx ≠ c)
    contexts := s.contexts.map (fun p => if p.1 = c then (c, { p.2 with ended := true, queues := [], debugger := false, frozenAt := none, matches_ := [] }) else p)
    chosen := s.chosen.filter (fun x => x.1 ≠ c)
    dies := s.dies.map (fun p => (p.1, { p.2 with reserved := p.2.reserved.filter (fun r => !crews.contains r.2) }))
    groups := s.groups.filter (fun p => p.2.owner ≠ some (BitVec.ofNat 6 c))
    cores := s.cores.map (fun p => (p.1, { p.2 with
      l1 := p.2.l1.filter (fun l => !(l.ctx = c && l.held.isSome))
      clove := p.2.clove.filter (fun l => l.ctx ≠ c)
      tiles := p.2.tiles.filter (fun t => t.ctx ≠ c)
      array := p.2.array.filter (fun a => (s.wave a.1).ctx ≠ c)
      armedMap := p.2.armedMap.filter (fun a => !ours.contains a.1)
      rowQueue := p.2.rowQueue.filter (fun q => (s.wave ⟨p.1, q.1⟩).ctx ≠ c) })) } left

/-- A context is no more: its number is free, and its frames enter the spoil queue (R369). -/
def State.freeContext (s : State) (c : Nat) : State :=
  { s with
    migrations := s.migrations.filter (fun f => f.ctx ≠ c)
    contexts := assocErase s.contexts c
    cores := s.cores.map (fun p => (p.1, { p.2 with l1 := p.2.l1.filter (fun l => l.ctx ≠ c) }))
    spoil := s.spoil ++ ((s.frames.filter (fun f => f.2.2 = c)).flatMap (fun f =>
      rangeLess [(f.1, f.2.1)] ((s.frames.filter (fun g => g.2.2 ≠ c)).map (fun g => (g.1, g.2.1))))).map (fun f => (f.1, f.2, s.quiescence))
    frames := s.frames.filter (fun f => f.2.2 ≠ c)
    cgroups := s.cgroups.filter (fun g => g.ctx ≠ c) }

/-- The RASTER records of a context that ends while pixel sections are held: queue and pixel (R401, R403, R445). -/
def State.logSections (s : State) (c : Nat) : State :=
  (((s.passes.filter (fun p => p.ctx = c)).map Pass.qid).dedup).foldl (fun s q =>
    match s.heldPixels c q with
    | [] => s
    | p :: _ => s.logRec 0x0008 false (placeWord c 0) false 0 [0, BitVec.ofNat 32 q, BitVec.ofNat 32 (p.2 * 65536 + p.1)]) s

/-- A context is terminated: its TERM record (R450) first, then its session's event, then its work ends; a render queue with a
held section is aborted (R403). regs are the eight trap registers in index order, w the ninth word. (Log 12: DEDUCED.) -/
def State.terminate (s : State) (c core : Nat) (regs : List Word) (w : Word) : State :=
  let cause := (regs.headD 0)
  let s := s.logRec 0x0001 false (placeWord c core) (cause.getLsbD 8) (cause.toNat % 256) (regs ++ [w])
  let s := s.hostEvent (s.context c).session (BitVec.ofNat 32 c) (wordLe 0 ++ (regs ++ [w]).flatMap wordLe)
  ((s.logSections c).abandonSections c).endContext c

/-! ### Traps (R151 to R153) -/

/-- A trap about to be taken: TCAUSE, TPC, TADDRHI and TADDRLO, TMASK, TINFO. -/
structure TrapReq where
  cause : Nat
  async : Bool
  tpc : Word
  mask : LaneMask
  addr : DWord
  info : Word
  deriving DecidableEq, Repr

def TrapReq.tcause (t : TrapReq) : Word := BitVec.ofNat 32 (t.cause + if t.async then 256 else 0)

/-- The trap registers of a wave in index order (R151). -/
def Wave.trapRegs (w : Wave) : List Word := [w.tcause, w.tpc, w.taddrLo, w.taddrHi, w.tmask, w.tinfo, w.tvec, w.tpaths]

/-- A program counter: bits [1:0] of one are always zero (R12). -/
def alignPc (x : Word) : Word := x &&& ~~~3#32

/-- The wave with the trap's registers written and its handler path formed: the live threads of TMASK at TVEC, unblocked, every
other live thread stopped where it stands (R151); bits [1:0] of TVEC are no part of a PC (R12; log 70: DEDUCED). -/
def Wave.enterHandler (w : Wave) (t : TrapReq) : Wave :=
  let path := w.live &&& t.mask
  let rest := w.live &&& ~~~t.mask
  let w := w.mapLanes path (fun _ l => { l with pc := alignPc w.tvec, block := .none, stopped := false, yieldSpan := .none })
  let w := w.mapLanes rest (fun _ l => { l with stopped := true })
  { w with
    tcause := t.tcause
    tpc := t.tpc
    taddrLo := loWord t.addr
    taddrHi := hiWord t.addr
    tmask := t.mask
    tinfo := t.info
    tpaths := rest
    handler := true
    matchSkip := w.matchSkip &&& ~~~path
    waits := (w.leaveWaits path).waits }

/-- A trap reaches a wave (R151, R152): at handler level the context ends with both causes; with TVEC 0 it ends with this one;
otherwise the wave enters its handler. -/
def State.trap (s : State) (k : WaveKey) (t : TrapReq) : State :=
  let w := s.wave k
  if w.handler then s.terminate w.ctx k.core w.trapRegs (0x01000000 + t.tcause)
  else if w.tvec = 0 then
    let w' := w.enterHandler t
    s.terminate w.ctx k.core w'.trapRegs 0
  else s.setWave k (w.enterHandler t)

/-- A precise trap of the issuing instruction, at its PC, with its word as TINFO (R80). -/
def State.trapHere (s : State) (cause : Nat) (mask : LaneMask) (addr : DWord) : State :=
  s.trap s.sel.key ⟨cause, false, s.sel.pc, mask, addr, s.sel.word⟩

/-- RTT (R153): every live thread of TMASK resumes at TPC wherever it stands, every stopped one returns to its block state. -/
def Wave.leaveHandler (w : Wave) : Wave :=
  let back := w.live &&& w.tmask
  let w' := w.mapLanes back (fun _ l => { l with pc := w.tpc, block := .none, yieldSpan := .none })
  let w' := w'.mapLanes allLanes (fun _ l => { l with stopped := false })
  { w' with handler := false, matchSkip := w'.matchSkip &&& ~~~back, waits := (w'.leaveWaits back).waits }

/-! ### Issue checks shared by the meanings -/

/-- The first cause that a table of checks finds. (Log 30: DEDUCED.) -/
def firstTrap : List (Option TrapReq) → Option TrapReq
  | [] => none
  | some t :: _ => some t
  | none :: l => firstTrap l

/-- A check of the whole path that raises a cause with the instruction word as TINFO. -/
def State.check (s : State) (fails : Bool) (cause : Nat) (mask : LaneMask) (addr : DWord) : Option TrapReq :=
  if fails then some ⟨cause, false, s.sel.pc, mask, addr, s.sel.word⟩ else none

/-- Run an effect unless a check of the table fails. (Log 30: DEDUCED.) -/
def State.guarded (s : State) (checks : List (Option TrapReq)) (effect : State) : Res :=
  match firstTrap checks with
  | some t => .next (s.trap s.sel.key t)
  | none => .next effect

/-- The threads of a path as they were before the clock's issues: their passed-over counts and suppressed matches. -/
def Wave.countsOf (w : Wave) (m : LaneMask) (before : Wave) : Wave :=
  { w.mapLanes m (fun i l => { l with passed := before.lanes[i].passed }) with matchSkip := w.matchSkip ||| (before.matchSkip &&& m) }

/-- A write that needs rows the pool does not give at once (R167): the wave stalls and enters the core's queue at its tail. The instruction
does not issue: the wave is as it was before, but that a second path has been passed over (R22). -/
def State.growStall (s : State) (need : Nat) : State :=
  let s := match s.prior with
    | some p => if s.sel.slot = SlotUse.pair then s.modCur (fun w => (w.countsOf s.sel.mask p).countPass s.sel.mask) else s.setWave s.sel.key p
    | none => s
  let s := s.modCur (fun w => { w with growStall := true })
  s.modCore s.sel.key.core (fun c => { c with rowQueue := c.rowQueue ++ [(s.sel.key.slot, need)] })

/-- The rows that writing the names would allocate. -/
def Wave.rowNeed (w : Wave) (names : List Nat) : Nat := (names.dedup.filter (fun n => (w.row n).isNone)).length

/-- Must the wave stall to get so many rows (R167)? Rows already granted to it come first; with the queue empty the rows that the
instruction itself frees serve it too (R166). -/
def State.mustStall (s : State) (need freed : Nat) : Bool :=
  let extra := need - s.cur.granted
  extra > 0 && (!(s.core s.sel.key.core).rowQueue.isEmpty || s.rowsFree s.sel.key.core + freed < extra)

end Sys2Proof.Machine
end

