-- ==== Sys2Proof/Machine/Net.lean ====
section
/-! DEFINITION. The network of a die and the rings between dies (spec/14_the_die.md R278 to R287): where agents stand, the routes, the
buffers of the inputs with their room, and the hop of one packet. A request is its own packet, there and back (log 73: DESIGN CHOICE). -/

namespace Sys2Proof.Machine

/-! ### Routers and what they carry (R278) -/

def clusterRouters : List Nat := [0, 2, 5, 7, 8, 10, 13, 15]
def memoryRouters : List Nat := [1, 3, 4, 6, 9, 11, 12, 14]
/-- The router of a cluster of a die, and of an L2 slice and the remote-data slice of its number. -/
def clusterRouter (c : Nat) : Nat := (clusterRouters[c / 4]?).getD 0
def sliceRouter (s : Nat) : Nat := (memoryRouters[s / 2]?).getD 0

/-- The router of an agent, counted through the package. -/
def NetAgent.router : NetAgent → Nat
  | .core n => 16 * dieOf n + clusterRouter (n / 4 % 32)
  | .port n => 16 * dieOf n + clusterRouter (n / 4 % 32)
  | .slice d s => 16 * d + sliceRouter s

/-- The input by which a packet from router a enters router b of its row or column: 0 to 2 from the row, 3 to 5 from the column. -/
def portFrom (a b : Nat) : Nat :=
  let skip := fun (x y : Nat) => if x < y then x else x - 1
  if a / 4 % 4 = b / 4 % 4 then skip (a % 4) (b % 4) else 3 + skip (a / 4 % 4) (b / 4 % 4)

/-! ### Links (R284, R287) -/

/-- The router of a die's link, the die beyond it, and the number the link has there. -/
def linkRouter (l : Nat) : Nat := ([3, 12, 4, 11][l]?).getD 0
def neighbour (d l : Nat) : Nat := match l with
  | 0 => 4 * (d / 4) + (d % 4 + 1) % 4
  | 1 => 4 * (d / 4) + (d % 4 + 3) % 4
  | _ => 4 * (1 - d / 4) + d % 4
def linkBack (l : Nat) : Nat := match l with
  | 0 => 1
  | 1 => 0
  | n => n
def State.linkAlive (s : State) (d l : Nat) : Bool := !((s.die d).deadLinks.contains l)
/-- Some link of the package is dead. -/
def State.linksBroken (s : State) : Bool := s.dies.any (fun d => !d.2.deadLinks.isEmpty)

/-- The die so many places along a ring, east or west. -/
def ringDie (d dir n : Nat) : Nat := 4 * (d / 4) + (d % 4 + (if dir = 0 then n else 3 * n)) % 4
/-- The links of a stretch of a ring are alive. -/
def State.ringAlive (s : State) (d dir n : Nat) : Bool := (List.range n).all (fun i => s.linkAlive (ringDie d dir i) dir)
/-- The ring link toward a column (R285): the shorter way, east at a distance of 2; the other way round a dead link (R287). -/
def State.ringLink (s : State) (d col : Nat) : Nat :=
  let e := (col + 4 - d % 4) % 4
  let near := if e ≤ 2 then 0 else 1
  let far := 1 - near
  let dist := fun (l : Nat) => if l = 0 then e else 4 - e
  if !s.ringAlive d near (dist near) && s.ringAlive d far (dist far) then far else near
/-- The column in which a packet of a row crosses to a column of the other (R285, R287): the nearest whose cross link lives, west on a tie. -/
def State.crossColumn (s : State) (row col : Nat) : Nat :=
  (([col, (col + 3) % 4, (col + 1) % 4, (col + 2) % 4]).find? (fun c => s.linkAlive (4 * row + c) 2 || s.linkAlive (4 * row + c) 3)).getD col

/-! ### Buffers (R280, R286) -/

/-- The class of a packet (R280): 0 request, 1 response. -/
def Request.cls (q : Request) : Nat := match q.leg with
  | .toSlice => 0
  | .toHome => 0
  | _ => 1
/-- The packets of a class in the buffer of an input. -/
def State.inputLoad (s : State) (router port cls : Nat) : Nat :=
  (s.net.filter (fun r => r.spot = .input router port && r.cls = cls)).length
/-- The packet places of a buffer. -/
def bufferPlaces : Nat := 2 + Config.morePlaces

/-- The half of a cross link that a packet takes: of two live ones that with fewer packets waiting beyond it, at a tie that of router 4. (Log 73:
DESIGN CHOICE.) -/
def State.crossHalf (s : State) (d cls : Nat) : Nat :=
  let n := neighbour d 2
  if !s.linkAlive d 2 then 3
  else if !s.linkAlive d 3 then 2
  else if s.inputLoad (16 * n + 11) 7 cls < s.inputLoad (16 * n + 4) 7 cls then 3 else 2

/-- The link by which a packet leaves a die for another (R285, R287). -/
def State.exitLink (s : State) (d dest cls : Nat) : Nat :=
  if d / 4 = dest / 4 then s.ringLink d (dest % 4)
  else
    let c := s.crossColumn (d / 4) (dest % 4)
    if d % 4 = c then s.crossHalf d cls else s.ringLink d c

/-! ### Routes (R279, R285) -/

/-- A hop within a die: straight along the row or column; else by the first hop whose queue is shorter, row-first on a tie; the queue is the
buffer that the hop leads to (log 75: DEDUCED). -/
def State.dieHop (s : State) (cls r goal : Nat) : Spot :=
  let step := fun (x : Nat) => Spot.input x (portFrom r x)
  if r % 4 = goal % 4 || r / 4 % 4 = goal / 4 % 4 then step goal
  else
    let rowFirst := r / 4 * 4 + goal % 4
    let colFirst := r / 16 * 16 + goal / 4 % 4 * 4 + r % 4
    if s.inputLoad colFirst (portFrom r colFirst) cls < s.inputLoad rowFirst (portFrom r rowFirst) cls then step colFirst else step rowFirst

/-- The router of the agent that a request is bound for (R288, R290). -/
def State.goal (s : State) (q : Request) : Nat := match q.leg with
  | .toHome => 16 * s.homeDie q.pline + sliceRouter (sliceOf q.pline)
  | .backHere => q.by_.router
  | _ => 16 * dieOf q.core + sliceRouter (sliceOf q.pline)

/-- Where a packet at a router goes next; r and p: the router and the input by which it came. Between the east and the west port of a die it does
not enter the die network (R284). -/
def State.nextSpot (s : State) (q : Request) (r p : Nat) : Spot :=
  let goal := s.goal q
  if r = goal then .there
  else if r / 16 = goal / 16 then s.dieHop q.cls r goal
  else
    let d := r / 16
    let l := s.exitLink d (goal / 16) q.cls
    if r % 16 = linkRouter l || (p = 7 && l < 2 && (r % 16 = 3 || r % 16 = 12)) then .input (16 * neighbour d l + linkRouter (linkBack l)) 7
    else s.dieHop q.cls r (16 * d + linkRouter l)

/-- Where a packet in the network stands. -/
def Spot.place : Spot → Option (Nat × Nat)
  | .input r p => some (r, p)
  | .slot r p => some (r, p)
  | _ => none
/-- Where a packet in the network goes next. -/
def State.wants (s : State) (q : Request) : Option Spot := q.spot.place.map (fun x => s.nextSpot q x.1 x.2)

/-- A packet is at the head of its buffer, or in a transit slot (R282). -/
def State.atHead (s : State) (q : Request) : Bool := match q.spot with
  | .input _ _ => s.net.all (fun x => !(x.spot = q.spot && x.cls = q.cls && x.seat < q.seat))
  | .slot _ _ => true
  | _ => false

/-- There is room for a packet where it goes (R280, R286): its agent accepts it; a ring keeps one place more free for what comes from a die. -/
def State.hasRoom (s : State) (q : Request) (to_ : Spot) : Bool := match to_ with
  | .input r p =>
    let ring := p = 7 && (r % 16 = 3 || r % 16 = 12)
    let through := q.spot.place.any (fun x => x.2 = 7 && (x.1 % 16 = 3 || x.1 % 16 = 12))
    s.inputLoad r p q.cls + (if ring && !through then 2 else 1) ≤ bufferPlaces
  | _ => true

/-- Of two packets that want one output the first goes ahead (R282, R283): with age priority, the one injected earlier; out of the transit slot
of an input before its buffer. -/
def Request.ahead (x q : Request) : Bool :=
  (x.recoveries = 2 && (q.recoveries < 2 || x.injected < q.injected))
    || (match x.spot, q.spot with
        | .slot r p, .input r' p' => r = r' && p = p' && !(q.recoveries = 2)
        | _, _ => false)

/-- A packet may move one hop. -/
def State.canHop (s : State) (q : Request) : Bool :=
  match s.wants q with
  | none => false
  | some to_ => s.atHead q && s.hasRoom q to_
    && s.net.all (fun x => !(x.id ≠ q.id && x.cls = q.cls && s.wants x = some to_ && s.atHead x && x.ahead q))

/-! ### Requests as packets -/

def State.req (s : State) (id : Nat) : Option Request := s.net.find? (fun r => r.id = id)
def State.setReq (s : State) (q : Request) : State := { s with net := s.net.map (fun r => if r.id = q.id then q else r) }
def State.dropReq (s : State) (id : Nat) : State := { s with net := s.net.filter (fun r => r.id ≠ id) }

/-- A packet comes to a place. -/
def State.place (s : State) (q : Request) (spot : Spot) : State :=
  let (id, s) := s.fresh
  s.setReq { q with spot := spot, seat := id, movedAt := s.clock }

/-- A packet sets out from an agent's router. -/
def State.setOut (s : State) (q : Request) (router : Nat) : State := s.place { q with injected := s.clock } (.input router 6)

/-- The hop of a packet. -/
def State.hop (s : State) (q : Request) : State :=
  if s.canHop q then (match s.wants q with
    | some to_ => s.place q to_
    | none => s)
  else s

end Sys2Proof.Machine
end

