-- ==== Sys2Proof/Machine/Cache.lean ====
section
/-! DEFINITION. The caches behind the instructions: the L1 (spec/09 R186), the remote-data cache (spec/14 R290, R291), requests and
tags (R292), and the pushes and invalidations that releases and acquires make (R187, R197). -/

namespace Sys2Proof.Machine

/-! ### The L1 (R186, R233, R356) -/

/-- The line of a context at a virtual line; held selects the ordinary copy or a team's held one. -/
def CoreSt.line (c : CoreSt) (ctx vline : Nat) (held : Option Nat) : Option Line :=
  c.l1.find? (fun l => l.ctx = ctx ∧ l.vline = vline ∧ l.held = held)
def Line.byte (l : Line) (off : Nat) : Option LByte := assocGet l.bytes off
def CoreSt.byteIn (c : CoreSt) (ctx va : Nat) (held : Option Nat) : Option LByte :=
  (c.line ctx (lineAddr va) held).bind (fun l => l.byte (va % 128))

/-- Is a region of the team open (R245)? -/
def State.regionOpen (s : State) (t : Nat) : Bool := (s.team t).rgnstat.getLsbD 0

/-- What a wave of a team finds in its core's L1 and its region's journal: its held byte, a journal byte, the ordinary byte (R234, R235). -/
def State.l1Byte (s : State) (core ctx team va : Nat) : Option LByte :=
  match (s.core core).byteIn ctx va (some team) with
  | some b => some b
  | none =>
    match ((s.team team).region.bind (fun r => (r.journal.reverse.find? (fun j => j.1 = va)))) with
    | some (_, _, m) => some ⟨m.val, m.pois, true, []⟩
    | none => (s.core core).byteIn ctx va none

/-- Replace or add a line; a line that is new goes to the end of the replacement order; .STREAM puts any to its front (R186). -/
def CoreSt.putLine (c : CoreSt) (l : Line) (front : Bool) : CoreSt :=
  let same := fun (x : Line) => x.ctx = l.ctx ∧ x.vline = l.vline ∧ x.held = l.held
  if front then { c with l1 := l :: c.l1.filter (fun x => !same x) }
  else if c.l1.any same then { c with l1 := c.l1.map (fun x => if same x then l else x) }
  else { c with l1 := c.l1 ++ [l] }
/-- A load with .STREAM puts the lines that it finds first for replacement (R186). -/
def CoreSt.toFront (c : CoreSt) (ctx : Nat) (vlines : List Nat) : CoreSt :=
  let mine := fun (x : Line) => x.ctx = ctx ∧ vlines.contains x.vline
  { c with l1 := c.l1.filter mine ++ c.l1.filter (fun x => !mine x) }

/-- Write bytes (offset, value) into a line as dirty bytes of an owner. -/
def Line.write (l : Line) (bs : List (Nat × MByte)) (owner : Nat) : Line :=
  { l with bytes := bs.foldl (fun acc b => assocSet acc b.1 ⟨b.2.val, b.2.pois, true, [owner]⟩) l.bytes }

/-- The dirty bytes of a line by physical address. -/
def Line.dirtyBytes (l : Line) : List (Nat × MByte) :=
  (l.bytes.filter (fun b => b.2.dirty)).map (fun b => (l.pline + b.1, ⟨b.2.val, b.2.pois⟩))
/-- Whose a line's dirty bytes are. -/
def Line.owners (l : Line) : List Nat := firsts ((l.bytes.filter (fun b => b.2.dirty)).flatMap (fun b => b.2.owners))
/-- A line after bytes of it have been cleaned: clean bytes stand in whole lines only (R186, R321). -/
def Line.settled (l : Line) : Line := if l.bytes.length = 128 then l else { l with bytes := l.bytes.filter (fun b => b.2.dirty) }
/-- A line whose dirty bytes of an owner, or all of them, have been pushed. -/
def Line.clean (l : Line) (owner : Option Nat) : Line :=
  Line.settled { l with bytes := l.bytes.map (fun b =>
    if owner.all (fun o => b.2.owners.contains o) then (b.1, { b.2 with dirty := false, owners := [] }) else b) }

/-! ### The remote-data cache (R290, R291) -/

/-- The valid copy of a line on a die: its epoch is the die's. -/
def Die.copy (d : Die) (pline : Nat) : Option Copy := d.copies.find? (fun c => c.pline = pline ∧ c.epoch = d.epoch)
def Die.setCopy (d : Die) (c : Copy) : Die :=
  { d with copies := c :: d.copies.filter (fun x => x.pline ≠ c.pline ∧ x.epoch = d.epoch) }
def Die.dropCopy (d : Die) (pline : Nat) : Die := { d with copies := d.copies.filter (fun x => x.pline ≠ pline) }
/-- Bytes by address laid over a line, a later one over an earlier. -/
def overlay (pline : Nat) (l : List MByte) (bs : List (Nat × MByte)) : List MByte :=
  (List.range 128).map (fun i => match assocGet bs.reverse (pline + i) with
    | some b => b
    | none => (l[i]?).getD ⟨0, false⟩)
/-- The bytes that a write puts in place: one of which only the low nibble is written keeps the other (R213). -/
def nibbleBytes (low : List Nat) (old : Nat → MByte) (bs : List (Nat × MByte)) : List (Nat × MByte) :=
  bs.map (fun b => if low.contains b.1 then
    (b.1, ⟨((old b.1).val &&& 0xF0#8) ||| (b.2.val &&& 0x0F#8), (old b.1).pois || b.2.pois⟩) else b)
/-- A write toward a remote home updates the copy its slice holds; its bytes are pending until it is acknowledged (R290). -/
def Die.updateCopy (d : Die) (pline : Nat) (bs : List (Nat × MByte)) (low : List Nat) (number : Nat) : Die :=
  match d.copy pline with
  | none => d
  | some c =>
    let offs := bs.map (fun b => b.1 - pline)
    d.setCopy { c with bytes := overlay pline c.bytes (nibbleBytes low (fun a => (c.bytes[a - pline]?).getD ⟨0, false⟩) bs)
                       pend := c.pend.filter (fun p => !offs.contains p.1) ++ offs.map (fun o => (o, number))
                       later := c.later.filter (fun p => !offs.contains p.1) }
/-- The home has performed a write of a copy's bytes, in a place of its order: they are pending no longer (R290). -/
def Copy.acked (c : Copy) (number stamp : Nat) : Copy :=
  { c with pend := c.pend.filter (fun p => p.2 ≠ number)
           later := c.later ++ (c.pend.filter (fun p => p.2 = number)).map (fun p => (p.1, stamp)) }
/-- A copy refreshed by what its home held at a place in its order (R326): no byte moves back, and a pending one stays (R291). -/
def Copy.refresh (c : Copy) (bs : List MByte) (stamp : Nat) : Copy :=
  if stamp < c.base then c
  else
    let keeps := fun (i : Nat) => c.pend.any (fun p => p.1 = i) || c.later.any (fun p => p.1 = i && stamp < p.2)
    { c with bytes := (List.range 128).map (fun i => if keeps i then (c.bytes[i]?).getD ⟨0, false⟩ else (bs[i]?).getD ⟨0, false⟩)
             base := stamp
             later := c.later.filter (fun p => stamp < p.2) }

/-- A set of a remote-data slice (R290): 16 slices of 4 MiB, 16 ways, 2,048 sets; the line's place among those of its slice modulo the sets.
(Log 74: DESIGN CHOICE.) -/
def rdcSet (pline : Nat) : Nat := pline / 2048 % 2048
def WayGroup.ofRdc (pline : Nat) : WayGroup := ⟨true, sliceOf pline, 0⟩
/-- A set of an L2 slice (R288): 65,536 sets of 16 ways, in 16 groups of 4,096. (Log 74: DESIGN CHOICE.) -/
def l2Set (pline : Nat) : Nat := pline / 2048 % 65536
def WayGroup.ofL2 (pline : Nat) : WayGroup := ⟨false, sliceOf pline, l2Set pline / 4096⟩
/-- The ways of a set group that are retired (R297). -/
def Die.retiredWays (d : Die) (g : WayGroup) : BitVec 16 := (assocGet d.wayMasks g).getD 0
/-- A way of a group for a line: one that no line of its set holds, else that of the line that has been there longest. A retired way holds no
line. (Log 74: DESIGN CHOICE.) -/
def Die.wayFor (d : Die) (g : WayGroup) (taken : List Nat) : Nat :=
  let usable := (List.range 16).filter (fun w => !(d.retiredWays g).getLsbD w)
  match usable.find? (fun w => !taken.contains w) with
  | some w => w
  | none => (taken.getLast?).getD 0

/-- A fill puts a line into its slice (R290), in the place of another where its set is full; stamp: when its home performed it. -/
def Die.installCopy (d : Die) (pline : Nat) (bytes : List MByte) (stamp : Nat) : Die :=
  let others := d.copies.filter (fun x => x.pline ≠ pline ∧ x.epoch = d.epoch)
  let same := fun (x : Copy) => sliceOf x.pline = sliceOf pline && rdcSet x.pline = rdcSet pline
  let way := d.wayFor (.ofRdc pline) ((others.filter same).map Copy.way)
  { d with copies := ⟨pline, d.epoch, way, bytes, stamp, [], []⟩ :: others.filter (fun x => !(same x && x.way = way)) }

/-- An access at a line's home finds or brings it into its L2 slice (R288): a write allocates without a fetch and marks its bytes; the line that
it takes the place of goes back to HBM4E. -/
def Die.touchL2 (d : Die) (pline : Nat) (written : List Nat) : Die :=
  let others := d.l2.filter (fun x => x.pline ≠ pline)
  let mask := written.foldl (fun (m : BitVec 128) o => m ||| (1#128 <<< o)) 0
  match d.l2.find? (fun x => x.pline = pline) with
  | some x => { d with l2 := { x with dirty := x.dirty ||| mask } :: others }
  | none =>
    let same := fun (x : L2Line) => sliceOf x.pline = sliceOf pline && l2Set x.pline = l2Set pline
    let way := d.wayFor (.ofL2 pline) ((others.filter same).map L2Line.way)
    { d with l2 := ⟨pline, way, mask⟩ :: others.filter (fun x => !(same x && x.way = way)) }

/-! ### Requests and tags (R292, R293) -/

/-- A line's home lies behind the remote-data slice of the die: on another die, or in the fabric window (R290). -/
def State.remote (s : State) (die pline : Nat) : Bool := s.isFabric pline || s.homeDie pline ≠ die
def NetAgent.isSlice : NetAgent → Bool
  | .slice _ _ => true
  | _ => false
/-- A request that changes its line. -/
def ReqKind.writes : ReqKind → Bool
  | .read _ _ => false
  | _ => true

/-- Put a request for a line in line for the network. A write or an atomic of a core keeps what its reads under way bring out of the L1, and takes
them no further reads (R296, R323, R326); an acquire read takes none either. -/
def State.send (s : State) (by_ : NetAgent) (k : WaveKey) (op ctx vline pline : Nat) (kind : ReqKind) (owners : List Nat) (acq : Bool) : State :=
  let (id, s) := s.fresh
  let core := k.core
  let mine := fun (r : Request) => r.core = core && r.pline = pline && !r.by_.isSlice
  let written := s.net.any (fun r => mine r && r.kind.writes)
  let net := if kind.writes then s.net.map (fun r => if mine r then { r with noInstall := true, noShare := true } else r) else s.net
  let q : Request :=
    { id := id, by_ := by_, core := core, tag := 1024, gen := 0, key := k, op := op, sharers := [], ctx := ctx, vline := vline, pline := pline,
      kind := kind, owners := owners, epoch := (s.die (dieOf core)).epoch, number := 0, stamp := 0, born := s.clock, performed := false, reply := none,
      noInstall := false, noShare := acq || written, dead := false, tries := 0, retryAt := 0,
      leg := match by_ with
        | .slice _ _ => .toHome
        | _ => if s.remote (dieOf core) pline then .toSlice else .toHome
      spot := .outside, seat := id, injected := s.clock, movedAt := s.clock, recoveries := 0 }
  { s with net := net ++ [q] }

/-- The key under which a core, and no wave of it, sends. -/
def coreKey (core : Nat) : WaveKey := ⟨core, 64⟩

/-- Bytes leave a core's L1 for their home (R186, R187): a write request of the core's own, the bytes' owners with it. -/
def State.pushHome (s : State) (core ctx vline pline : Nat) (bs : List (Nat × MByte)) (owners : List Nat) : State :=
  if bs.isEmpty then s else s.send (.core core) (coreKey core) 0 ctx vline pline (.write bs []) owners false

/-- A write of a release store whose turn has not come: earlier accesses of its wave are still to be pushed (R187). -/
def Op.heldBack (o : Op) : Bool := match o.kind with
  | .release _ _ .sent => false
  | .release _ _ _ => true
  | _ => false
def State.heldBack (s : State) (q : Request) : Bool := q.spot = .outside && ((s.wave q.key).op q.op).any Op.heldBack
/-- The lines of the release stores of a wave that are held back: what is dirty there was stored after them. -/
def State.heldBackLines (s : State) (k : WaveKey) : List Nat := (s.net.filter (fun r => r.key = k && s.heldBack r)).map Request.pline

/-- Pushes of an owner's bytes that are still to be acknowledged: those with an identity below a mark, but for some lines. -/
def State.pushing (s : State) (owner mark : Nat) (but : List Nat) : Bool :=
  s.net.any (fun r => r.owners.contains owner && r.id < mark && !r.dead && !but.contains r.pline)
/-- Some access of a core to a line is still to be performed or answered: what acts on the line at its home by itself follows it. -/
def State.lineBusy (s : State) (core pline : Nat) : Bool :=
  s.net.any (fun r => r.core = core && r.pline = pline && r.kind.writes && !r.dead && !s.heldBack r)

/-! ### Eviction (R186, R235) and capacity -/

/-- The journal once bytes have spilled, the newest entry for an address in the place of an older one (R235). -/
def Region.journalWith (r : Region) (bs : List (Nat × Nat × MByte)) : List (Nat × Nat × MByte) :=
  r.journal.filter (fun j => !bs.any (fun b => b.1 = j.1)) ++ bs
/-- The journal's capacity in bytes takes them (R235, R428). -/
def State.journalRoom (s : State) (t : Nat) (bs : List (Nat × Nat × MByte)) : Bool :=
  let x := s.team t
  match x.region with
  | none => false
  | some r => (r.journalWith bs).length ≤ (s.context x.ctx).journalMiB * 1048576

/-- The first held write that finds its team's journal full: RGN_VIOLATION is due in the waves whose bytes its line holds (R235). Which lanes
wrote them is not kept: TMASK has the live ones. (Log 71: DESIGN CHOICE.) -/
def State.noteOverfull (s : State) (l : Line) (t : Nat) : State :=
  let (id, s) := s.fresh
  let lowest := fun (o : Nat) => ((l.bytes.filter (fun b => b.2.owners.contains o)).map Prod.fst).foldl min 127
  { s with waves := s.waves.map (fun (p : WaveKey × Wave) =>
      if p.2.team = t && l.owners.contains p.2.uid then
        (p.1, { p.2 with pend := p.2.pend ++ [⟨id, .st, 0, ⟨causeRgnViolation, p.2.live, BitVec.ofNat 64 (l.vline + lowest p.2.uid), 0, false⟩⟩] })
      else p) }

/-- A held line spills to its team's journal; a full journal keeps it in the L1 and marks the region overfull (R235). -/
def State.spill (s : State) (core : Nat) (l : Line) (t : Nat) : State :=
  let bs := (l.bytes.filter (fun b => b.2.dirty)).map (fun b => (l.vline + b.1, l.pline + b.1, (⟨b.2.val, b.2.pois⟩ : MByte)))
  if s.journalRoom t bs then
    let s := s.modTeam t (fun x => { x with region := x.region.map (fun r => { r with journal := r.journalWith bs }) })
    s.modCore core (fun c => { c with l1 := c.l1.filter (fun x => x != l) })
  else if ((s.team t).region.map Region.overfull).getD true then s
  else (s.noteOverfull l t).modTeam t (fun x => { x with region := x.region.map (fun r => { r with overfull := true }) })

/-- A line leaves the L1: dirty bytes go home, held lines to the journal, clean ones are dropped. -/
def State.evict (s : State) (core : Nat) (l : Line) : State :=
  match l.held with
  | some t => s.spill core l t
  | none =>
    let s := s.pushHome core l.ctx l.vline l.pline l.dirtyBytes l.owners
    s.modCore core (fun c => { c with l1 := c.l1.filter (fun x => x != l) })

/-- Lines the L1 has room for: 256 in each granule (R161). -/
def CoreSt.l1Cap (c : CoreSt) : Nat := c.l1Grans * 256

/-- Evict from the front of the replacement order until the lines fit. -/
def State.fitL1 (s : State) (core : Nat) : Nat → State
  | 0 => s
  | n + 1 =>
    let c := s.core core
    if c.l1.length ≤ c.l1Cap then s
    else match c.l1 with
      | [] => s
      | l :: _ => (s.evict core l).fitL1 core n

def State.putLine (s : State) (core : Nat) (l : Line) (front : Bool) : State :=
  let s := s.modCore core (fun c => c.putLine l front)
  s.fitL1 core ((s.core core).l1.length - (s.core core).l1Cap)

/-- Write bytes of one line into the L1 as dirty bytes of a wave, or as held bytes of its team while its region is open (R186, R233). -/
def State.l1Write (s : State) (core ctx vline pline : Nat) (e : Option (BitVec 64)) (bs : List (Nat × MByte)) (w : Wave) (front : Bool) : State :=
  let held := if s.regionOpen w.team then some w.team else none
  let l := ((s.core core).line ctx vline held).getD ⟨ctx, vline, pline, true, true, held, []⟩
  let l := match e with
    | some x => { l with w := Pte.w x, d := true, pline := pline }
    | none => l
  s.putLine core (l.write bs w.uid) front

/-- A line arrives from beyond the L1: dirty bytes are merged over it, and no others (R186, R321). -/
def State.l1Fill (s : State) (core ctx vline pline : Nat) (e : Option (BitVec 64)) (bs : List MByte) (front : Bool) : State :=
  let l := ((s.core core).line ctx vline none).getD
    ⟨ctx, vline, pline, (e.map Pte.w).getD false, (e.map Pte.dirty).getD false, none, []⟩
  let bytes := (List.range 128).map (fun i =>
    match l.byte i with
    | some b => if b.dirty then (i, b) else (i, (⟨((bs[i]?).getD ⟨0, false⟩).val, ((bs[i]?).getD ⟨0, false⟩).pois, false, []⟩ : LByte))
    | none => (i, (⟨((bs[i]?).getD ⟨0, false⟩).val, ((bs[i]?).getD ⟨0, false⟩).pois, false, []⟩ : LByte)))
  s.putLine core { l with bytes := bytes } front

/-- The ordinary dirty bytes of a virtual line go home and the L1 copy is dropped or kept (R186, R188). -/
def State.writeBack (s : State) (core ctx vline : Nat) (drop : Bool) : State :=
  match (s.core core).line ctx vline none with
  | none => s
  | some l =>
    let s := s.pushHome core ctx vline l.pline l.dirtyBytes l.owners
    s.modCore core (fun c =>
      if drop then { c with l1 := c.l1.filter (fun x => !(x.ctx = ctx ∧ x.vline = vline ∧ x.held = none)) }
      else { c with l1 := c.l1.flatMap (fun x => if x = l then (if (l.clean none).bytes.isEmpty then [] else [l.clean none]) else [x]) })

/-- The dirty bytes of a line that an owner has, its own or adopted (R331). -/
def Line.ownedBytes (l : Line) (owner : Nat) : List (Nat × MByte) :=
  (l.bytes.filter (fun b => b.2.dirty && b.2.owners.contains owner)).map (fun b => (l.pline + b.1, ⟨b.2.val, b.2.pois⟩))

/-- A release pushes every dirty byte of its owner home, but for some lines; region-held ones stay (R187, R197). Each push is acknowledged. -/
def State.pushOwned (s : State) (core owner : Nat) (but : List Nat) : State :=
  ((s.core core).l1.filter (fun l => l.held.isNone && !but.contains l.pline)).foldl (fun s l =>
    let bs := l.ownedBytes owner
    if bs.isEmpty then s
    else
      let s := s.pushHome core l.ctx l.vline l.pline bs [owner]
      let l' := l.clean (some owner)
      s.modCore core (fun c => { c with l1 := c.l1.flatMap (fun x => if x = l then (if l'.bytes.isEmpty then [] else [l']) else [x]) })) s

/-- A wave that reads another wave's dirty byte adopts it (R331). -/
def State.adopt (s : State) (core ctx : Nat) (vas : List Nat) (owner : Nat) : State :=
  s.modCore core (fun c => { c with l1 := c.l1.map (fun l =>
    if l.ctx = ctx ∧ l.held = none ∧ vas.any (fun va => lineAddr va = l.vline) then
      { l with bytes := l.bytes.map (fun b =>
          if b.2.dirty && !b.2.owners.contains owner && vas.contains (l.vline + b.1)
          then (b.1, { b.2 with owners := b.2.owners ++ [owner] }) else b) }
    else l) })

/-- Dirty bytes of one owner, and pushes of such bytes, pass to others: to the task when a wave retires, to the new waves at a REGRP (R28, R331, R338). -/
def State.reown (s : State) (core : Nat) (old : List Nat) (new : List Nat) : State :=
  let s : State := { s with net := s.net.map (fun r =>
    if r.owners.any old.contains then { r with owners := r.owners.filter (fun o => !old.contains o) ++ new } else r) }
  s.modCore core (fun c => { c with l1 := c.l1.map (fun l =>
    { l with bytes := l.bytes.map (fun b =>
        if b.2.owners.any old.contains then (b.1, { b.2 with owners := (b.2.owners.filter (fun o => !old.contains o)) ++ new }) else b) }) })

/-! ### Acquires (R187, R197, R291) -/

/-- The clean bytes of the lines a test selects are dropped; dirty and held bytes stay; reads under way install nothing there and take no further
reads. -/
def State.invalidateL1 (s : State) (core : Nat) (sel : Nat → Bool) : State :=
  let s := s.modCore core (fun c => { c with l1 := (c.l1.map (fun l =>
    if sel l.ctx ∧ l.held = none then { l with bytes := l.bytes.filter (fun b => b.2.dirty) } else l)).filter (fun l => !l.bytes.isEmpty) })
  { s with net := s.net.map (fun r => if r.core = core && sel r.ctx && !r.by_.isSlice then { r with noInstall := true, noShare := true } else r) }

/-- The remote-data cache of a die is invalidated: its epoch advances (R291). -/
def State.invalidateRdc (s : State) (d : Nat) : State := s.modDie d (fun x => { x with epoch := x.epoch + 1, copies := [] })

/-- The invalidations of an acquire at a scope, on a core, for the contexts selected: none below die scope, the L1 at die scope,
the die's remote-data cache as well at package scope and wider. No later read is merged with one issued before it (R328). -/
def State.acquire (s : State) (core scope : Nat) (sel : Nat → Bool) : State :=
  if scope < 2 then s
  else if scope < 3 then { s with net := s.net.map (fun r => if r.core = core then { r with noShare := true } else r) }
  else
    let s := s.invalidateL1 core sel
    if scope < 4 then s else s.invalidateRdc (dieOf core)

/-- The numbers that a wave keeps are all acknowledged (R290). -/
def State.rdcClear (s : State) (core : Nat) (w : Wave) : Bool :=
  w.rdcKept.all (fun k => !((s.die (dieOf core)).unacked.any (fun u => u.1 = k.1 ∧ u.2 ≤ k.2)))
def Wave.keepRdc (w : Wave) (slice number : Nat) : Wave :=
  { w with rdcKept := assocSet w.rdcKept slice (max number ((assocGet w.rdcKept slice).getD 0)) }

/-- The push of a wave's release at a scope: crew and wider reach the homes; wave and team push nothing (R187, R197). -/
def State.release (s : State) (k : WaveKey) (scope : Nat) : State :=
  if scope < 2 then s
  else
    let s := s.pushOwned k.core (s.wave k).uid (s.heldBackLines k)
    s.modWave k (fun w => { w with rdcKept := [] })
/-- Bytes of an owner on a core that have still to be pushed. -/
def State.ownsDirty (s : State) (core owner : Nat) : Bool := (s.core core).l1.any (fun l => l.held.isNone && !(l.ownedBytes owner).isEmpty)
/-- A wave's writes have reached their homes, and so have those that it has read (R290): what a release of it waits for. -/
def State.allHome (s : State) (k : WaveKey) : Bool :=
  let u := (s.wave k).uid
  s.rdcClear k.core (s.wave k) && !s.ownsDirty k.core u && !s.pushing u s.nextId []

/-! ### Tags (R292) -/

/-- The lowest free tag of a requester, or 1,024 while none is free. -/
def State.freeTag (s : State) (a : NetAgent) : Nat :=
  ((List.range 1024).find? (fun t => !(s.net.any (fun r => r.by_ = a ∧ r.tag = t ∧ !r.dead)))).getD 1024
def State.tagGen (s : State) (core : Nat) (a : NetAgent) (tag : Nat) : BitVec 4 :=
  (((s.die (dieOf core)).tags.find? (fun t => t.1 = a ∧ t.2.1 = tag)).map (fun t => t.2.2)).getD 0
def State.bumpTag (s : State) (core : Nat) (a : NetAgent) (tag : Nat) : State :=
  let g := s.tagGen core a tag + 1
  s.modDie (dieOf core) (fun d => { d with tags := (a, tag, g) :: d.tags.filter (fun t => !(t.1 = a ∧ t.2.1 = tag)) })

/-- The bytes of a line that a request is about. -/
def Request.touches (q : Request) : List Nat := match q.kind with
  | .read _ _ => (List.range 128).map (fun i => q.pline + i)
  | .write bs _ => bs.map Prod.fst
  | .atomic _ _ accs => accs.flatMap (fun a => a.bytes.map ByteAcc.pa)
/-- An older request of a core that another must follow: one for the same bytes; a read passes the release stores that are held back, and so do
what other waves write. -/
def State.precedes (s : State) (r q : Request) : Bool :=
  r.id < q.id && r.core = q.core && r.pline = q.pline && !r.dead && !r.by_.isSlice
    && (!s.heldBack r || (q.kind.writes && (r.key = q.key || q.owners.contains (s.wave r.key).uid)))
    && (q.touches).any (fun a => r.touches.contains a)

/-- A request of a core may leave: its earlier ones for the same bytes have been answered. So the core itself makes the order of its accesses
to one location (R325, R327), since the network gives none (R279). (Log 24: DESIGN CHOICE.) -/
def State.turnOf (s : State) (q : Request) : Bool :=
  q.by_.isSlice || (!s.heldBack q && s.net.all (fun r => !s.precedes r q))

/-- A request sets out from a router; for the fabric window it stands at its node at once (log 73: DESIGN CHOICE). -/
def State.depart (s : State) (q : Request) (router : Nat) : State :=
  if s.isFabric q.pline && q.leg = .toHome then s.place q .there else s.setOut q router

/-- A request enters the network with a tag of its requester, when it is its turn and one is free (R292). -/
def State.inject (s : State) (q : Request) : State :=
  let t := s.freeTag q.by_
  if q.spot = .outside && t < 1024 && s.turnOf q then
    s.depart { q with tag := t, gen := s.tagGen q.core q.by_ t, born := s.clock } q.by_.router
  else s

/-- The requests that an operation waits for, its own and those whose reply it shares, but for those that have timed out. -/
def State.opReqs (s : State) (k : WaveKey) (op : Nat) : List Request :=
  s.net.filter (fun r => ((r.key = k && r.op = op) || r.sharers.contains (k, op)) && !r.dead)

/-- A write that will not be acknowledged any more is awaited by no release, and the copy that it has changed goes (R290, R293, R437). -/
def State.forget (s : State) (q : Request) : State :=
  if q.kind.writes && q.number ≠ 0 then
    s.modDie (dieOf q.core) (fun d => { d.dropCopy q.pline with unacked := d.unacked.filter (fun u => !(u.1 = sliceOf q.pline ∧ u.2 = q.number)) })
  else s

/-- The timeout of a request: 50 µs inside the package, 2 ms in the fabric window (R293). -/
def State.timeoutOf (s : State) (q : Request) : Nat := (if s.isFabric q.pline then 2000 else 50) * Config.clocksPerUs

end Sys2Proof.Machine
end

