-- ==== Sys2Proof/Machine/Teams.lean ====
section
/-! DEFINITION. Teams on cores: placing waves in quarters (spec/08 R158), granting scratchpad (R162), the split of the local array
(R163), admission (R171), launch (spec/07 R155, spec/15 R301), freeing, saving and restoring (R172, R338), and the abort and
replay of regions (spec/11 R240 to R242). -/

namespace Sys2Proof.Machine

/-! ### Placement on a core -/

def State.quarterLoad (slots : List Nat) (q : Nat) : Nat := (slots.filter (fun x => quarterOf x = q)).length

/-- The quarter with the fewest waves, the lowest-numbered winning a tie (R158). -/
def bestQuarter (slots : List Nat) : Nat :=
  (List.range 4).foldl (fun best q => if State.quarterLoad slots q < State.quarterLoad slots best then q else best) 0

/-- Slots for n waves in wave-index order, given the slots in use; none when a wave finds no room (R158). (Log 8: DEDUCED.) -/
def placeSlots : Nat → List Nat → Option (List Nat)
  | 0, _ => some []
  | n + 1, used =>
    let q := bestQuarter used
    match ((List.range 16).map (fun i => q * 16 + i)).find? (fun x => !used.contains x) with
    | none => none
    | some x => (placeSlots n (x :: used)).map (fun t => x :: t)

def State.usedSlots (s : State) (core : Nat) : List Nat := (s.coreWaves core).map (fun p => p.1.slot)

/-- The ranges no grant may take: those covered and the withdrawn units (R177). -/
def State.scratchUsed (s : State) (core : Nat) : List (Nat × Nat) :=
  s.scratchHeld core ++ ((s.core core).withdrawnUnits.map (fun u => (u, 1)))

/-- The lowest place where so many KiB fit among the used ranges (R162). -/
def fitAt (used : List (Nat × Nat)) (cap kib : Nat) : Option Nat :=
  (List.range (cap + 1 - kib)).find? (fun b => used.all (fun u => u.2 = 0 ∨ kib = 0 ∨ b + kib ≤ u.1 ∨ u.1 + u.2 ≤ b))

def State.placeScratch (s : State) (core kib : Nat) : Option Nat :=
  fitAt (s.scratchUsed core) ((s.core core).scratchGrans * 32) kib

/-- The bar of R163 lets a requester through when no change is pending or the pending one serves it and has completed. -/
def State.barOpen (s : State) (core : Nat) (by_ : Requester) : Bool :=
  match (s.core core).split with
  | none => true
  | some x => x.done && x.by_ = some by_

/-- A team of a shape is admitted to a core (R171); crew names its crew for the reservation of R266. -/
def State.admits (s : State) (core waves kib : Nat) (by_ : Requester) (crew : Nat) : Bool :=
  let c := s.core core
  c.inService && !c.emptying && s.barOpen core by_ && (placeSlots waves (s.usedSlots core)).isSome
    && (s.placeScratch core kib).isSome
    && (match (s.die (dieOf core)).reserved with
        | none => true
        | some (cl, who) => cl ≠ clusterOf core || who = crew)

/-! ### The split of the local array (R163) -/

/-- The granules of scratchpad that would let an allocation fit above what is in use. -/
def State.splitTarget (s : State) (core kib : Nat) : Option Nat :=
  (List.range 17).find? (fun g => (s.core core).scratchGrans < g ∧ (fitAt (s.scratchUsed core) (g * 32) kib).isSome)

/-- The change is possible: the L1 keeps 4 granules and the pool 8 (R163). -/
def State.splitPossible (s : State) (core target : Nat) : Bool :=
  let c := s.core core
  target ≤ 16 && target - c.scratchGrans ≤ (c.l1Grans - 4) + (c.regGrans.length - 8)

/-- Start a change for a requester: the register granules it will need begin to drain. -/
def State.startSplit (s : State) (core target : Nat) (by_ : Requester) : State :=
  s.modCore core (fun c =>
    let fromReg := (target - c.scratchGrans) - (c.l1Grans - 4)
    { c with split := some ⟨target, some by_, false⟩, draining := c.regGrans.drop (c.regGrans.length - fromReg) })

/-- A requester's bar ends once it has been granted its allocation, or no longer needs it. -/
def State.endBar (s : State) (core : Nat) (by_ : Requester) : State :=
  s.modCore core (fun c =>
    match c.split with
    | some x => if x.by_ = some by_ then { c with split := if x.done then none else some { x with by_ := none } } else c
    | none => c)

/-! ### Teams on and off a core -/

/-- A wave comes to a slot and its rows are mapped to rows of the pool. -/
def State.mapWave (s : State) (k : WaveKey) (w : Wave) : State :=
  let s := s.setWave k { w with rows := [], lastLane := s.clock, lastUni := s.clock }
  s.modWave k (fun x => { x with rows := (s.pool k.core).place [] w.rows })

/-- A wave comes to a slot with rows to map: from the pool when it has them and no wave waits for rows, else as a swapped wave that enters
the core's queue with its footprint as its need (R167 to R169, R171; log 72: DEDUCED). -/
def State.bringWave (s : State) (k : WaveKey) (w : Wave) : State :=
  if w.rows.isEmpty || ((s.core k.core).rowQueue.isEmpty && w.rows.length ≤ s.rowsFree k.core) then s.mapWave k w
  else
    (s.setWave k { w with rows := [], lastLane := s.clock, lastUni := s.clock, swapped := some w.rows }).modCore k.core (fun c => { c with
      rowQueue := c.rowQueue ++ [(k.slot, 0)]
      swapRows := c.swapRows ++ w.rows.map (fun r => (k.slot, r.1)) })

/-- The resident members of a team's crew. -/
def State.mates (s : State) (t : Nat) : List (Nat × Team) := s.teams.filter (fun p => p.2.crew = (s.team t).crew && p.2.resident)

/-- Every core of a crew holds a copy of the armed bits of all its members (R270): the team's own go to the cores of all of them, and its
core takes those of all. -/
def State.syncArmed (s : State) (t : Nat) : State :=
  let l := s.mates t
  let ids := l.map Prod.fst
  let units := fun (p : Nat × Team) => p.2.armed.map (fun a => (p.1, a))
  let mine := units (t, s.team t)
  let s := ((l.map (fun p => p.2.core)).dedup).foldl (fun s core =>
    s.modCore core (fun c => { c with armedMap := c.armedMap.filter (fun a => a.1 ≠ t) ++ mine })) s
  s.modCore (s.team t).core (fun c => { c with armedMap := c.armedMap.filter (fun a => !ids.contains a.1) ++ l.flatMap units })

/-- Put a team's waves on a core: slots by R158, its scratchpad at the lowest place; every wave starts under FENCE.ACQ.SYS (R338). -/
def State.install (s : State) (t core : Nat) (ws : List Wave) : State :=
  let x := s.team t
  match placeSlots ws.length (s.usedSlots core) with
  | none => s
  | some slots =>
    let base := (s.placeScratch core (x.spSize / 1024)).getD 0
    let s := s.setTeam t { x with core := core, spBase := base, resident := true, placedAt := s.clock, saved := none, replay := none,
                                  liveWaves := ws.length }
    let s := s.endBar core (.team t)
    let s := (slots.zip ws).foldl (fun s p => s.bringWave ⟨core, p.1⟩ p.2) s
    (s.syncArmed t).acquire core 6 (fun c => c = x.ctx)

/-- The armed map of every core of a crew forgets a team's allocation when it is freed (R199, R270). -/
def State.dropArmed (s : State) (t : Nat) : State :=
  { s with cores := s.cores.map (fun p => (p.1, { p.2 with armedMap := p.2.armedMap.filter (fun a => a.1 ≠ t) })) }

/-- A remote store under way names a team as a target. -/
def Op.stores (o : Op) (t : Nat) : Bool := match o.kind with
  | .stsr writes => !o.done && writes.any (fun x => x.team = t)
  | _ => false
/-- Remote stores to a team are under way (R269). -/
def State.storesTo (s : State) (t : Nat) : Bool := s.waves.any (fun p => p.2.ops.any (fun o => o.stores t))
/-- The stores under way to a team lose their effect. -/
def Op.void (o : Op) (t : Nat) : Op := match o.kind with
  | .stsr writes => { o with kind := .stsr (writes.map (fun x => if x.team = t then { x with void := true } else x)) }
  | _ => o

/-- A team leaves its core: its waves, their requests, its place; its allocation is freed. -/
def State.leaveCore (s : State) (t : Nat) : State :=
  let core := (s.team t).core
  let ks := (s.teamWaves t).map Prod.fst
  let s := s.orphan ks.contains
  let s := { s with
    waves := s.waves.filter (fun p => p.2.team ≠ t)
    scouts := s.scouts.filter (fun p => p.2.saved.team ≠ t) }
  let s := s.modCore core (fun c => { c with
    rowQueue := c.rowQueue.filter (fun q => !ks.contains ⟨core, q.1⟩)
    swapRows := c.swapRows.filter (fun q => !ks.contains ⟨core, q.1⟩)
    array := c.array.filter (fun a => !ks.contains a.1) })
  (s.modTeam t (fun x => { x with resident := false })).dropArmed t

/-- A team that retires, or whose region aborts, keeps its allocation while remote stores to it are under way; they lose their visible
effect (R269). -/
def State.keepPlace (s : State) (t : Nat) : State :=
  let x := s.team t
  let s := if s.storesTo t then s.modCore x.core (fun c => { c with kept := c.kept ++ [(t, x.spBase, x.spSize / 1024)] }) else s
  { s with waves := s.waves.map (fun (p : WaveKey × Wave) => (p.1, { p.2 with ops := p.2.ops.map (fun (o : Op) => o.void t) })) }

/-- A team leaves its core and the scratchpad shrinks (R163). -/
def State.vacate (s : State) (t : Nat) : State := (s.leaveCore t).shrinkScratch (s.team t).core

/-- The kept allocations to which no remote store is under way any more are freed (R269). -/
def State.freeKept (s : State) : State :=
  let free := (s.cores.filter (fun c => c.2.kept.any (fun k => !s.storesTo k.1))).map Prod.fst
  State.shrinkAll (free.foldl (fun s core => s.modCore core (fun c => { c with kept := c.kept.filter (fun k => s.storesTo k.1) })) s) free

/-! ### Launch (R155, R301) -/

/-- A thread at launch (R12). -/
def Lane.launch (entry : Word) : Lane := ⟨entry, 0, 0, .live, .none, false, 0, false, .none⟩

/-- A wave at launch (R12, R13, R145): v0 holds the thread index in the team, s0 the team index, s1 and s2 the argument block. (Log 18: DEDUCED.) -/
def Wave.launch (uid ctx team idx : Nat) (entry s0 s1 s2 : Word) (recs : List (BitVec 128)) (tvec : Word) : Wave :=
  { Wave.absent with
    uid := uid
    ctx := ctx
    team := team
    index := BitVec.ofNat 5 idx
    lanes := Vector.replicate 32 (Lane.launch entry)
    rows := [(0, ⟨Vector.ofFn (fun i => BitVec.ofNat 32 (idx * 32 + i.val)), 0, 0, allLanes, 0⟩)]
    sregs := ((((Vector.replicate 62 0).set 0 s0).set 1 s1).set 2 s2)
    brecs := Vector.ofFn (fun i => if i.val < 4 then (recs[i.val]?).getD 0 else 0)
    tvec := tvec }

/-! ### Saving and restoring (R172, R338) -/

/-- The names of a 64-bit live mask (R150, R231). -/
def maskNames (m : DWord) : List Nat := (List.range 62).filter (fun n => m.getLsbD n)

/-- A word of a row has been found with a parity error outside a region: it is poisoned, and its parity agrees with it again (R175). -/
def Row.poison (r : Row) (lane : Nat) : Row :=
  { r with pois := r.pois ||| (1#32 <<< lane), par := r.par &&& ~~~(1#32 <<< lane) }
/-- The words of a row whose parity does not agree, poisoned as they are read (R175). -/
def Row.read (r : Row) : Row := { r with pois := r.pois ||| r.par, par := 0 }

/-- The rows of a wave that stand in the swap granule. -/
def CoreSt.swapNames (c : CoreSt) (slot : Nat) : List Nat := (c.swapRows.filter (fun r => r.1 = slot)).map Prod.snd
/-- The slot of a wave in its context's swap area (R170). -/
def State.swapSlot (s : State) (w : WaveKey) : Nat := (s.context (s.wave w).ctx).swapBase + (w.core * 64 + w.slot) * 8192
/-- A row as it stands in its slot of the swap area; poison and parity come from the firmware's side table (R170). -/
def State.drainedRow (s : State) (base n : Nat) (r : Row) : Row :=
  { r with words := Vector.ofFn (fun (i : Fin 32) => leWord (cellTake s.mem (base + 128 * n + 4 * i.val) 4))
           readers := leWord (cellTake s.mem (base + 0x1F00 + 4 * n) 4) }
/-- The rows of a swapped wave, from the swap granule where they still stand there and from memory otherwise (R169). -/
def State.swappedRows (s : State) (k : WaveKey) : List (Nat × Row) :=
  let held := (s.core k.core).swapNames k.slot
  (((s.wave k).swapped).getD []).map (fun r => (r.1, if held.contains r.1 then r.2 else s.drainedRow (s.swapSlot k) r.1 r.2))

/-- Clean bytes. -/
def cleanBytes (l : List Byte) : List MByte := l.map (fun b => ⟨b, false⟩)
/-- Bytes written at physical addresses from a. -/
def State.putPa (s : State) (a : Nat) (bs : List MByte) : State := s.homeWrite (bs.zipIdx.map (fun b => (a + b.2, b.1)))

/-- The rows of a wave go from the swap granule to its slot of the swap area, poison and parity to the firmware's side table (R169, R170).
(Log 38: DEDUCED.) -/
def State.drainSwap (s : State) (w : WaveKey) : State :=
  let names := (s.core w.core).swapNames w.slot
  let s : State := match (s.wave w).swapped with
  | some (rows : List (Nat × Row)) =>
    if names.isEmpty then s
    else
      let base := s.swapSlot w
      let out := rows.filter (fun r => names.contains r.1)
      let s := out.foldl (fun (s : State) r =>
        (s.putPa (base + 128 * r.1) (cleanBytes (r.2.words.toList.flatMap wordLe))).putPa (base + 0x1F00 + 4 * r.1)
          (cleanBytes (wordLe r.2.readers))) s
      let mapped := rows.foldl (fun m r => m + 2 ^ r.1) 0
      s.putPa (base + 0x1FF8) (cleanBytes (leBytes 8 mapped))
  | none => s
  s.modCore w.core (fun c => { c with swapRows := c.swapRows.filter (fun r => r.1 ≠ w.slot) })

/-- A swapped wave's row takes a late result, where it stands (R169): a word in the swap area as well as in the wave's record of it. -/
def State.putSwapped (s : State) (k : WaveKey) (n : Nat) (f : Row → Row) : State :=
  match assocGet (s.swappedRows k) n with
  | none => s
  | some r =>
    let inGranule := ((s.core k.core).swapNames k.slot).contains n
    let s := s.modWave k (fun w => { w with swapped := w.swapped.map (fun rows => assocSet rows n (f r)) })
    if inGranule then s
    else
      let base := s.swapSlot k
      (s.putPa (base + 128 * n) (cleanBytes ((f r).words.toList.flatMap wordLe))).putPa (base + 0x1F00 + 4 * n) (cleanBytes (wordLe (f r).readers))

/-- A result that comes late, of a load or of a tile operation, goes into the row of its name; a name that has been freed meanwhile takes none
(R166, R169; log 37: DEDUCED). -/
def State.lateV (s : State) (k : WaveKey) (n : Nat) (m : LaneMask) (vals : Fin 32 → Word) (pois : LaneMask) : State :=
  if m = 0 then s
  else if ((s.wave k).row n).isSome then s.modWave k (fun w => w.writeV (s.pool k.core) n m vals pois)
  else s.putSwapped k n (fun r => r.put m vals pois)

/-- A save holds a name of a wave: at a safe point only those its mask names (R150, R172). -/
def Wave.saves (w : Wave) (n : Nat) : Bool := match w.stop with
  | .atSafepoint m => m.getLsbD n
  | _ => true

/-- The rows that a save holds for a wave: those it maps and, for a swapped wave, those of the swap area; at a safe point only the ones its
mask names (R150, R172). -/
def State.rowsToSave (s : State) (k : WaveKey) : List (Nat × Row) :=
  let w := s.wave k
  ((w.rows ++ s.swappedRows k).filter (fun r => w.saves r.1)).map (fun r => (r.1, r.2.read))

/-- A wave as a save holds it (R150, R172): the given rows, nothing in flight. -/
def Wave.forSave (w : Wave) (rows : List (Nat × Row)) : Wave :=
  { w with rows := rows, swapped := none, growStall := false, granted := 0, stop := .running, swapCandidate := false,
           rdcKept := [] }

/-! ### Regions: status, abort and replay (R240 to R245) -/

/-- RGNSTAT from its fields (R245). -/
def rgnstatWord (reason last errs open_ : Nat) : Word := BitVec.ofNat 32 (reason % 65536 * 65536 + last * 64 + errs * 16 + open_)
def rgnErrs (w : Word) : Nat := (w.extractLsb' 4 2).toNat
def rgnReason (w : Word) : Nat := (w.extractLsb' 16 16).toNat

/-- Held lines and journal entries are discarded (R240). -/
def State.dropHeld (s : State) (t : Nat) : State :=
  let s := s.modCore (s.team t).core (fun c => { c with l1 := c.l1.filter (fun l => l.held ≠ some t) })
  s.modTeam t (fun x => { x with region := x.region.map (fun r => { r with atomics := [], journal := [], overfull := false, committing := false, struck := [] }) })

/-- The injection of a wave that a checkpoint restores (R241): one that has fired stays cleared, one that has not carries over as it now
stands, on the wave that has it, or armed since on the wave of its index. (Log 29: DEDUCED.) -/
def injectionNow (fired : List Nat) (ck live : List Wave) (w : Wave) : Word × Nat × Nat :=
  match live.find? (fun p => w.errinj.getLsbD 31 && p.errinj.getLsbD 31 && p.injId = w.injId) with
  | some p => (p.errinj, p.errCount, p.injId)
  | none =>
    if w.errinj.getLsbD 31 && fired.contains w.injId then (w.errinj &&& 0x7FFFFFFF, w.errCount, w.injId)
    else match live.find? (fun p => p.index = w.index && ck.all (fun c => c.injId ≠ p.injId)) with
      | some p => (p.errinj, p.errCount, p.injId)
      | none => (w.errinj, w.errCount, w.injId)

/-- The waves a checkpoint restores (R241): injections as injectionNow says; the vector base of a wave that still has its index is kept. -/
def State.ckWaves (s : State) (t : Nat) : List Wave :=
  match (s.team t).region with
  | none => []
  | some r =>
    let live := (s.teamWaves t).map Prod.snd
    r.ck.waves.map (fun w =>
      let e := injectionNow r.fired r.ck.waves live w
      let w := { w with errinj := e.1, errCount := e.2.1, injId := e.2.2 }
      match live.find? (fun p => p.index = w.index) with
      | none => w
      | some p => { w with tvec := p.tvec })

/-- The scratchpad a checkpoint restores: the windows with their marks, zero elsewhere (R241). -/
def Team.ckScratch (x : Team) : Team :=
  match x.region with
  | none => x
  | some r => { x with sp := r.ck.bytes, spPois := r.ck.pois, spPar := r.ck.par, armed := r.ck.armed, arrived := [] }

/-- Steps 1 and 2 of R240: held lines discarded, the waves stopped and their work dropped, place and slots freed. The checkpoint's
waves stand ready to be placed again; ordinary dirty bytes of the team go home, so that the replay finds them (R338). The scratchpad's
share is left as it is. -/
def State.tearDown (s : State) (t : Nat) : State :=
  let ws := s.ckWaves t
  let s := s.dropHeld t
  let s := (s.teamWaves t).foldl (fun s p => s.release p.1 6) s
  let s := (s.keepPlace t).leaveCore t
  s.modTeam t (fun x => { x.ckScratch with saved := some ws, savedAt := s.clock, retired := [] })

/-- A detected error in an open region (R240 to R242, R277): the attempt's cluster joins the list of failed ones, status and attempt
number change, the recovery sequencer takes over; the other members of a crew are pre-empted. -/
def State.abortDetected (s : State) (t : Nat) : State :=
  let x := s.team t
  let place := (dieOf x.core, clusterOf x.core)
  let errs := rgnErrs x.rgnstat + 1
  let s := (s.tearDown t).shrinkScratch x.core
  let s := s.modTeam t (fun y => { y with
    region := y.region.map (fun r => { r with ck := { r.ck with failed := r.ck.failed ++ [place] } })
    rgnstat := rgnstatWord (rgnReason x.rgnstat) 1 (min errs 3) (if errs < 3 then 1 else 0)
    rgnatt := if errs < 3 then y.rgnatt + 1 else y.rgnatt
    replay := some (place.1, place.2, s.clock) })
  let s := if errs < 3 then s.setTask x.task { s.task x.task with replayed := true } else s
  { s with teams := s.teams.map (fun p =>
      if p.2.crew = x.crew ∧ p.1 ≠ t ∧ p.2.resident ∧ p.2.preempt = none then (p.1, { p.2 with preempt := some (.crewReplay, s.clock) }) else p) }

/-- An RGNA (R244, R277): the same, but the team is restored on the same core if that admits it at once,
and ERRS stands; the wave that issued it leaves handler level. (Log 27: DEDUCED.) -/
def State.abortRgna (s : State) (t : Nat) (reason : Nat) (by_ : BitVec 5) : State :=
  let x := s.team t
  let s := s.tearDown t
  let s := s.modTeam t (fun y => { y with rgnstat := rgnstatWord reason 2 (rgnErrs x.rgnstat) 1, rgnatt := y.rgnatt + 1 })
  let ws := (((s.team t).saved).getD []).map (fun w => if w.index = by_ then { w with handler := false } else w)
  let s := s.modTeam t (fun y => { y with saved := some ws })
  if s.admits x.core ws.length (x.spSize / 1024) (.team t) x.crew then
    (s.install t x.core ws).shrinkScratch x.core
  else (s.modTeam t (fun y => { y with replay := some (dieOf x.core, clusterOf x.core, s.clock) })).shrinkScratch x.core

/-! ### Detected errors (R174, R175, R177) -/

/-- The physical lane behind a logical one (R157): the one the quarter has lost is served by its spare, 32. -/
def CoreSt.physLane (c : CoreSt) (q lane : Nat) : Nat := if assocGet c.remap q = some lane then 32 else lane

/-- One hour in arithmetic clocks (R177). -/
def hourClocks : Nat := 3600000000 * Config.clocksPerUs
/-- A row or word with a second parity error within an hour (R177); the errors of a place are kept with their clocks. -/
def twiceInHour (l : List (Nat × Nat)) (place clock : Nat) : Bool := l.any (fun e => e.1 = place && clock ≤ e.2 + hourClocks)

/-- A parity error in a mapped pool row: the second within an hour withdraws the row from allocation (R177). (Log 37: DEDUCED.) -/
def State.rowError (s : State) (core place : Nat) : State :=
  let c := s.core core
  if twiceInHour c.rowErrors place s.clock then
    (s.setCore core { c with rowErrors := c.rowErrors.filter (fun e => e.1 ≠ place), withdrawnRows := insertSorted c.withdrawnRows place }).logRec
      0x0004 true (diePlace (dieOf core)) false 0 [1, BitVec.ofNat 32 (core % 128 * 65536 + place)]
  else s.setCore core { c with rowErrors := c.rowErrors ++ [(place, s.clock)] }

/-- A parity error in a scratchpad word of a team: the second within an hour withdraws its 1 KiB unit from grants (R177). (Log 37: DEDUCED.) -/
def State.unitError (s : State) (k : WaveKey) (team addr : Nat) : State :=
  let place := ((s.team team).spBase * 1024 + addr) / 4
  let c := s.core k.core
  if twiceInHour c.unitErrors place s.clock then
    (s.setCore k.core { c with unitErrors := c.unitErrors.filter (fun e => e.1 ≠ place)
                               withdrawnUnits := insertSorted c.withdrawnUnits (place / 256) }).logRec
      0x0004 true (diePlace (dieOf k.core)) false 0 [2, BitVec.ofNat 32 (k.core % 128 * 65536 + place / 256)]
  else s.setCore k.core { c with unitErrors := c.unitErrors ++ [(place, s.clock)] }

/-- An injection that has fired in an open region stays cleared through its replays (R241). -/
def State.noteFired (s : State) (k : WaveKey) : State :=
  let w := s.wave k
  if w.errinj.getLsbD 31 then s
  else s.modTeam w.team (fun x => { x with region := x.region.map (fun r => { r with fired := w.injId :: r.fired }) })

/-- A detected error of a unit (R175): logged; inside an open region the region is aborted, otherwise the given poisoning is done. (Log 16: DEDUCED.) (Log 29: DEDUCED.) -/
def State.detected (s : State) (k : WaveKey) (unit lane : Nat) (poison : State → State) : State :=
  let w := s.wave k
  let open_ := s.regionOpen w.team
  let att : Word := if open_ then (s.team w.team).rgnatt else 0
  let s := s.logRec 0x0003 false (placeWord w.ctx k.core) false 0 [BitVec.ofNat 32 unit, BitVec.ofNat 32 lane, 0, 0, att]
  let s := s.modCore k.core (fun c => { c with laneErrors := c.laneErrors ++ [(quarterOf k.slot, c.physLane (quarterOf k.slot) lane, s.clock)] })
  if open_ then (s.noteFired k).abortDetected w.team else poison s

/-- Parity errors found in words of mapped rows of a wave, by name and lane (R174, R175): each is logged and its row's errors counted;
outside a region the words are poisoned; inside one the first aborts the region, and the answer is true. -/
def State.parityFound (s : State) (k : WaveKey) : List (Nat × Nat) → State × Bool
  | [] => (s, false)
  | (n, lane) :: rest =>
    let open_ := s.regionOpen (s.wave k).team
    let s := match (s.wave k).row n with
      | some r => s.rowError k.core r.place
      | none => s
    let s := s.detected k 3 lane (fun s => s.modWave k (fun w =>
      match w.row n with
      | none => w
      | some r => { w with rows := assocSet w.rows n (r.poison lane) }))
    if open_ then (s, true) else s.parityFound k rest

/-- The words of a row whose parity does not agree among some lanes, by name and lane. -/
def badWords (n : Nat) (r : Row) (m : LaneMask) : List (Nat × Nat) := (maskLanes (r.par &&& m)).map (fun i => (n, i.val))

/-- Every word of the rows of some names of a wave is read, as a swap, a save, a checkpoint or a move does (R174). -/
def State.readNames (s : State) (k : WaveKey) (sel : Nat → Bool) : State × Bool :=
  s.parityFound k ((s.wave k).rows.flatMap (fun r => if sel r.1 then badWords r.1 r.2 allLanes else []))
def State.readAllRows (s : State) (k : WaveKey) : State × Bool := s.readNames k (fun _ => true)

/-- A team's waves have nothing left on the core that a FENCE.REL.SYS would push (R338). -/
def State.teamHome (s : State) (t : Nat) : Bool := (s.teamWaves t).all (fun p => s.allHome p.1)
/-- A team's state leaves its core (R172), its writes being home. -/
def State.saveTeam (s : State) (t : Nat) : State :=
  let s := (s.teamWaves t).foldl (fun s p => (s.readNames p.1 p.2.saves).1) s
  let ws := (s.teamWaves t).map (fun p => p.2.forSave (s.rowsToSave p.1))
  let s := s.vacate t
  s.modTeam t (fun x => { x with saved := some ws, savedAt := s.clock, preempt := none })

/-! ### Injected errors (R147) -/

/-- Count n operations of a unit in the lane that ERRINJ names; which of them fires, if one does, counted from 0. (Log 29: DEDUCED.) -/
def Wave.inject (w : Wave) (unit n : Nat) : Wave × Option Nat :=
  let nth := (w.errinj.extractLsb' 12 11).toNat
  if w.errinj.getLsbD 31 && (w.errinj.extractLsb' 28 3).toNat = unit then
    if w.errCount < nth ∧ nth ≤ w.errCount + n then
      ({ w with errinj := w.errinj &&& 0x7FFFFFFF, errCount := nth }, some (nth - w.errCount - 1))
    else ({ w with errCount := w.errCount + n }, none)
  else (w, none)

/-- The lane that ERRINJ names. -/
def Wave.injLane (w : Wave) : Fin 32 := Fin.ofNat 32 (w.errinj.extractLsb' 23 5).toNat

end Sys2Proof.Machine
end

