-- ==== Sys2Proof/Machine/Operands.lean ====
section
/-! DEFINITION. The operand forms: vector, pair, quad, predicate and uniform sources (spec/03 R64 to R71), guards, the checks common
to every lane and uniform instruction (R80, R88, R176, spec/07 R135), last-read marks, and the write of each kind of destination. -/

namespace Sys2Proof.Machine

/-! ### Vector fields (R65, R66) -/

/-- The names a field reads as a vector register: none for LANE and the literal. -/
def vname (f : BitVec 6) : List Nat := if f.toNat < 62 then [f.toNat] else []
/-- The names of a pair or a quad. -/
def vnames (f : BitVec 6) (n : Nat) : List Nat := if f.toNat < 62 then (List.range n).map (fun i => f.toNat + i) else []

/-- A single source in a lane: its register, LANE, or the literal (R65, R69). -/
def Wave.vsrc (w : Wave) (f : BitVec 6) (lit : Word) (i : Fin 32) : Word :=
  if f.toNat < 62 then w.vword f.toNat i else if f = 62#6 then BitVec.ofNat 32 i.val else lit
/-- The lanes in which a single source is poisoned. -/
def Wave.vsrcPois (w : Wave) (f : BitVec 6) : LaneMask := if f.toNat < 62 then w.vpois f.toNat else 0
/-- A pair source in a lane (R34). -/
def Wave.vpair (w : Wave) (f : BitVec 6) (i : Fin 32) : DWord := pairOf (w.vword f.toNat i) (w.vword (f.toNat + 1) i)
def Wave.vpairPois (w : Wave) (f : BitVec 6) : LaneMask := w.vpois f.toNat ||| w.vpois (f.toNat + 1)

/-- Write a single destination; 63 discards (R65). (Log 14: DEDUCED.) -/
def Wave.putV (w : Wave) (pool : Pool) (d : BitVec 6) (m : LaneMask) (vals : Fin 32 → Word) (pois : LaneMask) : Wave :=
  if d.toNat < 62 then w.writeV pool d.toNat m vals pois else w
/-- Write both halves of a pair destination together; 63 discards (R66). -/
def Wave.putPair (w : Wave) (pool : Pool) (d : BitVec 6) (m : LaneMask) (vals : Fin 32 → DWord) (pois : LaneMask) : Wave :=
  if d.toNat < 62 then
    (w.writeV pool d.toNat m (fun i => loWord (vals i)) pois).writeV pool (d.toNat + 1) m (fun i => hiWord (vals i)) pois
  else w

/-! ### Guards and marks (R70, R71) -/

/-- The lanes of a path whose guard is 1. -/
def Wave.guardLanes (w : Wave) (m : LaneMask) (g : BitVec 3) (gn : Bool) : LaneMask := m &&& w.laneMask (fun l => l.p g != gn)
/-- The lanes of a path whose guard predicate is poisoned. -/
def Wave.guardPois (w : Wave) (m : LaneMask) (g : BitVec 3) : LaneMask := m &&& w.laneMask (fun l => l.pp g)
/-- The names that KA and KB mark (R71). -/
def markNames (ka kb : Bool) (a b : List Nat) : List Nat := (if ka then a else []) ++ (if kb then b else [])
/-- Every lane of the path clears its claims on the marked names. -/
def Wave.clearMarks (w : Wave) (path : LaneMask) (names : List Nat) : Wave := names.dedup.foldl (fun w n => w.clearClaim path n) w

/-! ### The checks common to lane instructions -/

/-- What the common checks come to: the machine as it then stands, or the lanes that execute. -/
inductive Begin where
  | stop (s : State)
  | go (s : State) (m : LaneMask)

/-- The words of mapped names that are read in some lanes, each name once, are checked (R174): an injected error falls on the counted read
(R147 UNIT 3), and a stored parity bit that disagrees is found. Whether the read ended the attempt of an open region. -/
def State.readParity (s : State) (names : List Nat) (m : LaneMask) : State × Bool :=
  let w := s.cur
  let mapped := (firsts names).filter (fun n => (w.row n).isSome)
  let hit := if m.getLsbD w.injLane.val then w.inject 3 mapped.length else (w, none)
  let injected := (hit.2.map (fun j => ((mapped[j]?).getD 0, w.injLane.val))).toList
  let stored := mapped.flatMap (fun n => ((w.row n).map (fun r => badWords n r m)).getD [])
  (s.setWave s.sel.key hit.1).parityFound s.sel.key (firsts (injected ++ stored))

/-- The rename map that the issuing path reads: that before the clock's issues, for the second path of a dual issue too (R22, R88). -/
def State.readRows (s : State) : List (Nat × Row) :=
  match s.sel.slot, s.prior with
  | .pair, some w => w.rows
  | _, _ => s.cur.rows

/-- A poisoned guard raises POISON before any effect, and before any other poisoned source is looked at (R176); an unmapped name that an
executing lane reads raises UNINIT_READ under FPC.UNINIT (R35); a write that needs a row waits for one (R167), before what the meaning
itself checks. TADDR of POISON and of UNINIT_READ is 0. (Log 71: DESIGN CHOICE.) -/
def State.laneBegin (s : State) (reads : List Nat) (g : BitVec 3) (gn : Bool) (writes marks : List Nat) : Begin :=
  let w := s.cur
  let gp := w.guardPois s.sel.mask g
  let e := w.guardLanes s.sel.mask g gn
  if gp ≠ 0 then .stop (s.trapHere causePoison gp 0)
  else if w.fpc.getLsbD 4 && e ≠ 0 && reads.any (fun n => (assocGet s.readRows n).isNone) then .stop (s.trapHere causeUninitRead e 0)
  else
    let after := w.clearMarks s.sel.mask marks
    let need := if e = 0 then 0 else after.rowNeed writes
    if s.mustStall need (w.rows.length - after.rows.length) then .stop (s.growStall need)
    else
      let (s, aborted) := s.readParity reads e
      if aborted then .stop s else .go s e

/-- The end of a lane instruction: the marked claims are cleared after the reads, the result is written into rows of the pool as it then
stands, the path moves on. -/
def State.laneEnd (s : State) (marks : List Nat) (f : Pool → Wave → Wave) : State :=
  let pool := (s.modCur (fun w => w.clearMarks s.sel.mask marks)).pool s.sel.key.core
  (s.modCur (fun w => f pool (w.clearMarks s.sel.mask marks))).advance

def State.laneDone (s : State) (marks : List Nat) (f : Pool → Wave → Wave) : Res := .next (s.laneEnd marks f)

/-! ### Lane instructions by the kind of their result -/

/-- A single register result computed per lane; pois gives the lanes whose result is poisoned. -/
def State.laneOp (s : State) (reads marks : List Nat) (g : BitVec 3) (gn : Bool) (d : BitVec 6)
    (val : Wave → Fin 32 → Word) (pois : Wave → LaneMask) : Res :=
  match s.laneBegin reads g gn (vname d) marks with
  | .stop s => .next s
  | .go s e => s.laneDone marks (fun pool w => w.putV pool d e (val s.cur) (pois s.cur))

/-- A pair result. -/
def State.lanePair (s : State) (reads marks : List Nat) (g : BitVec 3) (gn : Bool) (d : BitVec 6)
    (val : Wave → Fin 32 → DWord) (pois : Wave → LaneMask) : Res :=
  match s.laneBegin reads g gn (vnames d 2) marks with
  | .stop s => .next s
  | .go s e => s.laneDone marks (fun pool w => w.putPair pool d e (val s.cur) (pois s.cur))

/-- A predicate result (R102, R103). -/
def State.lanePred (s : State) (reads marks : List Nat) (g : BitVec 3) (gn : Bool) (pd : BitVec 3)
    (val : Wave → Fin 32 → Bool) (pois : Wave → LaneMask) : Res :=
  match s.laneBegin reads g gn [] marks with
  | .stop s => .next s
  | .go s e => s.laneDone marks (fun _ w => w.mapLanes e (fun i l => l.setP pd (val s.cur i) ((pois s.cur).getLsbD i.val)))

/-- V3 with two single sources (R94). -/
def State.v3Op (s : State) (f : V3) (op : Word → Word → Word) : Res :=
  s.laneOp (vname f.a ++ vname f.b) (markNames f.ka f.kb (vname f.a) (vname f.b)) f.g f.gn f.d
    (fun w i => op (w.vsrc f.a f.lit i) (w.vsrc f.b f.lit i)) (fun w => w.vsrcPois f.a ||| w.vsrcPois f.b)

/-- V3 with one single source (R91, R95). -/
def State.v3One (s : State) (f : V3) (op : Word → Word) : Res :=
  s.laneOp (vname f.a) (markNames f.ka false (vname f.a) []) f.g f.gn f.d (fun w i => op (w.vsrc f.a f.lit i)) (fun w => w.vsrcPois f.a)

/-- V4: three single sources, no guard, no marks (R97, R99, R100). -/
def State.v4Op (s : State) (f : V4) (op : Word → Word → Word → Word) : Res :=
  s.laneOp (vname f.a ++ vname f.b ++ vname f.c) [] 7#3 false f.d
    (fun w i => op (w.vsrc f.a f.lit i) (w.vsrc f.b f.lit i) (w.vsrc f.c f.lit i))
    (fun w => w.vsrcPois f.a ||| w.vsrcPois f.b ||| w.vsrcPois f.c)

/-- VI with a register or LANE and an immediate (R96). -/
def State.viOp (s : State) (f : VI) (op : Word → Word) : Res :=
  s.laneOp (vname f.a) [] 7#3 false f.d (fun w i => op (w.vsrc f.a 0 i)) (fun w => w.vsrcPois f.a)

/-! ### Uniform instructions (R70, R135) -/

/-- A uniform instruction under its guard: a poisoned guard raises POISON, a false one lets the path go on without effect. -/
def State.uniGuard (s : State) (qg : BitVec 3) (qn : Bool) (effect : Res) : Res :=
  if s.cur.qp qg then .next (s.trapHere causePoison s.sel.mask 0)
  else if s.cur.q qg = qn then .next s.advance
  else effect

/-- A uniform instruction writes the wave and the path goes on. -/
def State.uniDone (s : State) (f : Wave → Wave) : Res := .next (s.modCur f).advance

/-- U3 with two sources (R137). -/
def State.u3Op (s : State) (f : U3) (op : Word → Word → Word) : Res :=
  s.uniGuard f.qg f.qn (s.uniDone (fun w => w.setS f.d (op (w.sreg f.a f.lit) (w.sreg f.b f.lit)) (w.sregPois f.a || w.sregPois f.b)))

/-- U3 with one source. -/
def State.u3One (s : State) (f : U3) (op : Word → Word) : Res :=
  s.uniGuard f.qg f.qn (s.uniDone (fun w => w.setS f.d (op (w.sreg f.a f.lit)) (w.sregPois f.a)))

/-- Write a uniform pair. (Log 14: DEDUCED.) -/
def Wave.setSPair (w : Wave) (d : BitVec 6) (x : DWord) (pois : Bool) : Wave := (w.setS d (loWord x) pois).setS (d + 1) (hiWord x) pois

/-- U3 on pairs (R66). -/
def State.u3Pair (s : State) (f : U3) (op : DWord → DWord → DWord) : Res :=
  s.uniGuard f.qg f.qn (s.uniDone (fun w => w.setSPair f.d (op (w.spair f.a) (w.spair f.b)) (w.spairPois f.a || w.spairPois f.b)))

/-- UI with a register and an immediate. -/
def State.uiOp (s : State) (f : UI) (op : Word → Word) : Res :=
  s.uniDone (fun w => w.setS f.d (op (w.sreg f.a 0)) (w.sregPois f.a))

/-- sext(IMM12) and zext(IMM12) (R64). -/
def sextImm (i : BitVec 12) : Word := i.signExtend 32
def zextImm (i : BitVec 12) : Word := i.setWidth 32

end Sys2Proof.Machine
end

