-- ==== Sys2Proof/Machine/Flags.lean ====
section
/-! DEFINITION. The integer functions of spec/04_lane_integer.md and the flags of FPC (spec/02_numbers.md R35, R42): each is one
function of words, shared by the lane and the uniform instructions. -/

namespace Sys2Proof.Machine

/-! ### FPC (R35, R42) -/

/-- The five sticky flags: NV, DZ, OF, UF, NX in bits 0 to 4, FPC bits 8 to 12. -/
abbrev Flags := BitVec 5
def flagNV : Flags := 1
def flagDZ : Flags := 2
def flagOF : Flags := 4
def flagUF : Flags := 8
def flagNX : Flags := 16

/-- Flags are ORed into FPC and cleared only by SWRITE (R35, R42). -/
def Wave.raise (w : Wave) (f : Flags) : Wave := { w with fpc := w.fpc ||| (f.setWidth 32 <<< 8) }
/-- FTZ and RM (R35). -/
def Wave.ftz (w : Wave) : Bool := w.fpc.getLsbD 3
def Wave.rm (w : Wave) : Nat := (w.fpc.extractLsb' 0 3).toNat
/-- The OR of the flags that the lanes of a mask raise (R42). -/
def laneFlags (m : LaneMask) (f : Fin 32 → Flags) : Flags := (maskLanes m).foldl (fun acc i => acc ||| f i) 0

/-! ### Integer functions (R94 to R102) -/

namespace Int32

def mulhs (a b : Word) : Word := BitVec.ofInt 32 (a.toInt * b.toInt / 2 ^ 32)
def mulhu (a b : Word) : Word := BitVec.ofNat 32 (a.toNat * b.toNat / 2 ^ 32)
def smin (a b : Word) : Word := if a.toInt ≤ b.toInt then a else b
def smax (a b : Word) : Word := if a.toInt ≤ b.toInt then b else a
def umin (a b : Word) : Word := if a.toNat ≤ b.toNat then a else b
def umax (a b : Word) : Word := if a.toNat ≤ b.toNat then b else a
def andn (a b : Word) : Word := a &&& ~~~b
/-- The amount is b[5:0] (R94). -/
def shl (a b : Word) : Word := a <<< (b.toNat % 64)
def shr (a b : Word) : Word := a >>> (b.toNat % 64)
def sar (a b : Word) : Word := a.sshiftRight (b.toNat % 64)
def abs (a : Word) : Word := if a.msb then 0 - a else a
def mulWideS (a b : Word) : DWord := BitVec.ofInt 64 (a.toInt * b.toInt)
def mulWideU (a b : Word) : DWord := BitVec.ofNat 64 (a.toNat * b.toNat)
/-- SHF (R99): the pair {c, a} right by b[5:0]. -/
def funnel (a b c : Word) : Word := loWord (pairOf a c >>> (b.toNat % 64))

/-- pos and the width of a field that starts there, cut at bit 31 (R100). -/
def fieldPos (c : Word) : Nat := c.toNat % 32
def fieldLen (c : Word) : Nat := min (c.toNat / 256 % 64) 32
def fieldWidth (pos len : Nat) : Nat := min (pos + len) 32 - pos
/-- The field of a value, zero-extended; 0 if empty. -/
def fieldU (a : Word) (pos len : Nat) : Word := BitVec.ofNat 32 (a.toNat / 2 ^ pos % 2 ^ (fieldWidth pos len))
/-- The field sign-extended from its top bit; 0 if empty. -/
def fieldS (a : Word) (pos len : Nat) : Word :=
  let n := fieldWidth pos len
  if n = 0 then 0
  else
    let v := a.toNat / 2 ^ pos % 2 ^ n
    BitVec.ofInt 32 (if 2 ^ (n - 1) ≤ v then (v : Int) - 2 ^ n else v)
/-- A value with its field replaced by the low bits of another. -/
def fieldInsert (a b : Word) (pos len : Nat) : Word :=
  let n := fieldWidth pos len
  let m : Word := BitVec.ofNat 32 ((2 ^ n - 1) * 2 ^ pos)
  (a &&& ~~~m) ||| (BitVec.ofNat 32 (b.toNat * 2 ^ pos) &&& m)
def bfeu (a c : Word) : Word := fieldU a (fieldPos c) (fieldLen c)
def bfes (a c : Word) : Word := fieldS a (fieldPos c) (fieldLen c)
def bfi (a b c : Word) : Word := fieldInsert a b (fieldPos c) (fieldLen c)

def popc (a : Word) : Word := BitVec.ofNat 32 (maskCount a)
def ctzFrom (a : Word) : List Nat → Nat
  | [] => 32
  | i :: t => if a.getLsbD i then i else ctzFrom a t
def ctz (a : Word) : Word := BitVec.ofNat 32 (ctzFrom a (List.range 32))
def brev (a : Word) : Word := BitVec.ofFnLE (fun i : Fin 32 => a.getLsbD (31 - i.val))
def clz (a : Word) : Word := ctz (brev a)
def bswap (a : Word) : Word := a.extractLsb' 0 8 ++ a.extractLsb' 8 8 ++ a.extractLsb' 16 8 ++ a.extractLsb' 24 8
/-- BIT and UBIT (R101). -/
def bitOp (code : Nat) (a : Word) : Word :=
  match code with
  | 0 => popc a
  | 1 => clz a
  | 2 => ctz a
  | 3 => brev a
  | _ => bswap a

/-- PERM (R93): each byte of the result from one of the eight bytes of {b, a}, or its sign. -/
def permByte (x : DWord) (sel : BitVec 4) : Byte :=
  let b := x.extractLsb' (8 * (sel.toNat % 8)) 8
  if sel.getLsbD 3 then (if b.msb then 0xFF#8 else 0#8) else b
def perm (a b c : Word) : Word :=
  let x := pairOf a b
  permByte x (c.extractLsb' 12 4) ++ permByte x (c.extractLsb' 8 4) ++ permByte x (c.extractLsb' 4 4) ++ permByte x (c.extractLsb' 0 4)

/-- The integer comparison codes (R75, R102) on any width. -/
def compare {n : Nat} (cc : BitVec 3) (a b : BitVec n) : Bool :=
  match cc.toNat with
  | 0 => a == b
  | 1 => a != b
  | 2 => a.toInt < b.toInt
  | 3 => a.toInt ≤ b.toInt
  | 4 => b.toInt < a.toInt
  | 5 => b.toInt ≤ a.toInt
  | 6 => a.toNat < b.toNat
  | _ => b.toNat ≤ a.toNat

/-- The truth table of PLOG and QLOG (R103). -/
def truth (tt : BitVec 8) (a b c : Bool) : Bool := tt.getLsbD (4 * a.toNat + 2 * b.toNat + c.toNat)

end Int32

end Sys2Proof.Machine
end

