-- ==== Sys2Proof/Machine/Float.lean ====
section
/-! DEFINITION. Floating-point numbers (spec/02_numbers.md R32 to R43): the four standard formats, rounding of exact results, the
arithmetic of spec/05_lane_float.md R107 to R109, comparison, minimum and maximum, the FP32 functions of R113 and R114, and narrow
formats (R45 to R49). Patterns are natural numbers; an exact value is a sign, an integer and a power of two. -/

namespace Sys2Proof.Machine.Fp

/-! ### Formats and values -/

/-- A standard format (R32): exponent bits, fraction bits, bias. -/
structure Fmt where
  eb : Nat
  mb : Nat
  bias : Nat
  deriving DecidableEq, Repr

def f64 : Fmt := ⟨11, 52, 1023⟩
def f32 : Fmt := ⟨8, 23, 127⟩
def f16 : Fmt := ⟨5, 10, 15⟩
def bf16 : Fmt := ⟨8, 7, 127⟩

/-- The sign bit's weight. -/
def Fmt.signBit (f : Fmt) : Nat := 2 ^ (f.eb + f.mb)
def Fmt.infCode (f : Fmt) : Nat := (2 ^ f.eb - 1) * 2 ^ f.mb
/-- The canonical NaN (R32, R40). -/
def Fmt.nanCode (f : Fmt) : Nat := f.infCode + 2 ^ (f.mb - 1)
def Fmt.maxCode (f : Fmt) : Nat := f.infCode - 1
/-- The exponent of the subnormal spacing. -/
def Fmt.lsb (f : Fmt) : Int := 1 - f.bias - f.mb
def Fmt.signed (f : Fmt) (neg : Bool) (c : Nat) : Nat := if neg then f.signBit + c else c
def Fmt.one (f : Fmt) (neg : Bool) : Nat := f.signed neg (f.bias * 2 ^ f.mb)

/-- A value: a NaN, an infinity, or a sign, an integer m and an exponent e standing for m × 2^e. rest: the exact value lies above m
and below m + 1 at that exponent, with m long enough for any rounding. -/
inductive Val where
  | nan (signalling : Bool)
  | inf (neg : Bool)
  | num (neg : Bool) (m : Nat) (e : Int) (rest : Bool)
  deriving DecidableEq, Repr

/-- A pattern as a value (R33); under a flush a subnormal reads as a zero of its sign (R39). -/
def decode (f : Fmt) (flush : Bool) (x : Nat) : Val :=
  let neg := x / f.signBit % 2 = 1
  let ex := x / 2 ^ f.mb % 2 ^ f.eb
  let fr := x % 2 ^ f.mb
  if ex = 2 ^ f.eb - 1 then (if fr = 0 then .inf neg else .nan (fr < 2 ^ (f.mb - 1)))
  else if ex = 0 then (if flush then .num neg 0 0 false else .num neg fr f.lsb false)
  else .num neg (2 ^ f.mb + fr) ((ex : Int) - f.bias - f.mb) false

def Val.isNan : Val → Bool
  | .nan _ => true
  | _ => false
def Val.isSig : Val → Bool
  | .nan s => s
  | _ => false
/-- The sign of a value that is no NaN. -/
def Val.neg : Val → Bool
  | .nan _ => false
  | .inf n => n
  | .num n _ _ _ => n
def Val.negate : Val → Val
  | .nan s => .nan s
  | .inf n => .inf !n
  | .num n m e r => .num (!n) m e r
def Val.isZero : Val → Bool
  | .num _ 0 _ r => !r
  | _ => false

/-- NV for a signalling NaN among the inputs (R40, R41). -/
def sigFlags (l : List Val) : Flags := if l.any Val.isSig then flagNV else 0

/-! ### Rounding (R36, R38) -/

/-- m / 2^sh rounded to an integer by a code of R36, and whether it is inexact. -/
def roundAt (rm : Nat) (neg : Bool) (m : Nat) (rest : Bool) (sh : Nat) : Nat × Bool :=
  let full := 2 ^ sh
  let q := m / full
  let r := m % full
  let inexact := r ≠ 0 || rest
  let up := match rm with
    | 0 => full < 2 * r || (2 * r = full && (rest || q % 2 = 1))
    | 1 => false
    | 2 => !neg && inexact
    | 3 => neg && inexact
    | _ => full ≤ 2 * r
  (if up then q + 1 else q, inexact)

/-- m × 2^e at the spacing 2^lsb, rounded. -/
def roundTo (rm : Nat) (neg : Bool) (m : Nat) (e : Int) (rest : Bool) (lsb : Int) : Nat × Bool :=
  if e < lsb then roundAt rm neg m rest (lsb - e).toNat else (m * 2 ^ (e - lsb).toNat, rest)

/-- m × 2^e rounded to p bits with the exponent unbounded: p-bit integer, exponent, inexact. -/
def roundPrec (rm : Nat) (neg : Bool) (p m : Nat) (e : Int) (rest : Bool) : Nat × Int × Bool :=
  let lsb := e + (Nat.log2 m + 1 : Nat) - p
  let (q, ix) := roundTo rm neg m e rest lsb
  if q = 2 ^ p then (2 ^ (p - 1), lsb + 1, ix) else (q, lsb, ix)

/-- The result of an overflow in a mode (R38): the largest finite value or the infinity. -/
def overflowCode (f : Fmt) (rm : Nat) (neg : Bool) : Nat :=
  f.signed neg (if rm = 1 || (rm = 2 && neg) || (rm = 3 && !neg) then f.maxCode else f.infCode)

/-- A value delivered in a format (R38 to R40), with the flags of the delivery. -/
def deliver (f : Fmt) (rm : Nat) (flush : Bool) (v : Val) : Nat × Flags :=
  match v with
  | .nan _ => (f.nanCode, 0)
  | .inf n => (f.signed n f.infCode, 0)
  | .num n m e rest =>
    if m = 0 then (f.signed n 0, 0)
    else
      let (q, l, ix) := roundPrec rm n (f.mb + 1) m e rest
      if l < f.lsb then
        if flush then (f.signed n 0, flagUF ||| flagNX)
        else
          let (q', ix') := roundTo rm n m e rest f.lsb
          (f.signed n q', if ix' then flagUF ||| flagNX else 0)
      else
        let code := ((l - f.lsb).toNat + 1) * 2 ^ f.mb + (q - 2 ^ f.mb)
        if f.maxCode < code then (overflowCode f rm n, flagOF ||| flagNX)
        else (f.signed n code, if ix then flagNX else 0)

/-! ### Exact arithmetic (R108, R109) -/

/-- The integer of a signed magnitude. -/
def signedInt (neg : Bool) (m : Nat) : Int := if neg then -(m : Int) else m

/-- A sum with the signs of exact zeros (R108). -/
def addVal (a b : Val) : Val × Flags :=
  match a, b with
  | .nan _, _ => (.nan false, 0)
  | _, .nan _ => (.nan false, 0)
  | .inf x, .inf y => if x = y then (.inf x, 0) else (.nan false, flagNV)
  | .inf x, _ => (.inf x, 0)
  | _, .inf y => (.inf y, 0)
  | .num na ma ea _, .num nb mb eb _ =>
    let e := min ea eb
    let t := signedInt na (ma * 2 ^ (ea - e).toNat) + signedInt nb (mb * 2 ^ (eb - e).toNat)
    if t = 0 then (.num (na && nb && ma = 0 && mb = 0) 0 0 false, 0) else (.num (t < 0) t.natAbs e false, 0)

def mulVal (a b : Val) : Val × Flags :=
  match a, b with
  | .nan _, _ => (.nan false, 0)
  | _, .nan _ => (.nan false, 0)
  | .inf x, .inf y => (.inf (x != y), 0)
  | .inf x, .num y m _ _ => if m = 0 then (.nan false, flagNV) else (.inf (x != y), 0)
  | .num x m _ _, .inf y => if m = 0 then (.nan false, flagNV) else (.inf (x != y), 0)
  | .num x ma ea _, .num y mb eb _ => (.num (x != y) (ma * mb) (ea + eb) false, 0)

/-- A product-sum: 0 × ∞ raises NV even beside a quiet NaN (R109). -/
def fmaVal (a b c : Val) : Val × Flags :=
  let p := mulVal a b
  let r := addVal p.1 c
  (r.1, p.2 ||| r.2)

def bitLen (m : Nat) : Nat := if m = 0 then 0 else Nat.log2 m + 1

/-- A quotient with at least p + 2 exact bits (R108). -/
def divVal (p : Nat) (a b : Val) : Val × Flags :=
  match a, b with
  | .nan _, _ => (.nan false, 0)
  | _, .nan _ => (.nan false, 0)
  | .inf _, .inf _ => (.nan false, flagNV)
  | .inf x, .num y _ _ _ => (.inf (x != y), 0)
  | .num x _ _ _, .inf y => (.num (x != y) 0 0 false, 0)
  | .num x ma ea _, .num y mb eb _ =>
    if mb = 0 then (if ma = 0 then (.nan false, flagNV) else (.inf (x != y), flagDZ))
    else if ma = 0 then (.num (x != y) 0 0 false, 0)
    else
      let k := p + 3 + bitLen mb - bitLen ma
      let n := ma * 2 ^ k
      (.num (x != y) (n / mb) (ea - eb - k) (n % mb ≠ 0), 0)

/-- The integer square root of m, by bits from i down. -/
def isqrtFrom (m : Nat) : Nat → Nat → Nat
  | 0, r => r
  | i + 1, r => isqrtFrom m i (if (r + 2 ^ i) * (r + 2 ^ i) ≤ m then r + 2 ^ i else r)
def isqrt (m : Nat) : Nat := isqrtFrom m (bitLen m / 2 + 1) 0

/-- A square root with at least p + 2 exact bits (R108). -/
def sqrtVal (p : Nat) (a : Val) : Val × Flags :=
  match a with
  | .nan _ => (.nan false, 0)
  | .inf n => if n then (.nan false, flagNV) else (.inf false, 0)
  | .num n m e _ =>
    if m = 0 then (.num n 0 0 false, 0)
    else if n then (.nan false, flagNV)
    else
      let k0 := 2 * (p + 3)
      let k := if (e - k0) % 2 = 0 then k0 else k0 + 1
      let x := m * 2 ^ k
      let r := isqrt x
      (.num false r ((e - k) / 2) (r * r ≠ x), 0)

/-! ### Operations on patterns -/

/-- An operation of R107 in a format: inputs flushed, rounded to nearest even, result flushed. -/
def op2 (f : Fmt) (flush : Bool) (g : Val → Val → Val × Flags) (a b : Nat) : Nat × Flags :=
  let x := decode f flush a
  let y := decode f flush b
  let r := g x y
  let d := deliver f 0 flush r.1
  (d.1, d.2 ||| r.2 ||| sigFlags [x, y])

def add (f : Fmt) (flush : Bool) (a b : Nat) : Nat × Flags := op2 f flush addVal a b
def sub (f : Fmt) (flush : Bool) (a b : Nat) : Nat × Flags := op2 f flush (fun x y => addVal x y.negate) a b
def mul (f : Fmt) (flush : Bool) (a b : Nat) : Nat × Flags := op2 f flush mulVal a b
def div (f : Fmt) (flush : Bool) (a b : Nat) : Nat × Flags := op2 f flush (divVal (f.mb + 1)) a b
def fma (f : Fmt) (flush : Bool) (a b c : Nat) : Nat × Flags :=
  let x := decode f flush a
  let y := decode f flush b
  let z := decode f flush c
  let r := fmaVal x y z
  let d := deliver f 0 flush r.1
  (d.1, d.2 ||| r.2 ||| sigFlags [x, y, z])
def sqrt (f : Fmt) (flush : Bool) (a : Nat) : Nat × Flags :=
  let x := decode f flush a
  let r := sqrtVal (f.mb + 1) x
  let d := deliver f 0 flush r.1
  (d.1, d.2 ||| r.2 ||| sigFlags [x])

/-! ### Order (R43, R111, R58) -/

/-- The order of two values that are no NaN, with −0 equal to +0. -/
def cmpVal (a b : Val) : Ordering :=
  match a, b with
  | .inf x, .inf y => if x = y then .eq else if x then .lt else .gt
  | .inf x, _ => if x then .lt else .gt
  | _, .inf y => if y then .gt else .lt
  | .num na ma ea _, .num nb mb eb _ =>
    let e := min ea eb
    compare (signedInt na (ma * 2 ^ (ea - e).toNat)) (signedInt nb (mb * 2 ^ (eb - e).toNat))
  | _, _ => .eq

/-- a ranks below b, −0 below +0 (R43, R58). -/
def ranksBelow (a b : Val) : Bool :=
  match cmpVal a b with
  | .lt => true
  | .gt => false
  | .eq => a.neg && !b.neg

/-- Minimum or maximum (R43): number-preferring or NaN-propagating. The pattern kept is the operand's, a flushed one the zero of its
sign. -/
def minMax (f : Fmt) (flush max number : Bool) (a b : Nat) : Nat × Flags :=
  let x := decode f flush a
  let y := decode f flush b
  let keep := fun (v : Val) => (deliver f 0 false v).1
  let fl := sigFlags [x, y]
  if x.isNan && y.isNan then (f.nanCode, fl)
  else if x.isNan then (if number then keep y else f.nanCode, fl)
  else if y.isNan then (if number then keep x else f.nanCode, fl)
  else (keep (if ranksBelow y x != max then y else x), fl)

/-- The floating comparison codes (R111). -/
def fcompare (f : Fmt) (flush : Bool) (cc : Nat) (a b : Nat) : Bool × Flags :=
  let x := decode f flush a
  let y := decode f flush b
  if x.isNan || y.isNan then
    (cc = 1 || cc = 6, if 2 ≤ cc ∧ cc ≤ 5 then flagNV else sigFlags [x, y])
  else
    let o := cmpVal x y
    (match cc with
      | 0 => o = .eq
      | 1 => o ≠ .eq
      | 2 => o = .lt
      | 3 => o ≠ .gt
      | 4 => o = .gt
      | 5 => o ≠ .lt
      | 6 => false
      | _ => true, 0)

/-! ### Rounding to integral, exponent, scale (R115, R116) -/

/-- A finite value rounded to an integer: magnitude and inexactness. -/
def toIntegral (rm : Nat) (n : Bool) (m : Nat) (e : Int) : Nat × Bool := roundTo rm n m e false 0

/-- R115 on a pattern. -/
def rint (f : Fmt) (flush : Bool) (rm : Nat) (a : Nat) : Nat × Flags :=
  match decode f flush a with
  | .nan s => (f.nanCode, sigFlags [.nan s])
  | .inf n => (f.signed n f.infCode, 0)
  | .num n m e _ => ((deliver f 0 false (if 0 ≤ e then .num n m e false else .num n (toIntegral rm n m e).1 0 false)).1, 0)

/-- DSFU.GETEXP (R116). -/
def getExp (a : Nat) : Word × Flags :=
  match decode f64 false a with
  | .nan _ => (0x80000000#32, flagNV)
  | .inf _ => (0x7FFFFFFF#32, flagNV)
  | .num _ m e _ => if m = 0 then (0x80000000#32, flagNV) else (BitVec.ofInt 32 (e + Nat.log2 m), 0)

/-- DSFU.SCALE (R116): beyond ±5,000 every exponent gives the result of the bound, overflow or underflow. -/
def scale (rm : Nat) (a : Nat) (b : Int) : Nat × Flags :=
  let x := decode f64 false a
  let d := deliver f64 rm false (match x with
    | .num n m e r => .num n m (e + max (-5000) (min 5000 b)) r
    | v => v)
  (d.1, d.2 ||| sigFlags [x])

/-! ### The FP32 functions (R113, R114): fixed point with 320 fraction bits, inexact results marked by rest (log 22: PRESUMED) -/

/-- Fraction bits of the fixed-point work. (Log 22: PRESUMED.) -/
def fxBits : Nat := 320
def fxOne : Nat := 2 ^ fxBits

/-- Sum over k of z^(2k+1) / (2k+1), alternating or not, from the term t = z^(2k+1). -/
def oddSeries (alt : Bool) (z2 : Nat) : Nat → Nat → Nat → Int → Int
  | 0, _, _, acc => acc
  | n + 1, k, t, acc =>
    let x : Int := (t / (2 * k + 1) : Nat)
    oddSeries alt z2 n (k + 1) (t * z2 / fxOne) (if alt && k % 2 = 1 then acc - x else acc + x)
def atanh (z : Nat) : Int := oddSeries false (z * z / fxOne) 220 0 z 0
def atan (z : Nat) : Int := oddSeries true (z * z / fxOne) 160 0 z 0
def ln2 : Nat := (2 * atanh (fxOne / 3)).toNat
def pi : Nat := (16 * atan (fxOne / 5) - 4 * atan (fxOne / 239)).toNat

/-- Sum of y^k / k! from the term t = y^k / k!. -/
def expSeries (y : Nat) : Nat → Nat → Nat → Nat → Nat
  | 0, _, _, acc => acc
  | n + 1, k, t, acc => expSeries y n (k + 1) (t * y / fxOne / (k + 1)) (acc + t)
def expFx (y : Nat) : Nat := expSeries y 80 0 fxOne 0

/-- sin y from the term t = y^(2k+1) / (2k+1)!. -/
def sinSeries (y2 : Nat) : Nat → Nat → Nat → Int → Int
  | 0, _, _, acc => acc
  | n + 1, k, t, acc =>
    sinSeries y2 n (k + 1) (t * y2 / fxOne / ((2 * k + 2) * (2 * k + 3))) (if k % 2 = 1 then acc - t else acc + t)
/-- sin(π t) for t in [0, 1/2], as a fixed-point number. -/
def sinPi (t : Nat) : Nat :=
  let y := pi * t / fxOne
  (sinSeries (y * y / fxOne) 50 0 y 0).toNat

/-- m × 2^e as fixed point; its low bits are kept whole for every FP32 value below 2. -/
def toFx (m : Nat) (e : Int) : Nat := if 0 ≤ e + fxBits then m * 2 ^ (e + fxBits).toNat else m / 2 ^ (-(e + fxBits)).toNat

def fxVal (neg : Bool) (x : Nat) : Val := .num neg x (-fxBits) true

/-- 2^x for finite x (R113): exact at integers. -/
def ex2Val (n : Bool) (m : Nat) (e : Int) : Val :=
  if m = 0 then .num false 1 0 false
  else if 8 ≤ e + Nat.log2 m then (if n then .num false 1 (-400) false else .num false 1 400 false)
  else if e + Nat.log2 m < -400 then fxVal false (if n then fxOne - 1 else fxOne)
  else
    let x : Int := signedInt n (toFx m e)
    let i := x / fxOne
    let fr := (x % fxOne).toNat
    if fr = 0 then .num false 1 i false else .num false (expFx (fr * ln2 / fxOne)) (i - fxBits) true

/-- log2 of a positive finite x: exact at powers of two. -/
def lg2Val (m : Nat) (e : Int) : Val :=
  let k : Int := e + Nat.log2 m
  if m = 2 ^ Nat.log2 m then .num (k < 0) k.natAbs 0 false
  else
    let one := 2 ^ Nat.log2 m
    let l := (2 * atanh ((m - one) * fxOne / (m + one))).toNat * fxOne / ln2
    let t : Int := k * fxOne + l
    fxVal (t < 0) t.natAbs

/-- |x| mod 2 for finite x, as fixed point. -/
def mod2 (m : Nat) (e : Int) : Nat := if 1 ≤ e then 0 else toFx m e % (2 * fxOne)

def half : Nat := fxOne / 2
/-- A fixed-point sine with its exact cases. -/
def sinExact (neg : Bool) (t : Nat) : Val :=
  if t = 0 then .num neg 0 0 false else if t = half then .num neg 1 0 false else fxVal neg (sinPi t)

def sinVal (n : Bool) (m : Nat) (e : Int) : Val :=
  let t := mod2 m e
  if t % fxOne = 0 then .num n 0 0 false
  else
    let u := t % fxOne
    sinExact (n != decide (fxOne ≤ t)) (if half < u then fxOne - u else u)

def cosVal (m : Nat) (e : Int) : Val :=
  let t := mod2 m e
  let u := if fxOne < t then 2 * fxOne - t else t
  if u = half then .num false 0 0 false
  else if u < half then sinExact false (half - u) else sinExact true (half - (fxOne - u))

/-- tanh x: below 2^−60 the value next below x, above 64 the value next below 1. -/
def tanhVal (n : Bool) (m : Nat) (e : Int) : Val :=
  if m = 0 then .num n 0 0 false
  else if e + Nat.log2 m < -60 then .num n (m * 2 ^ 200 - 1) (e - 200) true
  else if 6 ≤ e + Nat.log2 m then fxVal n (fxOne - 1)
  else
    let y := 2 * toFx m e
    let k := y / ln2
    let ex := expFx (y % ln2) * 2 ^ k
    fxVal n ((ex - fxOne) * fxOne / (ex + fxOne))

/-- 1 / √x for positive finite x with at least p + 2 exact bits. -/
def rsqVal (p m : Nat) (e : Int) : Val :=
  let (m, e) := if e % 2 = 0 then (m, e) else (2 * m, e - 1)
  let k := p + 3 + bitLen m
  let r := isqrt (2 ^ (2 * k) / m)
  .num false r (-(e / 2) - k) (r * r * m ≠ 2 ^ (2 * k))

/-- The function of FSFU's code on a value (R113, R114). -/
def sfuVal (fn : Nat) (x : Val) : Val × Flags :=
  match fn, x with
  | _, .nan _ => (.nan false, 0)
  | 0, .inf n => (.num n 0 0 false, 0)
  | 0, .num n m e r => divVal 24 (.num false 1 0 false) (.num n m e r)
  | 1, .inf n => if n then (.nan false, flagNV) else (.num false 0 0 false, 0)
  | 1, .num n m e _ =>
    if m = 0 then (.inf n, flagDZ) else if n then (.nan false, flagNV) else (rsqVal 24 m e, 0)
  | 2, .inf n => if n then (.num false 0 0 false, 0) else (.inf false, 0)
  | 2, .num n m e _ => (ex2Val n m e, 0)
  | 3, .inf n => if n then (.nan false, flagNV) else (.inf false, 0)
  | 3, .num n m e _ => if m = 0 then (.inf true, flagDZ) else if n then (.nan false, flagNV) else (lg2Val m e, 0)
  | 4, .inf _ => (.nan false, flagNV)
  | 4, .num n m e _ => (sinVal n m e, 0)
  | 5, .inf _ => (.nan false, flagNV)
  | 5, .num _ m e _ => (cosVal m e, 0)
  | _, .inf n => (.num n 1 0 false, 0)
  | _, .num n m e _ => (tanhVal n m e, 0)

def sfu (fn : Nat) (flush : Bool) (a : Nat) : Nat × Flags :=
  let x := decode f32 flush a
  let r := sfuVal fn x
  let d := deliver f32 0 flush r.1
  (d.1, d.2 ||| r.2 ||| sigFlags [x])

/-! ### Conversions between standard types (R78, R117) -/

/-- A value to a format by a rounding code. -/
def toFloat (f : Fmt) (flush : Bool) (rm : Nat) (x : Val) : Nat × Flags :=
  let d := deliver f rm flush x
  (d.1, d.2 ||| sigFlags [x])

def intVal (x : Int) : Val := .num (x < 0) x.natAbs 0 false

/-- A value to an integer between bounds, by a rounding code. -/
def toInteger (lo hi : Int) (rm : Nat) (x : Val) : Int × Flags :=
  match x with
  | .nan _ => (0, flagNV)
  | .inf n => (if n then lo else hi, flagNV)
  | .num n m e _ =>
    let (q, ix) := if 128 ≤ e then (2 ^ 128, false) else toIntegral rm n m e
    let v := signedInt n (if m = 0 then 0 else q)
    if v < lo then (lo, flagNV ||| flagNX) else if hi < v then (hi, flagNV ||| flagNX)
    else (v, if ix then flagNX else 0)

/-- An integer to an integer type: the nearer bound with NV when it does not fit. -/
def clampInt (lo hi : Int) (x : Int) : Int × Flags :=
  if x < lo then (lo, flagNV) else if hi < x then (hi, flagNV) else (x, 0)

/-- The format of a type code, if it is a floating one (R78). -/
def typeFmt (t : Nat) : Option Fmt :=
  match t with
  | 0 => some f64
  | 1 => some f32
  | 2 => some f16
  | 3 => some bf16
  | _ => none
def typeWide (t : Nat) : Bool := t = 0 || t = 6 || t = 7
/-- The bounds of an integer type code. -/
def typeLo (t : Nat) : Int := match t with
  | 4 => -2 ^ 31
  | 6 => -2 ^ 63
  | _ => 0
def typeHi (t : Nat) : Int := match t with
  | 4 => 2 ^ 31 - 1
  | 5 => 2 ^ 32 - 1
  | 6 => 2 ^ 63 - 1
  | _ => 2 ^ 64 - 1
/-- Only FP64 never flushes (R39). -/
def typeFlush (t : Nat) (ftz : Bool) : Bool := ftz && t ≠ 0

/-- CVT of a 64-bit source pattern into a 64-bit result pattern (R117). -/
def cvt (dst src rm : Nat) (ftz : Bool) (a : DWord) : DWord × Flags :=
  match typeFmt src, typeFmt dst with
  | some f, some g =>
    let r := toFloat g (typeFlush dst ftz) rm (decode f (typeFlush src ftz) a.toNat)
    (BitVec.ofNat 64 r.1, r.2)
  | some f, none =>
    let r := toInteger (typeLo dst) (typeHi dst) rm (decode f (typeFlush src ftz) a.toNat)
    (BitVec.ofInt 64 (if typeWide dst then r.1 else r.1 % 2 ^ 32), r.2)
  | none, some g =>
    let x : Int := match src with
      | 4 => (loWord a).toInt
      | 5 => (loWord a).toNat
      | 6 => a.toInt
      | _ => a.toNat
    let r := toFloat g (typeFlush dst ftz) rm (intVal x)
    (BitVec.ofNat 64 r.1, r.2)
  | none, none =>
    let x : Int := match src with
      | 4 => (loWord a).toInt
      | 5 => (loWord a).toNat
      | 6 => a.toInt
      | _ => a.toNat
    let r := clampInt (typeLo dst) (typeHi dst) x
    (BitVec.ofInt 64 (if typeWide dst then r.1 else r.1 % 2 ^ 32), r.2)

end Sys2Proof.Machine.Fp

/-! ### Narrow formats (R45 to R49, R51) -/

namespace Sys2Proof.Machine.Narrow

open Sys2Proof.Machine.Fp

/-- Fields of a format word (R45). -/
def mBits (w : Word) : Nat := (w.extractLsb' 0 3).toNat
def eBits (w : Word) : Nat := (w.extractLsb' 3 3).toNat
def sBit (w : Word) : Bool := w.getLsbD 6
def isInt (w : Word) : Bool := w.getLsbD 7
def bias (w : Word) : Int := (w.extractLsb' 8 8).toInt
def spec (w : Word) : Nat := (w.extractLsb' 16 2).toNat
def sub (w : Word) : Bool := w.getLsbD 18
def sat (w : Word) : Nat := (w.extractLsb' 19 2).toNat
def rnd (w : Word) : Nat := (w.extractLsb' 21 2).toNat
def scl (w : Word) : Bool := w.getLsbD 23
def blkCode (w : Word) : Nat := (w.extractLsb' 24 3).toNat
def scf (w : Word) : Nat := (w.extractLsb' 27 2).toNat
def width (w : Word) : Nat := (sBit w).toNat + eBits w + mBits w
/-- Elements of a block along K. -/
def blk (w : Word) : Nat := 64 * 2 ^ blkCode w
/-- The rounding code of R36 that RND stands for. -/
def rm (w : Word) : Nat := match rnd w with
  | 0 => 0
  | 1 => 1
  | _ => 4

/-- Validity (R46). -/
def valid (w : Word) : Bool :=
  w.extractLsb' 29 3 = 0 && spec w ≠ 3 && sat w < 2 && rnd w ≠ 3 && blkCode w ≤ 2 && scf w ≠ 3 && (scl w || (blkCode w = 0 && scf w = 0))
    && (if isInt w then eBits w = 0 && sBit w && 1 ≤ mBits w && bias w = 0 && spec w = 0 && !sub w && sat w = 0
        else 1 ≤ eBits w && 2 ≤ width w && width w ≤ 8 && (sat w = 0 || spec w ≠ 0) && (spec w ≠ 2 || 2 ≤ eBits w))

/-- The value of a code (R47). -/
def decode (w : Word) (c : Nat) : Val :=
  let m := mBits w
  if isInt w then
    let x := c % 2 ^ (m + 1)
    let v : Int := if 2 ^ m ≤ x then (x : Int) - 2 ^ (m + 1) else x
    .num (v < 0) v.natAbs 0 false
  else
    let neg := sBit w && c / 2 ^ (eBits w + m) % 2 = 1
    let e := c / 2 ^ m % 2 ^ eBits w
    let fr := c % 2 ^ m
    let top := 2 ^ eBits w - 1
    if spec w = 2 && e = top then (if fr = 0 then .inf neg else .nan false)
    else if spec w = 1 && e = top && fr = 2 ^ m - 1 then .nan false
    else if e = 0 && (sub w || fr = 0) then .num neg (if sub w then fr else 0) (1 - bias w - m) false
    else .num neg (2 ^ m + fr) (e - bias w - m) false

def finite : Val → Bool
  | .num _ _ _ _ => true
  | _ => false

/-- The code of the largest finite magnitude (R48). -/
def maxCode (w : Word) : Nat :=
  (((List.range (2 ^ (eBits w + mBits w))).reverse).find? (fun c => finite (decode w c))).getD 0

/-- The NaN code, if there is one. -/
def nanCode (w : Word) : Option Nat :=
  match spec w with
  | 1 => some (2 ^ (eBits w + mBits w) - 1)
  | 2 => if 1 ≤ mBits w then some ((2 ^ eBits w - 1) * 2 ^ mBits w + 1) else none
  | _ => none

def signedCode (w : Word) (neg : Bool) (c : Nat) : Nat := if neg && sBit w then 2 ^ (eBits w + mBits w) + c else c

/-- What an overflow or an infinity becomes: the infinity or NaN code, or the largest magnitude. (Log 28: DEDUCED.) -/
def overCode (w : Word) (neg : Bool) (toMax : Bool) : Nat :=
  if toMax then signedCode w neg (maxCode w)
  else if spec w = 2 then signedCode w neg ((2 ^ eBits w - 1) * 2 ^ mBits w)
  else 2 ^ (eBits w + mBits w) - 1

/-- A nonzero finite value into a floating narrow format (R48 step 4). (Log 28: DEDUCED.) -/
def encodeNum (w : Word) (n : Bool) (m : Nat) (e : Int) (rest : Bool) : Nat × Flags :=
  let mb := mBits w
  let (q, l, ix) := roundPrec (rm w) n (mb + 1) m e rest
  let be : Int := l + mb + bias w
  let code : Int := be * 2 ^ mb + ((q : Int) - 2 ^ mb)
  if maxCode w = 0 ∨ (maxCode w : Int) < code then (overCode w n (sat w = 0 || rnd w = 1), flagOF ||| flagNX)
  else if sub w && be < 1 then
    let (q', ix') := roundTo (rm w) n m e rest (1 - bias w - mb)
    (signedCode w n q', if ix' then flagUF ||| flagNX else 0)
  else if !sub w && (be < 0 || (be = 0 && q = 2 ^ mb)) then (signedCode w n 0, flagUF ||| flagNX)
  else (signedCode w n code.toNat, if ix then flagNX else 0)

/-- Conversion into a narrow format (R48). -/
def encode (w : Word) (x : Val) : Nat × Flags :=
  if isInt w then
    match x with
    | .nan _ => (0, flagNV)
    | v =>
      let (i, fl) := toInteger (-(2 ^ mBits w : Nat)) ((2 ^ mBits w : Nat) - 1) (rm w) v
      ((i % (2 ^ (mBits w + 1) : Nat)).toNat, fl)
  else
    match x with
    | .nan s => match nanCode w with
      | some c => (c, if s then flagNV else 0)
      | none => (0, flagNV)
    | .inf n =>
      if n && !sBit w then (0, flagNV)
      else if sat w = 0 then (signedCode w n (maxCode w), flagOF ||| flagNX)
      else (overCode w n false, 0)
    | .num n m e rest =>
      if m = 0 then (signedCode w n 0, 0)
      else if n && !sBit w then (0, flagNV)
      else encodeNum w n m e rest

/-- E5M3 (R51): E = 5, M = 3, unsigned, BIAS = 15, SUB = 1, SPEC = 01. -/
def e5m3 : Word := 0x00050F2B

end Sys2Proof.Machine.Narrow
end

