-- ==== Sys2Proof/Machine/Control.lean ====
section
/-! DEFINITION. Lane control transfers, EXIT, TRAP, BKPT, and the collectives that move no floating-point values
(spec/06_lane_control_and_collectives.md R119 to R129, R132, R133). -/

namespace Sys2Proof.Machine

/-- PC + 4 + 4 × sext(OFF20) (R64, R120): every VB and UB word is one word long. -/
def branchTarget (next : Word) (off : BitVec 20) : Word := next + (off.signExtend 32 <<< 2)

/-- A conditional transfer (R120): the lanes that take it go to the target, linking v61 for CALL; the others go on. A poisoned
condition raises POISON (R176). -/
def State.condTransfer (s : State) (f : VB) (link : Bool) : Res :=
  match s.laneBegin [] f.p f.pn (if link then [61] else []) [] with
  | .stop s => .next s
  | .go s e =>
    let t := s.laneEnd [] (fun pool w => if link then w.writeV pool 61 e (fun _ => s.sel.next) 0 else w)
    .next (t.modCur (fun w => w.moveTo e (branchTarget s.sel.next f.off)))

/-- BRA (R120). -/
def execBra (f : VB) (s : State) : Res := s.condTransfer f false
/-- CALL (R120). -/
def execCall (f : VB) (s : State) : Res := s.condTransfer f true

/-- An indirect transfer (R121, R122): a poisoned target raises POISON, then a misaligned one MISALIGN, and no lane moves; otherwise
each executing lane goes to its own target, CALLX linking the next word. Where a guard is poisoned in some lane, only the lanes with a
poisoned guard stand in TMASK; and a CALLX that needs a row waits for it before its target is tested: the spec orders neither.
(Log 71: DESIGN CHOICE.) -/
def State.indirect (s : State) (f : V3) (link : Bool) : Res :=
  let marks := markNames f.ka false (vname f.a) []
  match s.laneBegin (vname f.a) f.g f.gn (if link then [61] else []) marks with
  | .stop s => .next s
  | .go s e =>
    let w := s.cur
    let tgt := fun i => w.vsrc f.a f.lit i
    let bad := w.vsrcPois f.a &&& e
    let mis := e &&& maskOf (fun i => (tgt i).extractLsb' 0 2 != 0#2)
    if bad ≠ 0 then .next (s.trapHere causePoison bad 0)
    else if mis ≠ 0 then
      .next (s.trapHere causeMisalign mis (((lowestLane mis).map (fun i => (tgt i).setWidth 64)).getD 0))
    else
      let t := s.laneEnd marks (fun pool w => if link then w.writeV pool 61 e (fun _ => s.sel.next) 0 else w)
      .next (t.modCur (fun w => w.mapLanes e (fun i l => { l with pc := tgt i })))

/-- BRX (R121). -/
def execBrx (f : V3) (s : State) : Res := s.indirect f false
/-- CALLX (R121). -/
def execCallx (f : V3) (s : State) : Res := s.indirect f true
/-- RET (R121): as BRX. -/
def execRet (f : V3) (s : State) : Res := s.indirect f false

/-- The threads of m end: exited, every claim of theirs given up (R14, R123). -/
def Wave.exitLanes (w : Wave) (m : LaneMask) (pc : Word) : Wave :=
  { (w.mapLanes m (fun _ l => { l with status := .exited, block := .none, stopped := false, pc := pc })).clearAll m with exitPc := pc }

/-- Threads of the issuing path end and the rest of it moves on; if they are the wave's last live ones they wait in place until its
counters are drained (R27). -/
def State.endThreads (s : State) (e : LaneMask) : State :=
  let rest := s.sel.mask &&& ~~~e
  if e ≠ 0 && (s.cur.live &&& ~~~e) = 0 then
    s.modCur (fun w => { w.blockAs e .waiting with
      waits := w.waits ++ [⟨e, s.sel.pc, s.sel.next, s.clock, 0, .exit⟩], exitPc := s.sel.pc })
  else s.modCur (fun w => (w.exitLanes e s.sel.pc).moveTo rest s.sel.next)

/-- EXIT (R123): the guard-true threads end. -/
def execExit (f : V3) (s : State) : Res :=
  match s.laneBegin [] f.g f.gn [] [] with
  | .stop s => .next s
  | .go s e => .next (s.endThreads e)

/-- TRAP (R124): counts as executed; SWTRAP for the whole path. -/
def execTrap (f : VI) (s : State) : Res :=
  let t := s.advance
  .next (t.trap t.sel.key ⟨causeSwtrap, false, s.sel.next, s.sel.mask, 0, zextImm f.imm⟩)

/-- A wave stops for the debugger, and under team-stop every wave of its team (R30); the context's watchdogs freeze. -/
def State.debugStopWave (s : State) (k : WaveKey) : State :=
  let w := s.wave k
  let all := (s.team w.team).teamStop
  let s : State := { s with waves := s.waves.map (fun (p : WaveKey × Wave) =>
    if p.1 = k ∨ (all ∧ p.2.team = w.team) then (p.1, { p.2 with dbgStopped := true }) else p) }
  let c := s.context w.ctx
  if c.frozenAt.isNone then s.setContext w.ctx { c with frozenAt := some s.clock } else s

/-- BKPT (R125, R29, R30): with a debugger the wave stops with the lanes that met it at its PC; without one it raises BKPT. -/
def execBkpt (f : V3) (s : State) : Res :=
  match s.laneBegin [] f.g f.gn [] [] with
  | .stop s => .next s
  | .go s e =>
    if e = 0 then .next s.advance
    else if (s.context s.cur.ctx).debugger then
      .next ((s.modCur (fun w => { w.moveTo (s.sel.mask &&& ~~~e) s.sel.next with bkptLanes := w.bkptLanes ||| e })).debugStopWave s.sel.key)
    else
      let t := s.advance
      .next (t.trap t.sel.key ⟨causeBkpt, false, s.sel.next, e, 0, 0⟩)

/-! ### Collectives (R126): the issuing path is every live thread -/

/-- The poison of a result is the poison of inputs chosen per lane. -/
def poisWhere (f : Fin 32 → LaneMask) (src : LaneMask) : LaneMask := maskOf (fun i => (f i &&& src) != 0)
/-- The lanes below a lane. -/
def below (i : Fin 32) : LaneMask := (1#32 <<< i.val) - 1

/-- VOTE (R128). -/
def execVote (f : VX) (s : State) : Res :=
  let p := f.a.extractLsb' 0 3
  let path := s.sel.mask
  s.laneOp [] [] 7#3 false f.d
    (fun w i =>
      let t := path &&& w.laneMask (fun l => l.p p)
      match f.fn.toNat with
      | 0 => t
      | 1 => BitVec.ofNat 32 (maskCount t)
      | 2 => BitVec.ofNat 32 (maskCount (t &&& below i))
      | _ => BitVec.ofNat 32 (((lowestLane t).map Fin.val).getD 32))
    (fun w =>
      let q := path &&& w.laneMask (fun l => l.pp p)
      if f.fn.toNat = 2 then poisWhere below q else if q = 0 then 0 else allLanes)

/-- The source lane of SHFL (R129). -/
def shflSrc (fn : BitVec 6) (sel : Word) (i : Nat) : Nat :=
  let width := 32 / 2 ^ (fn.extractLsb' 2 3).toNat
  let base := i / width * width
  let o := i % width
  let b := sel.toNat % width
  match (fn.extractLsb' 0 2).toNat with
  | 0 => base + b
  | 1 => base + (o + width - b) % width
  | 2 => base + (o + b) % width
  | _ => base + (o ^^^ b)

/-- SHFL (R129): a source with no live thread leaves the lane its own A. -/
def execShfl (f : VX) (s : State) : Res :=
  s.laneOp (vname f.a ++ vname f.b) [] 7#3 false f.d
    (fun w i =>
      let src : Fin 32 := Fin.ofNat 32 (shflSrc f.fn (w.vsrc f.b f.lit i) i.val)
      w.vsrc f.a f.lit (if s.sel.mask.getLsbD src.val then src else i))
    (fun w => w.vsrcPois f.b ||| maskOf (fun i =>
      let src : Fin 32 := Fin.ofNat 32 (shflSrc f.fn (w.vsrc f.b f.lit i) i.val)
      (w.vsrcPois f.a).getLsbD (if s.sel.mask.getLsbD src.val then src else i).val))

/-- The lanes of a set whose value equals lane i's. -/
def matchClass (e : LaneMask) (v : Fin 32 → Word) (i : Fin 32) : LaneMask := e &&& maskOf (fun j => v j == v i)
/-- The class word of MATCH: RANK, SIZE, LEAD (R132). -/
def classWord (cls : LaneMask) (i : Fin 32) : Word :=
  BitVec.ofNat 32 (maskCount (cls &&& below i) * 2048 + maskCount cls * 32 + ((lowestLane cls).map Fin.val).getD 0)

/-- MATCH (R132): its guard limits the contributors; every contributor's poison poisons both words (R176). -/
def execMatchEq (f : V3) (s : State) : Res :=
  let e := s.cur.guardLanes s.sel.mask f.g f.gn
  s.lanePair (vname f.a) (markNames f.ka false (vname f.a) []) f.g f.gn f.d
    (fun w i =>
      let cls := matchClass e (fun j => w.vsrc f.a f.lit j) i
      pairOf cls (classWord cls i))
    (fun w => if w.vsrcPois f.a &&& e = 0 then 0 else allLanes)

/-- ELECT (R133): the lowest or the highest guard-true lane of the path. -/
def execElect (f : VC) (s : State) : Res :=
  s.lanePred [] [] f.g f.gn f.pd
    (fun w i =>
      let e := w.guardLanes s.sel.mask f.g f.gn
      let chosen := if f.cc = 0#3 then lowestLane e else (maskLanes e).getLast?
      chosen = some i)
    (fun _ => 0)

end Sys2Proof.Machine
end

