-- ==== Sys2Proof/Machine/Uniform.lean ====
section
/-! DEFINITION. Uniform arithmetic, control flow, special registers and the trap handler's interface, opcodes 0x80 to 0xA8, 0xBF to
0xC1, 0xC8, 0xC9 but for the floating ones (spec/07_uniform_and_system.md R135 to R154), and the events that belong to them. -/

namespace Sys2Proof.Machine

/-- UNOP (R137). -/
def execUnop (f : U3) (s : State) : Res := s.uniGuard f.qg f.qn (.next s.advance)
/-- UMOV (R137). -/
def execUmov (f : U3) (s : State) : Res := s.u3One f id
/-- UMOVI (R137). -/
def execUmovi (f : UW) (s : State) : Res := s.uniDone (fun w => w.setS f.d (f.imm.signExtend 32) false)
/-- UADD (R137). -/
def execUadd (f : U3) (s : State) : Res := s.u3Op f (fun a b => a + b)
/-- USUB (R137). -/
def execUsub (f : U3) (s : State) : Res := s.u3Op f (fun a b => a - b)
/-- UADDI (R137). -/
def execUaddi (f : UI) (s : State) : Res := s.uiOp f (fun a => a + sextImm f.imm)
/-- UMUL (R137). -/
def execUmul (f : U3) (s : State) : Res := s.u3Op f (fun a b => a * b)
/-- UMULHU (R137). -/
def execUmulhu (f : U3) (s : State) : Res := s.u3Op f Int32.mulhu
/-- UADD64 (R137). -/
def execUadd64 (f : U3) (s : State) : Res := s.u3Pair f (fun a b => a + b)
/-- USUB64 (R137). -/
def execUsub64 (f : U3) (s : State) : Res := s.u3Pair f (fun a b => a - b)
/-- UMIN (R137). -/
def execUminUniform (f : U3) (s : State) : Res := s.u3Op f Int32.smin
/-- UMAX (R137). -/
def execUmaxUniform (f : U3) (s : State) : Res := s.u3Op f Int32.smax
/-- UMINU (R137). -/
def execUminu (f : U3) (s : State) : Res := s.u3Op f Int32.umin
/-- UMAXU (R137). -/
def execUmaxu (f : U3) (s : State) : Res := s.u3Op f Int32.umax
/-- UAND (R137). -/
def execUand (f : U3) (s : State) : Res := s.u3Op f (fun a b => a &&& b)
/-- UOR (R137). -/
def execUor (f : U3) (s : State) : Res := s.u3Op f (fun a b => a ||| b)
/-- UXOR (R137). -/
def execUxor (f : U3) (s : State) : Res := s.u3Op f (fun a b => a ^^^ b)
/-- UANDI (R137). -/
def execUandi (f : UI) (s : State) : Res := s.uiOp f (fun a => a &&& zextImm f.imm)
/-- UORI (R137). -/
def execUori (f : UI) (s : State) : Res := s.uiOp f (fun a => a ||| zextImm f.imm)
/-- USHL (R137). -/
def execUshl (f : U3) (s : State) : Res := s.u3Op f Int32.shl
/-- USHR (R137). -/
def execUshr (f : U3) (s : State) : Res := s.u3Op f Int32.shr
/-- USAR (R137). -/
def execUsar (f : U3) (s : State) : Res := s.u3Op f Int32.sar
/-- USHLI (R137). -/
def execUshli (f : UI) (s : State) : Res := s.uiOp f (fun a => Int32.shl a (zextImm f.imm &&& 31))
/-- USHRI (R137). -/
def execUshri (f : UI) (s : State) : Res := s.uiOp f (fun a => Int32.shr a (zextImm f.imm &&& 31))
/-- UBFE (R138). -/
def execUbfe (f : UI) (s : State) : Res :=
  let pos := f.imm.toNat % 32
  let len := min (f.imm.toNat / 32 % 64) 32
  s.uiOp f (fun a => if f.imm.getLsbD 11 then Int32.fieldS a pos len else Int32.fieldU a pos len)
/-- UBIT (R137). -/
def execUbit (f : UI) (s : State) : Res := s.uiOp f (Int32.bitOp (f.imm.toNat % 8))

/-- UCMP (R139). -/
def execUcmp (f : UCC) (s : State) : Res :=
  s.uniGuard f.qg f.qn (s.uniDone (fun w =>
    w.setQ f.qd (Int32.compare f.cc (w.sreg f.a f.lit) (w.sreg f.b f.lit)) (w.sregPois f.a || w.sregPois f.b)))

/-- USEL (R139): QG selects; a poisoned selector raises POISON (R176). -/
def execUsel (f : U3) (s : State) : Res :=
  if s.cur.qp f.qg then .next (s.trapHere causePoison s.sel.mask 0)
  else s.uniDone (fun w =>
    if w.q f.qg != f.qn then w.setS f.d (w.sreg f.a f.lit) (w.sregPois f.a) else w.setS f.d (w.sreg f.b f.lit) (w.sregPois f.b))

/-- QLOG (R139). -/
def execQlog (f : VP) (s : State) : Res :=
  s.uniGuard f.g f.gn (s.uniDone (fun w =>
    w.setQ f.pd (Int32.truth f.tt (w.q f.pa) (w.q f.pb) (w.q f.pc)) (w.qp f.pa || w.qp f.pb || w.qp f.pc)))

/-! ### Uniform control flow (R141, R142) -/

/-- A conditional uniform transfer: every thread of the path together; a poisoned condition raises POISON. -/
def State.uniBranch (s : State) (f : VB) (link : Bool) : Res :=
  s.uniGuard f.p f.pn (.next (s.modCur (fun w =>
    (if link then w.setS 61#6 s.sel.next false else w).moveTo s.sel.mask (branchTarget s.sel.next f.off))))

/-- UBRA (R141). -/
def execUbra (f : VB) (s : State) : Res := s.uniBranch f false
/-- UCALL (R141). -/
def execUcall (f : VB) (s : State) : Res := s.uniBranch f true

/-- UBRX and URET (R141): poison of the target before its alignment. -/
def State.uniIndirect (s : State) (f : U3) : Res :=
  let tgt := s.cur.sreg f.a f.lit
  s.uniGuard f.qg f.qn
    (if s.cur.sregPois f.a then .next (s.trapHere causePoison s.sel.mask 0)
     else if tgt.extractLsb' 0 2 ≠ 0#2 then .next (s.trapHere causeMisalign s.sel.mask (tgt.setWidth 64))
     else .next (s.modCur (fun w => w.moveTo s.sel.mask tgt)))

/-- UBRX (R141). -/
def execUbrx (f : U3) (s : State) : Res := s.uniIndirect f
/-- URET (R141). -/
def execUret (f : U3) (s : State) : Res := s.uniIndirect f

/-- ULOOP (R142): a poisoned counter raises POISON (R176). -/
def execUloop (f : UL) (s : State) : Res :=
  if s.cur.sregPois f.a then .next (s.trapHere causePoison s.sel.mask 0)
  else
    let n := s.cur.sreg f.a 0 - 1
    .next (s.modCur (fun w => (w.setS f.a n false).moveTo s.sel.mask
      (if n ≠ 0 then s.sel.next + (f.off.signExtend 32 <<< 2) else s.sel.next)))

/-! ### Reading lanes (R143) -/

/-- RDLANE (R143): a live lane's copy; zero of a lane with no live thread; UNINIT_READ of an unmapped name under FPC.UNINIT. -/
def execRdlane (f : UI) (s : State) : Res :=
  let i : Fin 32 := Fin.ofNat 32 f.imm.toNat
  let w := s.cur
  if !w.lanes[i].isLive then s.uniDone (fun w => w.setS f.d 0 false)
  else if f.a.toNat < 62 && (w.row f.a.toNat).isNone && w.fpc.getLsbD 4 then .next (s.trapHere causeUninitRead s.sel.mask 0)
  else
    let (s, aborted) := s.readParity (vname f.a) (1#32 <<< i.val)
    if aborted then .next s
    else s.uniDone (fun w => w.setS f.d (w.vsrc f.a 0 i) ((w.vsrcPois f.a).getLsbD i.val))

/-- ACTM (R143). -/
def execActm (f : U3) (s : State) : Res := s.uniGuard f.qg f.qn (s.uniDone (fun w => w.setS f.d s.sel.mask false))

/-! ### Special registers (R144 to R147) -/

/-- How a special register may be reached (R145). -/
inductive SprAccess where
  | rw
  | ro
  | handlerRw
  | handlerRo
  | debugRw
  deriving DecidableEq, Repr

/-- The registers of R145. -/
def sprAccess (i : Nat) : Option SprAccess :=
  if i = 0x000 ∨ i = 0x090 ∨ i = 0x091 ∨ i = 0x092 then some .rw
  else if (0x002 ≤ i ∧ i ≤ 0x00B) ∨ (0x010 ≤ i ∧ i ≤ 0x013) ∨ i = 0x060 ∨ i = 0x061 ∨ (0x080 ≤ i ∧ i ≤ 0x083) then some .ro
  else if i = 0x041 ∨ i = 0x046 then some .handlerRw
  else if 0x040 ≤ i ∧ i ≤ 0x047 then some .handlerRo
  else if i = 0x070 then some .debugRw
  else none

/-- The value of a special register of a wave (R145); the clock and time halves latch apart (R146). -/
def State.sprValue (s : State) (k : WaveKey) (i : Nat) : Word :=
  let w := s.wave k
  let t := s.team w.team
  let k' := s.task t.task
  let c := s.context w.ctx
  match i with
  | 0x000 => w.fpc
  | 0x002 => w.index.setWidth 32
  | 0x003 => BitVec.ofNat 32 t.liveWaves
  | 0x004 => t.teamId
  | 0x005 => BitVec.ofNat 32 (coreInCluster k.core)
  | 0x006 => BitVec.ofNat 32 (clusterOf k.core * 256 + dieOf k.core)
  | 0x007 => BitVec.ofNat 32 w.ctx
  | 0x008 => loWord s.clock64
  | 0x009 => w.clockHi
  | 0x00A => loWord s.ptime
  | 0x00B => w.ptimeHi
  | 0x010 => BitVec.ofNat 32 ((w.pixel.map PixelWave.recAddr).getD k'.recAddr)
  | 0x011 => BitVec.ofNat 32 ((w.pixel.map PixelWave.recAddr).getD k'.recAddr / 2 ^ 32)
  | 0x012 => if w.pixel.isSome then 0 else leWord ((k'.bytes.drop 0x18).take 4)
  | 0x013 => BitVec.ofNat 32 ((w.pixel.map PixelWave.args).getD (leNat ((k'.bytes.drop 0x20).take 4)))
  | 0x040 => w.tcause
  | 0x041 => w.tpc
  | 0x042 => w.taddrLo
  | 0x043 => w.taddrHi
  | 0x044 => w.tmask
  | 0x045 => w.tinfo
  | 0x046 => w.tvec
  | 0x047 => w.tpaths
  | 0x060 => t.rgnstat
  | 0x061 => t.rgnatt
  | 0x070 => w.errinj
  | 0x080 => 0x00000100
  | 0x081 => if c.debugger then 0x0000001F else 0x0000000F
  | 0x082 => 0x00001008
  | 0x090 => c.bwdt
  | 0x091 => c.rwdt
  | 0x092 => c.pxwdt
  | _ => 0

/-- Reading the low half of the clock or the time latches the high half in the wave (R146). -/
def State.latchRead (s : State) (k : WaveKey) (time : Bool) : State :=
  s.modWave k (fun w => if time then { w with ptimeHi := hiWord s.ptime } else { w with clockHi := hiWord s.clock64 })

/-- A read or write of a special register is refused: the index is absent, the register is read-only, or its level is missing (R144). -/
def State.sprRefused (s : State) (i : Nat) (write : Bool) : Option Nat :=
  let w := s.cur
  match sprAccess i with
  | none => some causeIllegalOperand
  | some .rw => none
  | some .ro => if write then some causeIllegalOperand else none
  | some .handlerRw => if w.handler then none else some causePriv
  | some .handlerRo => if write then some causeIllegalOperand else if w.handler then none else some causePriv
  | some .debugRw => if (s.context w.ctx).debugger then none else some causePriv

/-- SREAD (R144). -/
def execSread (f : UI) (s : State) : Res :=
  let i := f.imm.toNat
  match s.sprRefused i false with
  | some c => .next (s.trapHere c s.sel.mask 0)
  | none =>
    let v := s.sprValue s.sel.key i
    let s := if i = 0x008 then s.latchRead s.sel.key false else if i = 0x00A then s.latchRead s.sel.key true else s
    s.uniDone (fun w => w.setS f.d v false)

/-- A write of ERRINJ: reserved UNIT codes, and NTH 0 with ARM set, are refused; it restarts the count (R147). -/
def errinjRefused (v : Word) : Bool :=
  5 ≤ (v.extractLsb' 28 3).toNat || (v.getLsbD 31 && v.extractLsb' 12 11 = 0#11)
def State.armInjection (s : State) (k : WaveKey) (v : Word) : State :=
  let (id, s) := s.fresh
  s.modWave k (fun w => { w with errinj := v &&& 0xFFFFF000, errCount := 0, injId := id + 1 })

/-- The effect of SWRITE on a register that takes it; none when the value is refused (R35, R145, R147, R151). -/
def State.sprWrite (s : State) (k : WaveKey) (i : Nat) (v : Word) : Option State :=
  let w := s.wave k
  let c := s.context w.ctx
  match i with
  | 0x000 => if 5 ≤ v.toNat % 8 then none else some (s.modWave k (fun w => { w with fpc := v &&& 0x00001F1F }))
  | 0x041 => if v.extractLsb' 0 2 ≠ 0#2 then none else some (s.modWave k (fun w => { w with tpc := v }))
  | 0x046 => some (s.modWave k (fun w => { w with tvec := v }))
  | 0x070 => if errinjRefused v then none else some (s.armInjection k v)
  | 0x090 => some (s.setContext w.ctx { c with bwdt := v })
  | 0x091 => some (s.setContext w.ctx { c with rwdt := v })
  | 0x092 => some (s.setContext w.ctx { c with pxwdt := v })
  | _ => some s

/-- SWRITE (R144): access first, then poison of the source, then the value. -/
def execSwrite (f : UI) (s : State) : Res :=
  let i := f.imm.toNat
  match s.sprRefused i true with
  | some c => .next (s.trapHere c s.sel.mask 0)
  | none =>
    if s.cur.sregPois f.a then .next (s.trapHere causePoison s.sel.mask 0)
    else match s.sprWrite s.sel.key i (s.cur.sreg f.a 0) with
      | none => .next (s.trapHere causeIllegalOperand s.sel.mask 0)
      | some s => .next s.advance

/-- ERRINJ_WRITE (R147): the arming write as it takes effect in a wave of a debugged context; a refused value changes nothing. -/
def execErrinjWrite (w : WaveKey) (value : Word) (s : State) : Res :=
  if s.hasWave w && (s.context (s.wave w).ctx).debugger && !errinjRefused value then .next (s.armInjection w value) else .next s

/-- CLOCK_READ_LATCH (R146): the low half goes to s[d] and the high half to the wave's latch. -/
def execClockReadLatch (w : WaveKey) (time : Bool) (d : BitVec 6) (s : State) : Res :=
  if s.hasWave w then
    let v := if time then s.ptime else s.clock64
    .next ((s.latchRead w time).modWave w (fun x => x.setS d (loWord v) false))
  else .next s

/-! ### Register release, yield, safe points (R148 to R150) -/

/-- The names of FREE's masks: A for v0 to v31, B[29:0] for v32 to v61. -/
def freeNames (a b : Word) : List Nat :=
  (List.range 62).filter (fun n => if n < 32 then a.getLsbD n else b.getLsbD (n - 32))

/-- FREE (R148). -/
def execFree (f : U3) (s : State) : Res :=
  s.uniGuard f.qg f.qn (s.uniDone (fun w => w.clearMarks s.sel.mask (freeNames (w.sreg f.a f.lit) (w.sreg f.b f.lit))))

/-- YIELD (R149): not ready for min(A, 4095) clocks, or for A = 0 until one issue opportunity has passed. -/
def execYield (f : U3) (s : State) : Res :=
  let a := (s.cur.sreg f.a f.lit).toNat
  let span := if a = 0 then YieldSpan.opportunity else YieldSpan.until (s.clock + min a 4095)
  s.uniGuard f.qg f.qn (s.uniDone (fun w => w.mapLanes s.sel.mask (fun _ l => { l with yieldSpan := span })))

/-- The lanes of m whose yield has run its span. -/
def Wave.yieldOver (w : Wave) (clock : Nat) (m : LaneMask) : LaneMask :=
  m &&& w.laneMask (fun l => match l.yieldSpan with
    | .until c => c ≤ clock
    | _ => false)

/-- YIELD_EXPIRY (R149): the paths whose span has ended are ready again. -/
def execYieldExpiry (w : WaveKey) (lanes : LaneMask) (s : State) : Res :=
  if s.hasWave w then
    .next (s.modWave w (fun x => x.mapLanes (x.yieldOver s.clock lanes) (fun _ l => { l with yieldSpan := .none })))
  else .next s

/-- SAFEPT (R150, R172): with a request pending the wave stops after it, its live rows those of the mask. -/
def execSafept (f : UC) (s : State) : Res :=
  let w := s.cur
  if s.curTeam.preempt.isSome && !w.holdsSection && !w.handler then
    .next (s.advance.modCur (fun x => { x with stop := .atSafepoint (w.spair f.a) }))
  else .next s.advance

/-! ### Traps raised and left by code (R153, R154) -/

/-- TRAPU (R154). -/
def execTrapu (f : UI) (s : State) : Res :=
  let w := s.cur
  if w.handler then .next (s.terminate w.ctx s.sel.key.core w.trapRegs (zextImm f.imm))
  else
    let t := s.advance
    .next (t.trap t.sel.key ⟨causeSwtrap, false, s.sel.next, s.sel.mask, 0, 0x1000 + zextImm f.imm⟩)

/-- RTT (R153): PRIV outside handler level. -/
def execRtt (_f : U3) (s : State) : Res :=
  if s.cur.handler then .next (s.modCur Wave.leaveHandler) else .next (s.trapHere causePriv s.sel.mask 0)

/-- A thread can meet an address match: live, and not waiting or stopped where it stands; one that is held has not issued (R30). -/
def Lane.meets (l : Lane) : Bool := l.isLive && l.block != .waiting && !l.stopped

/-- The threads that stand at a matched PC, but for those whose first issue after a resume is still to come (R30). -/
def State.matched (s : State) (w : WaveKey) : LaneMask :=
  let x := s.wave w
  let c := s.context x.ctx
  if c.debugger && !x.dbgStopped then x.laneMask (fun l => l.meets && c.matches_.contains l.pc) &&& ~~~x.matchSkip else 0

/-- ADDRESS_MATCH_STOP (R29, R30): threads that stand at a matched PC stop the wave before the instruction; for each path that has met one
the match is then suppressed until it issues. -/
def execAddressMatchStop (w : WaveKey) (pc : Word) (s : State) : Res :=
  if s.hasWave w && s.matched w &&& (s.wave w).laneMask (fun l => l.pc == pc) ≠ 0 then
    .next ((s.modWave w (fun y => { y with matchSkip := y.matchSkip ||| s.matched w })).debugStopWave w)
  else .next s

/-- ILLEGAL_ENCODING (R79, R80): a word that no entry accepts traps precisely with no effect. -/
def execIllegalEncoding (op : Bool) (word : Word) (s : State) : Res :=
  .next (s.trap s.sel.key ⟨if op then causeIllegalOp else causeIllegalOperand, false, s.sel.pc, s.sel.mask, 0, word⟩)

end Sys2Proof.Machine
end

