-- ==== Sys2Proof/Machine/Usage.lean ====
section
/-! DEFINITION. What an instruction reads, writes and counts, from its opcode and fields: the issue class (spec/01 R21), wave-wide
instructions (R19), counter classes (spec/09 R193), and the registers that the scoreboard (spec/10 R224, spec/09 R180) and scout mode
(spec/17 R362) look at. -/

namespace Sys2Proof.Machine

/-- The primary opcode of an instruction word. -/
def opOf (word : Word) : Nat := (word.extractLsb' 24 8).toNat

/-- Bit 31 of the word: a uniform instruction (R18). -/
def isUniform (word : Word) : Bool := word.getLsbD 31

/-- The thirteen wave-wide instructions (R19). -/
def isWaveWide (op : Nat) : Bool :=
  op = 0x4D || (0x56 ≤ op && op ≤ 0x5B) || op = 0xAD || op = 0xAF || op = 0xB0 || op = 0xBC || op = 0xBD || op = 0xBF

/-- The issue classes of lane instructions (R21). -/
inductive IssueClass where
  | alu
  | dp
  | single
  deriving DecidableEq, Repr

def issueClass (op : Nat) : IssueClass :=
  if op = 0x2B || (0x3B ≤ op && op ≤ 0x40) || op = 0x43 then .dp
  else if op ≤ 0x36 || op = 0x3A || (0x44 ≤ op && op ≤ 0x4A) then .alu
  else .single

/-- The counter class an instruction raises (R193). -/
def countsIn (word : Word) : Option Class :=
  let op := opOf word
  if (0x5D ≤ op && op ≤ 0x63) || op = 0x69 || op = 0xC7 then some .ld
  else if (0x64 ≤ op && op ≤ 0x68) || op = 0x6A then some .st
  else if op = 0x6B then (if word.getLsbD 0 then some .st else some .ld)
  else if 0xB7 ≤ op && op ≤ 0xBA then some .cp
  else if 0x74 ≤ op && op ≤ 0x7B then some .tl
  else if op = 0xBB then some .nm
  else if op = 0x73 then some .rs
  else if op = 0xC6 then some .fx
  else none

/-- What a FENCE in progress holds back: global and scratchpad accesses, RECLD, ring operations, copy commands, NMV (R197, R413). -/
def heldByFence (op : Nat) : Bool :=
  (0x5D ≤ op && op ≤ 0x73) || op = 0xC7 || (0xB3 ≤ op && op ≤ 0xB6) || op = 0xC3 || (0xB7 ≤ op && op ≤ 0xBB)

/-- Registers an instruction names: vector names read and written, predicates, uniform registers and predicates, its record. -/
structure Usage where
  vr : List Nat
  vw : List Nat
  pr : List (BitVec 3)
  pw : List (BitVec 3)
  sr : List (BitVec 6)
  sw : List (BitVec 6)
  qr : List (BitVec 3)
  qw : List (BitVec 3)
  br : Option (BitVec 4)

def Usage.none : Usage := ⟨[], [], [], [], [], [], [], [], .none⟩

/-- How many registers the D operand of an atomic has (R76). -/
def atomRegs (aop : BitVec 4) : Nat := if aop = 12#4 then 4 else if 9 ≤ aop.toNat && aop.toNat ≤ 11 then 2 else 1

/-- The registers that an instruction word reads and writes. -/
def usage : Instr → Usage
  | .mov f | .iabs f | .fsqrt f => { Usage.none with vr := vname f.a, vw := vname f.d, pr := [f.g] }
  | .sel f | .iadd f | .isub f | .imul f | .imulhs f | .imulhu f | .imin f | .imax f | .umin f | .umax f | .and f | .or f | .xor f
  | .andn f | .shl f | .shr f | .sar f | .fadd f | .fsub f | .fmul f | .fmin f | .fmax f | .fminn f | .fmaxn f | .fdiv f
  | .hadd2 f | .hmul2 f | .badd2 f | .bmul2 f => { Usage.none with vr := vname f.a ++ vname f.b, vw := vname f.d, pr := [f.g] }
  | .imulws f | .imulwu f => { Usage.none with vr := vname f.a ++ vname f.b, vw := vnames f.d 2, pr := [f.g] }
  | .iadd64 f | .isub64 f | .dadd f | .dsub f | .dmul f | .dmin f | .dmax f | .ddiv f =>
    { Usage.none with vr := vnames f.a 2 ++ vnames f.b 2, vw := vnames f.d 2, pr := [f.g] }
  | .dsqrt f => { Usage.none with vr := vnames f.a 2, vw := vnames f.d 2, pr := [f.g] }
  | .perm f | .imad f | .shf f | .bfi f | .bfeu f | .bfes f | .ffma f | .hfma2 f | .bfma2 f =>
    { Usage.none with vr := vname f.a ++ vname f.b ++ vname f.c, vw := vname f.d }
  | .dfma f => { Usage.none with vr := vnames f.a 2 ++ vnames f.b 2 ++ vnames f.c 2, vw := vnames f.d 2 }
  | .movi f => { Usage.none with vw := vname f.d }
  | .bcast f => { Usage.none with vw := vname f.d, sr := [f.a] }
  | .iaddi f | .andi f | .ori f | .xori f | .shli f | .shri f | .sari f => { Usage.none with vr := vname f.a, vw := vname f.d }
  | .icmp f | .fcmp f => { Usage.none with vr := vname f.a ++ vname f.b, pr := [f.g], pw := [f.pd] }
  | .icmp64 f | .dcmp f => { Usage.none with vr := vnames f.a 2 ++ vnames f.b 2, pr := [f.g], pw := [f.pd] }
  | .plog f => { Usage.none with pr := [f.g, f.pa, f.pb, f.pc], pw := [f.pd] }
  | .elect f => { Usage.none with pr := [f.g], pw := [f.pd] }
  | .pmov f =>
    if f.fn = 0#6 then { Usage.none with vw := vname f.d, pr := [0, 1, 2, 3, 4, 5, 6] }
    else { Usage.none with vr := vname f.a, pw := [0, 1, 2, 3, 4, 5, 6] }
  | .bit f | .fsgn f | .fsfu f | .frnd f | .hmnx2 f | .ncvt f | .shfl f => { Usage.none with vr := vname f.a ++ vname f.b, vw := vname f.d }
  | .vote f => { Usage.none with vw := vname f.d, pr := [f.a.extractLsb' 0 3] }
  | .wred f | .wscan f => { Usage.none with vr := vnames f.a 2, vw := vnames f.d 2 }
  | .wargx f => { Usage.none with vr := vname f.a ++ vname f.b, vw := vnames f.d 2 }
  | .matchEq f => { Usage.none with vr := vname f.a, vw := vnames f.d 2, pr := [f.g] }
  | .dsfu f => { Usage.none with vr := vnames f.a 2 ++ vname f.b, vw := vnames f.d 2 }
  | .cvt f => { Usage.none with vr := vnames f.a 2, vw := vnames f.d 2 }
  | .regrp f => { Usage.none with vr := vname f.a, vw := vname f.d, sr := [f.b, f.b + 1] }
  | .bra f => { Usage.none with pr := [f.p] }
  | .call f => { Usage.none with pr := [f.p], vw := [61] }
  | .brx f | .ret f => { Usage.none with vr := vname f.a, pr := [f.g] }
  | .callx f => { Usage.none with vr := vname f.a, vw := [61], pr := [f.g] }
  | .ldb f | .ldbu f | .ldh f | .ldhu f | .ldw f => { Usage.none with vr := vname f.a, vw := vname f.d, br := some f.br }
  | .ldd f => { Usage.none with vr := vname f.a, vw := vnames f.d 2, br := some f.br }
  | .ldq f => { Usage.none with vr := vname f.a, vw := vnames f.d 4, br := some f.br }
  | .stb f | .sth f | .stw f => { Usage.none with vr := vname f.a ++ vname f.d, br := some f.br }
  | .std f => { Usage.none with vr := vname f.a ++ vnames f.d 2, br := some f.br }
  | .stq f => { Usage.none with vr := vname f.a ++ vnames f.d 4, br := some f.br }
  | .ldaq f => { Usage.none with vr := vname f.a, vw := vnames f.d (if f.sz then 2 else 1), br := some f.br }
  | .strl f => { Usage.none with vr := vname f.a ++ vnames f.d (if f.sz then 2 else 1), br := some f.br }
  | .atom f => { Usage.none with vr := vname f.a ++ vnames f.d (atomRegs f.aop), vw := vnames f.d (atomRegs f.aop), br := some f.br }
  | .atoms f => { Usage.none with vr := vname f.a ++ vnames f.d (atomRegs f.aop), vw := vnames f.d (atomRegs f.aop) }
  | .ldsw f => { Usage.none with vr := vname f.a, vw := vname f.d }
  | .ldsd f => { Usage.none with vr := vname f.a, vw := vnames f.d 2 }
  | .ldsq f => { Usage.none with vr := vname f.a, vw := vnames f.d 4 }
  | .stsw f | .stsr f => { Usage.none with vr := vname f.a ++ vname f.d }
  | .stsd f => { Usage.none with vr := vname f.a ++ vnames f.d 2 }
  | .stsq f => { Usage.none with vr := vname f.a ++ vnames f.d 4 }
  | .mmad f | .mmas f | .mmah f | .mmab f | .mman f | .mmaq f | .mmasp f =>
    { Usage.none with vr := vnames f.d 16, vw := vnames f.d 16, sr := [f.sa, f.sb, f.fn] }
  | .accst f => { Usage.none with vr := vnames f.d 16, sr := [f.sa, f.sb, f.sb + 1] }
  | .pxexp f => { Usage.none with vr := vnames f.a 4 ++ vname f.b }
  | .nop f | .exit f | .bkpt f | .pxkill f | .pxrel f | .pxlock f => { Usage.none with pr := [f.g] }
  | .umov f | .uadd f | .usub f | .umul f | .umulhu f | .uminUniform f | .umaxUniform f | .uminu f | .umaxu f | .uand f | .uor f
  | .uxor f | .ushl f | .ushr f | .usar f | .usel f | .ufadd f | .ufmul f | .actm f | .bararv f | .gbarv f =>
    { Usage.none with sr := [f.a, f.b], sw := [f.d], qr := [f.qg] }
  | .uadd64 f | .usub64 f => { Usage.none with sr := [f.a, f.a + 1, f.b, f.b + 1], sw := [f.d, f.d + 1], qr := [f.qg] }
  | .unop f | .ubrx f | .uret f | .free f | .yield f | .rtt f | .ttrig f | .rgnc f | .rgna f | .barinit f | .barwt f | .barsync f
  | .gbwt f | .gbset f => { Usage.none with sr := [f.a, f.b], qr := [f.qg] }
  | .umovi f => { Usage.none with sw := [f.d] }
  | .uaddi f | .uandi f | .uori f | .ushli f | .ushri f | .ubfe f | .ubit f | .ucvt f => { Usage.none with sr := [f.a], sw := [f.d] }
  | .rdlane f => { Usage.none with vr := vname f.a, sw := [f.d] }
  | .sread f => { Usage.none with sw := [f.d] }
  | .swrite f => { Usage.none with sr := [f.a] }
  | .recld f => { Usage.none with sr := [f.a, f.a + 1] }
  | .ucmp f => { Usage.none with sr := [f.a, f.b], qr := [f.qg], qw := [f.qd] }
  | .ttake f => { Usage.none with sr := [f.a, f.a + 1], sw := [f.a, f.a + 1], qr := [f.qg], qw := [f.qd] }
  | .qlog f => { Usage.none with qr := [f.g, f.pa, f.pb, f.pc], qw := [f.pd] }
  | .ubra f => { Usage.none with qr := [f.p] }
  | .ucall f => { Usage.none with qr := [f.p], sw := [61] }
  | .uloop f => { Usage.none with sr := [f.a], sw := [f.a] }
  | .racq f | .rpeek f | .rcmt f | .rrel f | .tspawn f => { Usage.none with sr := [f.a, f.a + 1, f.d], sw := [f.d], qw := [f.qd] }
  | .tload f | .tstore f | .tgath f | .tmcast f | .nmv f | .rgnb f | .safept f | .prim f | .coll f =>
    { Usage.none with sr := [f.a, f.a + 1, f.b, f.b + 1, f.c, f.c + 1, f.fn] }
  | _ => Usage.none

/-- The accumulator names of the wave's tile operations not yet completed (R224). -/
def Wave.busyAcc (w : Wave) : List Nat :=
  w.ops.flatMap (fun o => match o.kind with
    | .tile t _ _ => if o.done then [] else (List.range 16).map (fun i => t.acc + i)
    | .accst ⟨_, some l⟩ => if o.done then [] else (List.range 16).map (fun i => l.acc + i)
    | _ => [])
/-- An ACCST has issued whose accumulators are still to come (R229). -/
def Wave.accWaits (w : Wave) : Bool := w.ops.any (fun o => match o.kind with
  | .accst ⟨_, some _⟩ => !o.done
  | _ => false)

/-- The records that a RECLD has not yet delivered (R180). -/
def Wave.busyRec (w : Wave) : List Nat :=
  w.ops.filterMap (fun o => match o.kind with
    | .load _ _ _ _ _ r _ => if o.done then none else r
    | _ => none)

/-- The uniform registers that a GBARV or a BARARV has yet to write (R201, R273). -/
def Wave.busyS (w : Wave) : List (BitVec 6) :=
  w.fences.filterMap (fun f => match f.what with
    | .groupArrive _ d => some d
    | .barArrive _ _ d => d
    | _ => none)
/-- The uniform predicates that an RREL has yet to write (R204). -/
def Wave.busyQ (w : Wave) : List (BitVec 3) :=
  w.fences.filterMap (fun f => match f.what with
    | .ringRelease _ _ _ _ _ qd => some qd
    | _ => none)
/-- An ordering action that holds later accesses (R197): an arrival or a release at a ring, itself a release, holds none. -/
def Fence.holds (f : Fence) : Bool := match f.what with
  | .barArrive .. => false
  | .ringRelease .. => false
  | _ => true

/-- An acquire load whose invalidations are still to come holds later accesses (R187). -/
def Wave.acquiring (w : Wave) : Bool :=
  w.ops.any (fun o => match o.kind with
    | .load _ _ _ _ (some _) _ _ => !o.done
    | _ => false)

/-- The operands and counters an instruction needs are there (R22, R180, R187, R197, R224). An ACCST issues before its accumulators are
there and waits after its checks (R229); EXIT and FREE then give no row up (log 38: DEDUCED). -/
def Wave.operandsReady (w : Wave) (i : Instr) (word : Word) : Bool :=
  let u := usage i
  let acc := w.busyAcc
  (opOf word = 0x7B || !((u.vr ++ u.vw).any acc.contains))
    && !(w.accWaits && (opOf word = 0x53 || opOf word = 0xC0))
    && (match u.br with
        | some b => !w.busyRec.contains b.toNat
        | none => true)
    && !((u.sr ++ u.sw).any w.busyS.contains)
    && !((u.qr ++ u.qw).any w.busyQ.contains)
    && (match countsIn word with
        | some c => w.count c < 63
        | none => true)
    && !((heldByFence (opOf word)) && (w.fences.any Fence.holds || w.acquiring))

/-- The unit of a quarter that a lane instruction occupies for more than a clock, and for how long (R160): 0 the DP pipe, 4 the
special-function unit. -/
def unitOf (word : Word) : Option (Nat × Nat) :=
  let op := opOf word
  if issueClass op = .dp then some (0, 2)
  else if 0x37 ≤ op && op ≤ 0x39 then some (4, 4)
  else if op = 0x41 || op = 0x42 then some (4, 16)
  else none

end Sys2Proof.Machine
end

