-- ==== Sys2Proof/Machine/Issue.lean ====
section
/-! DEFINITION. Fetch (spec/03 R60, R61, spec/17 R370, R371), paths (spec/01 R16), the hold before wave-wide issue (R20), the choice
of wave and path (R22, R159), and what an issue leaves behind (R22, R25). -/

namespace Sys2Proof.Machine

/-! ### Fetch -/

/-- What a fetch at a PC comes to: an instruction with its next word, a word refused by name, or a fetch that did not get through. -/
inductive Fetched where
  | instr (i : Instr) (next word : Word)
  | reject (op : Bool) (word : Word)
  | fail (x : Xlat)
  deriving DecidableEq, Repr

/-- The virtual address of a code offset (R348). -/
def Context.codeVa (c : Context) (pc : Word) : Nat := va56 (c.codeBase + pc.toNat)

/-- Translate the fetch of one word; a PC outside the code window is refused with reason 3 (R119, R348, R370; log 10: DEDUCED). -/
def State.fetchXlat (s : State) (ctx : Nat) (pc : Word) : Xlat :=
  let c := s.context ctx
  if c.window < pc.toNat + 4 then .fault causeProt 3 0 else s.translate ctx (c.codeVa pc) .fetch

/-- The word that fetch sees at a PC: the code as the last synchronisation made it visible (R61, R371). -/
def Context.codeWord (c : Context) (pc : Word) : List Byte := (List.range 4).map (fun i => cellGet c.code (va56 (c.codeVa pc + i)))

def State.fetch (s : State) (ctx : Nat) (pc : Word) : Fetched :=
  let c := s.context ctx
  match s.fetchXlat ctx pc with
  | .ok _ _ _ =>
    let b0 := c.codeWord pc
    let w := leWord b0
    match decode b0 with
    | .ok (i, _) => .instr i (pc + 4) w
    | .error .truncated =>
      match s.fetchXlat ctx (pc + 4) with
      | .ok _ _ _ =>
        match decode (b0 ++ c.codeWord (pc + 4)) with
        | .ok (i, _) => .instr i (pc + 8) w
        | .error .illegalOp => .reject true w
        | .error _ => .reject false w
      | x => .fail x
    | .error .illegalOp => .reject true w
    | .error .illegalOperand => .reject false w
  | x => .fail x

/-- A fetch loads the page into a TLB: the walker sets A (R358, R370). -/
def State.fetchMark (s : State) (ctx : Nat) (pc : Word) : State :=
  match s.fetchXlat ctx pc with
  | .ok _ _ ea => s.markAD ea false
  | _ => s

/-! ### Paths (R16) and the hold (R20) -/

/-- The paths among the lanes of a mask, each with its PC, by ascending lowest lane. -/
def Wave.pathsOf (w : Wave) (m : LaneMask) : List (Word × LaneMask) :=
  (firsts ((maskLanes m).map (fun i => w.lanes[i].pc))).map (fun pc => (pc, m &&& w.laneMask (fun l => l.pc == pc)))

/-- When every live thread of the wave is held at one PC the hold is released: they form one path (R20). -/
def Wave.released (w : Wave) : Option (Word × LaneMask) :=
  match lowestLane w.live with
  | none => none
  | some i =>
    let pc := w.lanes[i].pc
    if w.laneMask (fun l => l.isLive && l.block == .held && !l.stopped && l.pc == pc) = w.live then some (pc, w.live) else none

/-- The wave may issue at all: not stopped for a debugger (but for a step), not stopped for a save, not short of rows. -/
def Wave.mayIssue (w : Wave) : Bool :=
  (!w.dbgStopped || w.dbgStep) && w.stop == .running && !w.growStall && w.swapped.isNone

/-- The word of a fetch, and whether it is one of a wave-wide instruction: a word refused by name is still of its opcode (R80). -/
def Fetched.word : Fetched → Word
  | .instr _ _ word => word
  | .reject _ word => word
  | .fail _ => 0
def Fetched.wide : Fetched → Bool
  | .fail _ => false
  | g => isWaveWide (opOf g.word)

/-- A path reaches a wave-wide instruction: it is held there, or it meets threads held at another PC (R20, R134). -/
def State.arrive (s : State) (k : WaveKey) (pc : Word) (m : LaneMask) : State :=
  let w := s.wave k
  match lowestLane (w.laneMask (fun l => l.isLive && l.block == .held && l.pc != pc)) with
  | some i =>
    let at_ := m ||| w.laneMask (fun l => l.isLive && l.block == .held && l.pc == pc)
    s.trap k ⟨causeCollMismatch, false, pc, at_, 0, w.lanes[i].pc⟩
  | none => s.setWave k (w.blockAs m .held)

/-- What threads meet on reaching their PC, before anything issues: an address match (R30), a wave-wide instruction (R20), an illegal
wave-wide word (R80). -/
inductive Meet where
  | matched (pc : Word)
  | hold (pc : Word) (m : LaneMask)
  | illegal (op : Bool) (sel : Sel)

/-- What a path meets where it stands. -/
def State.meetPath (s : State) (k : WaveKey) (p : Word × LaneMask) : Option Meet :=
  let g := s.fetch (s.wave k).ctx p.1
  if !g.wide then none
  else match g with
    | .instr _ _ _ => some (.hold p.1 p.2)
    | .reject op word => some (.illegal op ⟨k, p.2, p.1, p.1 + 4, word, if isUniform word then .uniform else .lane, 0⟩)
    | .fail _ => none

/-- What a wave's threads meet next: an address match first, then its paths by ascending lowest lane: where one transfer puts threads at
two such PCs at once the spec does not say which arrives first (R134; log 71: DESIGN CHOICE). -/
def State.meets (s : State) (k : WaveKey) (w : Wave) : Option Meet :=
  if (assocGet s.scouts k).isSome || w.stop != .running || (w.dbgStopped && !w.dbgStep) then none
  else match lowestLane (s.matched k) with
    | some i => some (.matched w.lanes[i].pc)
    | none => (w.pathsOf (w.laneMask Lane.free)).findSome? (s.meetPath k)

/-- The first wave whose threads meet something. -/
def State.nextMeet (s : State) : Option (WaveKey × Meet) := s.waves.findSome? (fun p => (s.meets p.1 p.2).map (fun m => (p.1, m)))

/-! ### Ready paths (R22, R149, R160) -/

/-- The thread is not ready for a yield's span (R149). -/
def Lane.yields (l : Lane) (clock : Nat) : Bool := match l.yieldSpan with
  | .none => false
  | .until c => clock < c
  | .opportunity => true

/-- A path as the slots see it: ready for its slot; yielding; yielding until the slot has taken the wave once. -/
structure Cand where
  pc : Word
  mask : LaneMask
  got : Fetched
  uniform : Bool
  ready : Bool
  yields : Bool
  opp : Bool
  deriving DecidableEq, Repr

/-- The unit of a quarter accepts the instruction in this clock (R160). -/
def State.unitFree (s : State) (k : WaveKey) (word : Word) : Bool :=
  match unitOf word with
  | none => true
  | some (u, _) => ((assocGet (s.core k.core).busy (u + quarterOf k.slot)).getD 0) ≤ s.clock

/-- A fetched word is ready to issue but for its path; a word that traps or does not arrive is always met (R22, R80, R119). -/
def Wave.ready (w : Wave) : Fetched → Bool
  | .instr i _ word => w.operandsReady i word
  | _ => true

/-- A path is ready when no thread of it yields: equal PCs are one path, whoever of it executed the YIELD (R16; log 17: DEDUCED). -/
def State.cand (s : State) (k : WaveKey) (w : Wave) (p : Word × LaneMask) : Cand :=
  let g := s.fetch w.ctx p.1
  let y := p.2 &&& w.laneMask (fun l => l.yields s.clock) ≠ 0
  ⟨p.1, p.2, g, isUniform g.word, !y && w.ready g && s.unitFree k g.word, y, p.2 &&& w.laneMask (fun l => l.yieldSpan == .opportunity) ≠ 0⟩

/-- The paths of a wave that could issue: those not at a wave-wide instruction, and its released hold. -/
def State.waveCands (s : State) (k : WaveKey) (w : Wave) : List Cand :=
  if !w.mayIssue then []
  else (w.released.map (s.cand k w)).toList
    ++ ((w.pathsOf (w.laneMask Lane.free)).map (s.cand k w)).filter (fun c => !c.got.wide)

/-! ### The choice of path (R22) -/

def Wave.maxPassed (w : Wave) (m : LaneMask) : Nat := (maskLanes m).foldl (fun acc i => max acc w.lanes[i].passed.toNat) 0
def lowestNat (m : LaneMask) : Nat := ((lowestLane m).map Fin.val).getD 32

/-- The order of R22: more threads, then larger wait, then lower lowest lane. -/
def pathBefore (w : Wave) (a b : Cand) : Bool :=
  let na := maskCount a.mask
  let nb := maskCount b.mask
  let wa := w.maxPassed a.mask
  let wb := w.maxPassed b.mask
  nb < na || (na == nb && (wb < wa || (wa == wb && lowestNat a.mask < lowestNat b.mask)))

/-- Among promoted paths, the largest wait, then the lowest lane. -/
def waitBefore (w : Wave) (a b : Cand) : Bool :=
  let wa := w.maxPassed a.mask
  let wb := w.maxPassed b.mask
  wb < wa || (wa == wb && lowestNat a.mask < lowestNat b.mask)

def bestBy {α : Type} (f : α → α → Bool) : List α → Option α
  | [] => none
  | c :: t => some (t.foldl (fun best x => if f x best then x else best) c)

/-- The path that issues (R22): one passed over 64 times or more if there is one, else the first in order. -/
def choosePath (w : Wave) (l : List Cand) : Option Cand :=
  match bestBy (waitBefore w) (l.filter (fun c => 64 ≤ w.maxPassed c.mask)) with
  | some c => some c
  | none => bestBy (pathBefore w) l

/-- The second path of a dual issue (R22): the first of the rest, when both are of one class, ALU or DP; an illegal word too is of its
opcode's class (R80); not in single step (R31). -/
def choosePair (w : Wave) (p1 : Cand) (l : List Cand) : Option Cand :=
  match bestBy (pathBefore w) (l.filter (fun c => c.pc != p1.pc)) with
  | none => none
  | some p2 =>
    let cls := fun (c : Cand) => match c.got with
      | .fail _ => IssueClass.single
      | g => issueClass (opOf g.word)
    if !p1.uniform && !w.dbgStep && cls p1 = cls p2 && cls p1 ≠ .single then some p2 else none

/-! ### The choice of waves and slots (R25, R159) -/

/-- A path's issue as a selection. -/
def Cand.sel (c : Cand) (k : WaveKey) (slot : SlotUse) (skipped : LaneMask) : Sel :=
  match c.got with
  | .instr _ next word => ⟨k, c.mask, c.pc, next, word, slot, skipped⟩
  | .reject _ word => ⟨k, c.mask, c.pc, c.pc + 4, word, slot, skipped⟩
  | .fail _ => ⟨k, c.mask, c.pc, c.pc, 0, slot, skipped⟩

/-- The paths of a wave that a slot chooses among: those of its kind; a single step's, over both kinds, in the slot of the one that R22
takes (R31). -/
def slotPaths (w : Wave) (l : List Cand) (uniform : Bool) : List Cand :=
  if w.dbgStep then
    match choosePath w (l.filter Cand.ready) with
    | some c => if c.uniform = uniform then l else []
    | none => l.filter (fun c => c.uniform = uniform)
  else l.filter (fun c => c.uniform = uniform)

def joinMasks (l : List Cand) : LaneMask := l.foldl (fun acc c => acc ||| c.mask) 0

/-- What a slot that has taken a wave issues (R22): the chosen path with the threads passed over, a second path; or nothing, when only
yielding paths stand there and their opportunity passes (R149; log 17: DEDUCED). -/
def slotIssue (k : WaveKey) (w : Wave) (l : List Cand) (uniform : Bool) : List Sel :=
  let counted := joinMasks (l.filter (fun c => c.ready || c.yields))
  match choosePath w (l.filter Cand.ready) with
  | none => [⟨k, 0, 0, 0, 0, if uniform then .idleUniform else .idleLane, counted⟩]
  | some p1 =>
    let p2 := choosePair w p1 (l.filter Cand.ready)
    let skipped := counted &&& ~~~(p1.mask ||| ((p2.map Cand.mask).getD 0))
    p1.sel k (if uniform then .uniform else .lane) skipped :: (p2.map (fun c => c.sel k .pair 0)).toList

/-- A wave that may issue with its paths. -/
structure Bidder where
  key : WaveKey
  wave : Wave
  paths : List Cand
  deriving DecidableEq, Repr

/-- The longest without an issue in the slot, then the lowest slot number (R159). -/
def bidBefore (uniform : Bool) (a b : Bidder) : Bool :=
  let la := if uniform then a.wave.lastUni else a.wave.lastLane
  let lb := if uniform then b.wave.lastUni else b.wave.lastLane
  la < lb || (la == lb && a.key.slot < b.key.slot)

/-- What one slot of a quarter issues, given the waves of the quarter (R159). -/
def quarterIssue (l : List Bidder) (uniform : Bool) : List Sel :=
  match bestBy (bidBefore uniform) (l.filter (fun b => (slotPaths b.wave b.paths uniform).any (fun c => c.ready || c.opp))) with
  | none => []
  | some b => slotIssue b.key b.wave (slotPaths b.wave b.paths uniform) uniform

/-- The waves that may issue, scouting ones apart. -/
def State.bidders (s : State) : List Bidder :=
  (s.waves.filter (fun p => (assocGet s.scouts p.1).isNone)).map (fun p => ⟨p.1, p.2, s.waveCands p.1 p.2⟩)

/-- All that issues in this clock (R159): quarter by quarter, its lane slot's paths, then its uniform slot's (R24, R25). -/
def State.choices (s : State) : List Sel :=
  let l := s.bidders
  (firsts (l.map (fun b => (b.key.core, quarterOf b.key.slot)))).flatMap (fun q =>
    let mine := l.filter (fun b => (b.key.core, quarterOf b.key.slot) = q)
    quarterIssue mine false ++ quarterIssue mine true)

/-! ### Issue -/

/-- Threads passed over once more; a yield that waited for one opportunity has had it (R22, R149). (Log 17: DEDUCED.) -/
def Wave.passOver (w : Wave) (m : LaneMask) : Wave :=
  (w.countPass m).mapLanes m (fun _ l => { l with yieldSpan := if l.yieldSpan = .opportunity then .none else l.yieldSpan })

/-- An issue occupies its unit, from the clock that has just passed (R160). -/
def State.occupy (s : State) (sel : Sel) : State :=
  match unitOf sel.word with
  | none => s
  | some (u, n) => s.modCore sel.key.core (fun c => { c with busy := assocSet c.busy (u + quarterOf sel.key.slot) (s.clock - 1 + n) })

/-- The wave as it stood before its first issue of the clock. -/
def State.before (s : State) (sel : Sel) : Wave :=
  match s.prior with
  | some p => if sel.slot ≠ .lane && p.uid = (s.wave sel.key).uid then p else s.wave sel.key
  | none => s.wave sel.key

/-- What stands at the wave's issue before the meaning runs: counts, slot times, the released hold, the matched address done. -/
def State.prepare (s : State) (sel : Sel) : State :=
  let w := (s.wave sel.key).passOver sel.skipped
  let w := w.mapLanes sel.mask (fun _ l => { l with passed := 0, block := .none, yieldSpan := .none })
  let w := if sel.slot = .uniform then { w with lastUni := s.clock } else { w with lastLane := s.clock }
  let w := { w with matchSkip := w.matchSkip &&& ~~~sel.mask, dbgStep := false }
  ({ s with sel := sel, prior := some (s.before sel) }.setWave sel.key w).occupy sel

/-- An issue of a clock in which a higher-ranked one of the wave has trapped: it completes unless it would trap too, and then is not
performed (R25). t is what it comes to as if nothing had trapped; a region that it aborts (R244) is no trap. -/
def State.afterTrap (s : State) (sel : Sel) : Res → Res
  | .next t =>
    let k := sel.key
    let went := (t.team (s.wave k).team).rgnatt = (s.team (s.wave k).team).rgnatt && t.hasWave k
    if went && (t.wave k).handler then .next (s.modWave k (fun w => w.countPass sel.mask))
    else if went then .next (t.modWave k (fun w => { w with handler := true }))
    else .next t
  | r => r

/-- Run one issue of a clock (R22, R25): act is what the fetched word does. A second path falls back with the wave into a register-grow
stall. -/
def State.runSel (s : State) (sel : Sel) (act : Fetched → State → Res) : Res :=
  let w := s.wave sel.key
  if !s.hasWave sel.key || (sel.slot = .pair && w.growStall) then .next s
  else if sel.slot = .idleLane || sel.slot = .idleUniform then .next (s.setWave sel.key (w.passOver sel.skipped))
  else
    let t := (s.prepare sel).fetchMark w.ctx sel.pc
    if w.handler && !(s.before sel).handler then
      s.afterTrap sel (act (s.fetch w.ctx sel.pc) (t.modWave sel.key (fun x => { x with handler := false })))
    else act (s.fetch w.ctx sel.pc) t

/-- An accident befalls the module. A parity bit disagrees with its word, or agrees again, after a flip (R174; log 69: DEDUCED). -/
def State.suffer (s : State) : Accident → State
  | .row core place lane =>
    let hit := fun (r : Row) => if r.place = place then { r with par := r.par ^^^ (1#32 <<< lane) } else r
    { s with waves := s.waves.map (fun p => if p.1.core = core then (p.1, { p.2 with rows := p.2.rows.map (fun r => (r.1, hit r.2)) }) else p) }
  | .scratch core word =>
    let hit := fun (x : Team) => x.resident && x.core = core && x.spBase * 256 ≤ word && word < x.spBase * 256 + x.spSize / 4
    let flip := fun (x : Team) (a : Nat) => if x.spPar.contains a then x.spPar.filter (· ≠ a) else insertSorted x.spPar a
    { s with teams := s.teams.map (fun p => if hit p.2 then (p.1, { p.2 with spPar := flip p.2 (word - p.2.spBase * 256) }) else p) }
  | .held team va => s.modTeam team (fun x => { x with region := x.region.map (fun r => { r with struck := insertSorted r.struck va }) })
  | .array u => { s with upsets := s.upsets ++ [u] }
  | .heat core temp limit => s.modCore core (fun c => { c with
      temp := temp
      tempLimit := limit
      hotSince := if limit < temp then some (c.hotSince.getD s.clock) else none })

/-- The accidents that are due: those at the front of the list with no clock left. -/
def State.sufferAll (s : State) : List (Nat × Accident) → State
  | (0, a) :: rest => (s.suffer a).sufferAll rest
  | l => { s with accidents := l }

/-- One arithmetic clock passes; the heads of the agenda and of the accidents come one clock nearer. -/
def State.tick (s : State) : State :=
  let near := fun (n : Nat) => n - 1
  let s := { s with clock := s.clock + 1, agenda := match s.agenda with
      | [] => []
      | d :: t => { d with delay := near d.delay } :: t }
  match s.accidents with
  | [] => s
  | (n, a) :: t => s.sufferAll ((near n, a) :: t)

/-- A clock's issues: they are chosen together, then run one after the other. -/
def State.startClock (s : State) : State := { s.tick with pending := s.choices, prior := none }

/-- The first of the issues of the clock that is still to run. -/
def State.runPending (s : State) (act : Fetched → State → Res) : Res :=
  match s.pending with
  | [] => .next s
  | sel :: rest => State.runSel { s with pending := rest } sel act

end Sys2Proof.Machine
end

