-- ==== Sys2Proof/Machine/Memory.lean ====
section
/-! DEFINITION. Global memory from the core's side: buffer records (spec/09 R178, R179), from index to access (R181 to R183), loads and
stores (R184 to R186), acquire loads and release stores (R187), RECLD (R180), waits (R195, R196), fences (R197), and how they complete (R193). -/

namespace Sys2Proof.Machine

/-! ### Buffer records (R178, R179) -/

namespace Rec
def base (r : BitVec 128) : Nat := (r.extractLsb' 0 56).toNat
def readable (r : BitVec 128) : Bool := r.getLsbD 56
def writable (r : BitVec 128) : Bool := r.getLsbD 57
def foob (r : BitVec 128) : Bool := r.getLsbD 58
def fab (r : BitVec 128) : Bool := r.getLsbD 59
def swz (r : BitVec 128) : Nat := (r.extractLsb' 60 4).toNat
def extent (r : BitVec 128) : Nat := (r.extractLsb' 64 32).toNat
def width (r : BitVec 128) : Nat := (r.extractLsb' 64 16).toNat
def height (r : BitVec 128) : Nat := (r.extractLsb' 80 16).toNat
def stride (r : BitVec 128) : Nat := (r.extractLsb' 96 16).toNat
/-- R179. -/
def invalid (r : BitVec 128) : Bool :=
  stride r = 0 || 4 ≤ swz r || r.extractLsb' 112 16 ≠ 0 || (swz r = 2 && base r % 128 ≠ 0)
    || (swz r = 3 && (width r = 0 || height r = 0))
/-- R181 step 2. -/
def outOfBounds (r : BitVec 128) (e : Nat) : Bool :=
  if swz r = 3 then width r ≤ e % 65536 || height r ≤ e / 65536 else extent r ≤ e
/-- The swizzle function on a byte offset (R182); mode 3 uses the element index alone. -/
def place (r : BitVec 128) (lane e o : Nat) : Nat :=
  match swz r with
  | 0 => o
  | 1 => o / 1024 * 1024 + (o / 128 % 8 ^^^ o / 1024 % 8) * 128 + o % 128
  | 2 => o / 4 * 128 + 4 * lane + o % 4
  | _ =>
    let x := e % 65536
    let y := e / 65536
    64 * stride r * (y / 8 * ((width r + 7) / 8) + x / 8) + stride r * (8 * (y % 8) + x % 8)
/-- The address of an element (R181 steps 3 and 4). -/
def addr (r : BitVec 128) (lane e : Nat) : Nat := va56 (base r + place r lane e (e * stride r))
/-- The addresses of the bytes of an access; in mode 2 each word of a wider access is placed on its own. -/
def bytes (r : BitVec 128) (lane e width : Nat) : List Nat :=
  (List.range width).map (fun j =>
    if swz r = 2 then va56 (base r + place r lane e (e * stride r + j / 4 * 4) + j % 4)
    else va56 (addr r lane e + j))
/-- The alignment an address must have (R181). -/
def align (r : BitVec 128) (width : Nat) : Nat := if swz r = 2 then min width 4 else width
end Rec

/-! ### From index to access (R181, R183) -/

/-- The element index of a lane: exact in 33 bits. -/
def Wave.elem (w : Wave) (a : BitVec 6) (imm : Nat) (i : Fin 32) : Nat := (w.vsrc a 0 i).toNat + imm

/-- Checks 1 to 5 of R183 for the whole path. (Log 15: DEDUCED.) TADDR of ILLEGAL_OPERAND and of POISON, for which the table gives none, is 0.
(Log 71: DESIGN CHOICE.) -/
def State.accessChecks (s : State) (a : BitVec 6) (br : BitVec 4) (imm width : Nat) (acc : Access) : List (Option TrapReq) :=
  let w := s.cur
  let r := w.brec br
  let path := s.sel.mask
  let bad := if w.bPois.getLsbD br.toNat then path else path &&& w.vsrcPois a
  let oob := path &&& maskOf (fun i => Rec.outOfBounds r (w.elem a imm i))
  let mis := path &&& ~~~oob &&& maskOf (fun i => Rec.addr r i.val (w.elem a imm i) % Rec.align r width ≠ 0)
  let permBad := (acc ≠ .write && !Rec.readable r) || (acc.writes && !Rec.writable r)
  [ s.check (Rec.invalid r) causeIllegalOperand path 0,
    s.check (bad ≠ 0) causePoison bad 0,
    if permBad then some ⟨causeProt, false, s.sel.pc, path, BitVec.ofNat 64 (Rec.base r), BitVec.ofNat 32 (0x10000 + br.toNat)⟩ else none,
    if oob ≠ 0 && Rec.foob r then
      some ⟨causeBounds, false, s.sel.pc, oob, BitVec.ofNat 64 (((lowestLane oob).map (w.elem a imm)).getD 0), br.setWidth 32⟩
    else none,
    s.check (mis ≠ 0) causeMisalign mis (BitVec.ofNat 64 (((lowestLane mis).map (fun i => Rec.addr r i.val (w.elem a imm i))).getD 0)) ]

/-- The lanes of the path in bounds, with the byte addresses of their access. -/
def State.accessLanes (s : State) (a : BitVec 6) (br : BitVec 4) (imm width : Nat) : List (Fin 32 × List Nat) :=
  let w := s.cur
  let r := w.brec br
  ((maskLanes s.sel.mask).filter (fun i => !Rec.outOfBounds r (w.elem a imm i))).map (fun i => (i, Rec.bytes r i.val (w.elem a imm i) width))

/-- The virtual lines that a list of lane accesses touches (R181 step 5). -/
def linesOf (l : List (Fin 32 × List Nat)) : List Nat := ((l.flatMap Prod.snd).map lineAddr).dedup

/-- How an access stands toward the L1: a hit needs no translation (R356). -/
def State.needsXlat (s : State) (core ctx team : Nat) (acc : Access) (bypass : Bool) (vline : Nat) (vas : List Nat) : Bool :=
  if bypass then true
  else match acc with
    | .read => (vas.filter (fun v => lineAddr v = vline)).any (fun v => (s.l1Byte core ctx team v).isNone)
    | .write =>
      let held := if s.regionOpen team then some team else none
      match (s.core core).line ctx vline held with
      | some l => !(l.w && l.d)
      | none => true
    | _ => true

/-- A line as translated, or as its L1 copy stands. -/
structure LineX where
  vline : Nat
  x : Option Xlat
  deriving DecidableEq, Repr

/-- What an access comes to once its lines are translated (R359, R360). -/
inductive Prep where
  | trap (t : TrapReq)
  | page (va access : Nat)
  | migrating (va level : Nat) (fails : LaneMask)
  | ok (lines : List LineX)

def lineX (ls : List LineX) (va : Nat) : Option Xlat := (ls.find? (fun l => l.vline = lineAddr va)).bind LineX.x

/-- Translate the lines of an access and pick the fault of the lowest failing lane; the mask holds the lanes whose lines met the
same fault (R360). fab: the record may reach the fabric window (R181 step 6). (Log 15: DEDUCED.) -/
def State.prepLines (s : State) (acc : Access) (bypass fab : Bool) (br : Nat) (lanes : List (Fin 32 × List Nat)) : Prep :=
  let k := s.sel.key
  let w := s.cur
  let vas := lanes.flatMap Prod.snd
  let ls : List LineX := (linesOf lanes).map (fun v =>
    ⟨v, if s.needsXlat k.core w.ctx w.team acc bypass v vas then some (s.translate w.ctx v acc) else none⟩)
  let failing := fun (va : Nat) => match lineX ls va with
    | some x => if x.bad then some x else none
    | none => none
  let fabBad := fun (va : Nat) => match lineX ls va with
    | some (.ok pa _ _) => !fab && s.isFabric pa
    | _ => false
  match lanes.find? (fun l => l.2.any (fun v => (failing v).isSome)) with
  | some (_, vs) =>
    let va := (vs.find? (fun v => (failing v).isSome)).getD 0
    let x := failing va
    let mask := lanes.foldl (fun m l => if l.2.any (fun v => failing v = x) then m ||| (1#32 <<< l.1.val) else m) 0
    match x with
    | some (.fault cause reason level) => .trap ⟨cause, false, s.sel.pc, mask, BitVec.ofNat 64 va, xlatInfo reason level acc⟩
    | some (.noPage level) =>
      if w.refused.contains (va / 65536) then .trap ⟨causePageFault, false, s.sel.pc, mask, BitVec.ofNat 64 va, xlatInfo 0 level acc⟩
      else .page va acc.code
    | some (.migrating level) => .migrating va level mask
    | _ => .ok ls
  | none =>
    match lanes.find? (fun l => l.2.any fabBad) with
    | some (_, vs) =>
      let mask := lanes.foldl (fun m l => if l.2.any fabBad then m ||| (1#32 <<< l.1.val) else m) 0
      .trap ⟨causeProt, false, s.sel.pc, mask, BitVec.ofNat 64 ((vs.find? fabBad).getD 0), BitVec.ofNat 32 (0x10000 + br)⟩
    | none => .ok ls

/-- The wave meets a page with no valid entry: it keeps its state at the faulting instruction and runs ahead as a scout (R361). -/
def State.enterScout (s : State) (va access : Nat) (dests : List Nat) (recDest : Option Nat) : State :=
  let w := s.cur
  let sc : Scout := ⟨w, s.sel.mask, s.sel.pc, 0, [(va / 65536, access)], [], dests.map (fun n => (n, s.sel.mask)), [], 0, 0,
    (match recDest with
      | some b => 1#16 <<< b
      | none => 0)⟩
  { s.advance with scouts := assocSet s.scouts s.sel.key sc }

/-- A migrating page: the path waits in place and retries with back-off from 256 ns (R365). -/
def State.waitMigrating (s : State) (va level : Nat) (acc : Access) (fails : LaneMask) : State :=
  s.waitFor (.migrating s.clock (s.clock + 384) 384 va level acc.code fails)

/-- The walker's marks of every line that was translated (R358), and the wave's refusals spent. -/
def State.marked (s : State) (ls : List LineX) (acc : Access) : State :=
  let s := ls.foldl (fun s l => match l.x with
    | some (.ok _ _ ea) => s.markAD ea acc.writes
    | _ => s) s
  s.modCur (fun w => { w with refused := [] })

/-- Run an access once its lines translate; otherwise trap, scout or wait. -/
def State.withLines (s : State) (acc : Access) (bypass fab : Bool) (br : Nat) (lanes : List (Fin 32 × List Nat)) (dests : List Nat)
    (recDest : Option Nat) (effect : State → List LineX → State) : Res :=
  match s.prepLines acc bypass fab br lanes with
  | .trap t => .next ((s.modCur (fun w => { w with refused := [] })).trap s.sel.key t)
  | .page va a => .next (s.enterScout va a dests recDest)
  | .migrating va l m => .next (s.waitMigrating va l acc m)
  | .ok ls => .next (effect (s.marked ls acc) ls)

/-! ### Where the bytes of an access are -/

/-- The page entry of a translated line, when it was translated. -/
def entryOf (ls : List LineX) (va : Nat) : Option (BitVec 64) :=
  match lineX ls va with
  | some (.ok _ e _) => some e
  | _ => none
def mtypeOf (ls : List LineX) (va : Nat) : Nat := ((entryOf ls va).map Pte.mtype).getD 0
/-- The physical line of a virtual line. -/
def State.plineOf (s : State) (core ctx team : Nat) (ls : List LineX) (vline : Nat) : Nat :=
  match lineX ls vline with
  | some (.ok pa _ _) => lineAddr pa
  | _ =>
    match (s.core core).line ctx vline (some team), (s.core core).line ctx vline none with
    | some l, _ => l.pline
    | none, some l => l.pline
    | none, none => 0

/-- A byte of a release store of a wave that is held back: what the wave's loads through the L1 see of it (R323). -/
def State.releaseByte (s : State) (k : WaveKey) (pa : Nat) : Option MByte :=
  (s.net.filter (fun r => r.key = k && s.heldBack r)).reverse.findSome? (fun r => match r.kind with
    | .write bs _ => assocGet bs.reverse pa
    | _ => none)

/-- A byte as an access of a wave finds it at issue: on a discarded page zero (R364), on a poisoned page its value with poison (R366); in the L1
for a cached access, its own store still held back before that; for a bypassing one a dirty or held byte of its own (R186, R234); else still to
be fetched. -/
def State.findByte (s : State) (k : WaveKey) (ls : List LineX) (bypass : Bool) (va : Nat) : ByteAcc :=
  let w := s.wave k
  let pa := s.plineOf k.core w.ctx w.team ls (lineAddr va) + va % 128
  let uncached := bypass || mtypeOf ls va = 1
  let page := (entryOf ls va).map Pte.state
  if page = some 1 then ⟨va, pa, some ⟨0, false⟩⟩
  else if (entryOf ls va).any Pte.psn then ⟨va, pa, some ⟨(s.homeByte pa).val, true⟩⟩
  else match (if uncached then none else s.releaseByte k pa), s.l1Byte k.core w.ctx w.team va with
    | some b, _ => ⟨va, pa, some b⟩
    | none, some b => if uncached && !b.dirty then ⟨va, pa, none⟩ else ⟨va, pa, some ⟨b.val, b.pois⟩⟩
    | none, none => ⟨va, pa, none⟩

def State.laneAccs (s : State) (ls : List LineX) (bypass : Bool) (lanes : List (Fin 32 × List Nat)) : List LaneAcc :=
  lanes.map (fun l => ⟨l.1.val, l.2.map (s.findByte s.sel.key ls bypass), [], none, false⟩)

/-- The lines of which some byte is still to be fetched, virtual and physical. -/
def missing (accs : List LaneAcc) : List (Nat × Nat) :=
  ((accs.flatMap LaneAcc.bytes).filter (fun b => b.got.isNone)).map (fun b => (lineAddr b.va, lineAddr b.pa)) |>.dedup

/-- A read of a line, or a share in the reply of an older one of the same core and context that is pending and has seen no store of the core since
(R296); an acquire load is never merged. (Log 24: DESIGN CHOICE.) -/
def State.sendRead (s : State) (by_ : NetAgent) (k : WaveKey) (op : Nat) (line : Nat × Nat) (bypass noCopy acq : Bool) : State :=
  let ctx := (s.wave k).ctx
  let older := s.net.find? (fun r => r.by_ = by_ && r.ctx = ctx && r.vline = line.1 && r.pline = line.2
    && r.kind = .read bypass noCopy && !r.performed && !r.noShare && !r.dead)
  match older with
  | some r => if !acq && Config.mergeRead op then { s with net := s.net.map (fun x => if x = r then { x with sharers := x.sharers ++ [(k, op)] } else x) }
    else s.send by_ k op ctx line.1 line.2 (.read bypass noCopy) [] acq
  | none => s.send by_ k op ctx line.1 line.2 (.read bypass noCopy) [] acq

/-- Send the reads that an operation still needs. -/
def State.sendReads (s : State) (by_ : NetAgent) (k : WaveKey) (op : Nat) (ls : List LineX) (bypass acq : Bool) (accs : List LaneAcc) : State :=
  (missing accs).foldl (fun s l =>
    let m := mtypeOf ls l.1
    s.sendRead by_ k op l (bypass || m = 1) (m = 2) acq) s

/-! ### Held bytes and their errors (R234, R235, R240) -/

/-- The held lines of a team in its core's L1. -/
def State.heldLines (s : State) (t : Nat) : List Line := (s.core (s.team t).core).l1.filter (fun l => l.held = some t)

/-- A byte is held in the core's L1: its journal entry, if any, is superseded (R235). -/
def State.heldInL1 (s : State) (t va : Nat) : Bool := (s.heldLines t).any (fun l => l.vline = lineAddr va && (l.byte (va % 128)).isSome)
/-- The journal's entries that still stand for their bytes. -/
def State.journalOf (s : State) (t : Nat) : List (Nat × Nat × MByte) :=
  (((s.team t).region.map Region.journal).getD []).filter (fun j => !s.heldInL1 t j.1)

/-- An uncorrectable ECC error found in a held byte of a team aborts its region (R240); its ERROR record has unit 10 for a byte in the
journal, and for one in the L1, for which R445 lists none, a free code (log 7: DESIGN CHOICE). -/
def State.heldStruck (s : State) (t va : Nat) : State :=
  let x := s.team t
  let (code, s) := if s.heldInL1 t va then s.freeWord else (10, s)
  let pa := ((s.journalOf t).find? (fun j => j.1 = va)).elim
    ((s.heldLines t).find? (fun l => l.vline = lineAddr va) |>.elim 0 (fun l => l.pline + va % 128)) (fun j => j.2.1)
  (s.logRec 0x0003 false (placeWord x.ctx x.core) false 0
    [code, 0, BitVec.ofNat 32 pa, BitVec.ofNat 32 (pa / 2 ^ 32), x.rgnatt]).abortDetected t
/-- A byte among some that such an error has struck. -/
def State.struckHeld (s : State) (t : Nat) (vas : List Nat) : Option Nat :=
  if s.regionOpen t then ((s.team t).region.map Region.struck).bind (fun l => l.find? vas.contains) else none

/-- Issue a load-like operation over translated lines: adopt the dirty bytes it reads (R331), count it, send its misses; .STREAM puts its lines
first for replacement. -/
def State.issueLoad (s : State) (ls : List LineX) (bypass stream acq : Bool) (lanes : List (Fin 32 × List Nat)) (mk : List LaneAcc → OpKind) : State :=
  let k := s.sel.key
  let vas := lanes.flatMap Prod.snd
  match s.struckHeld s.cur.team vas with
  | some va => s.heldStruck s.cur.team va
  | none =>
    let accs := s.laneAccs ls bypass lanes
    let s := s.adopt k.core s.cur.ctx vas s.cur.uid
    let s := if stream then s.modCore k.core (fun c => c.toFront s.cur.ctx (linesOf lanes)) else s
    let op := s.nextId
    let s := s.issueOp .ld (mk accs)
    (s.sendReads (.core k.core) k op ls bypass acq accs).advance

/-! ### Loads and stores (R184 to R186) -/

/-- A VM load of a width into n registers from D. -/
def State.vmLoad (s : State) (f : VM) (width n : Nat) (signed : Bool) : Res :=
  let dests := vnames f.d n
  match s.laneBegin (vname f.a) 7#3 false dests [] with
  | .stop s => .next s
  | .go s _ =>
    let bypass := f.ch = 2#2
    match firstTrap (s.accessChecks f.a f.br f.imm.toNat width .read) with
    | some t => .next (s.trap s.sel.key t)
    | none =>
      let lanes := s.accessLanes f.a f.br f.imm.toNat width
      s.withLines .read bypass (Rec.fab (s.cur.brec f.br)) f.br.toNat lanes dests none (fun s ls =>
        let pool := s.pool s.sel.key.core
        let s := s.modCur (fun w => dests.foldl (fun w n => w.allocV pool n) w)
        s.issueLoad ls bypass (f.ch = 1#2) false lanes (fun accs => .load f.d.toNat width signed f.ch none none accs))

/-- LDB (R184). -/
def execLdb (f : VM) (s : State) : Res := s.vmLoad f 1 1 true
/-- LDBU (R184). -/
def execLdbu (f : VM) (s : State) : Res := s.vmLoad f 1 1 false
/-- LDH (R184). -/
def execLdh (f : VM) (s : State) : Res := s.vmLoad f 2 1 true
/-- LDHU (R184). -/
def execLdhu (f : VM) (s : State) : Res := s.vmLoad f 2 1 false
/-- LDW (R184). -/
def execLdw (f : VM) (s : State) : Res := s.vmLoad f 4 1 false
/-- LDD (R184). -/
def execLdd (f : VM) (s : State) : Res := s.vmLoad f 8 2 false
/-- LDQ (R184). -/
def execLdq (f : VM) (s : State) : Res := s.vmLoad f 16 4 false

/-- The bytes that a lane stores: width bytes of the registers from D, or of its lane number (R65), each with its word's poison. -/
def Wave.storeBytes (w : Wave) (d : BitVec 6) (width : Nat) (i : Fin 32) : List MByte :=
  (List.range width).map (fun j =>
    let f := if d = 62#6 then d else d + BitVec.ofNat 6 (j / 4)
    ⟨(w.vsrc f 0 i).extractLsb' (8 * (j % 4)) 8, (w.vsrcPois f).getLsbD i.val⟩)

/-- The bytes a store writes in one line, a higher lane's after a lower one's (R184), by offset. -/
def lineBytes (vline : Nat) (ws : List (Nat × MByte)) : List (Nat × MByte) :=
  (ws.filter (fun b => lineAddr b.1 = vline)).map (fun b => (b.1 % 128, b.2))

/-- What the lanes of a store write, and where. -/
def State.storeAccs (s : State) (ls : List LineX) (lanes : List (Fin 32 × List Nat)) (d : BitVec 6) (width : Nat) : List LaneAcc :=
  let w := s.cur
  lanes.map (fun l => ⟨l.1.val, l.2.map (fun v => ⟨v, s.plineOf s.sel.key.core w.ctx w.team ls (lineAddr v) + v % 128, none⟩),
    w.storeBytes d width l.1, none, false⟩)
/-- The bytes that lane accesses write, lanes ascending. -/
def writesOf (accs : List LaneAcc) : List (Nat × MByte) := accs.flatMap (fun a => (a.bytes.map ByteAcc.va).zip a.data)

/-- The lanes of accesses with a byte in a line, of those still to be fetched where some are. -/
def lanesOnLine (accs : List LaneAcc) (vline : Nat) : LaneMask :=
  accs.foldl (fun m a => if a.bytes.any (fun b => lineAddr b.va = vline ∧ b.got.isNone) then m ||| (1#32 <<< a.lane) else m) 0#32
/-- The address of the lowest of some lanes. -/
def laneAddr (accs : List LaneAcc) (m : LaneMask) : Nat :=
  (((lowestLane m).bind (fun i => accs.find? (fun a => a.lane = i.val))).bind (fun a => a.bytes.head?)).elim 0 ByteAcc.va

/-- Of a store whose own line has found the journal full, the lanes and the address are known (R196, R235). -/
def State.overfullLanes (s before : State) (k : WaveKey) (accs : List LaneAcc) : State :=
  let old := (before.wave k).pend
  s.modWave k (fun w => { w with pend := w.pend.map (fun p =>
    let m := lanesOnLine accs (lineAddr p.fail.addr.toNat)
    if old.contains p || m = 0 || p.fail.cause ≠ causeRgnViolation then p
    else { p with fail := { p.fail with lanes := m, addr := BitVec.ofNat 64 (laneAddr accs m) } }) })

/-- Bytes that a wave stores in a line over those of a release store of its own that is held back: of two such writes the latest is kept (R325). An
access of the release store that they cover is dropped; one that they touch takes them, and their operation shares its request. What is
left to be stored. -/
def State.overRelease (s : State) (k : WaveKey) (op pline : Nat) (bs : List (Nat × MByte)) : State × List (Nat × MByte) :=
  (s.net.filter (fun r => r.key = k && r.pline = pline && s.heldBack r)).foldl (fun acc r =>
    match r.kind, ((s.wave k).op r.op).map Op.kind with
    | .write old _, some (.release _ accs _) =>
      let new := fun (pa : Nat) => assocGet acc.2.reverse (pa - pline)
      let all := accs.map (fun a => a.bytes.map ByteAcc.pa)
      let covered := (all.filter (fun a => a.all (fun pa => lineAddr pa = pline && (new pa).isSome))).flatten
      let taken := (all.flatten.filter (fun pa => lineAddr pa = pline && (new pa).isSome)).filter (fun pa => !covered.contains pa)
      let bytes := (old.filter (fun b => !covered.contains b.1)).map (fun b => if taken.contains b.1 then (b.1, (new b.1).getD b.2) else b)
      let t := if bytes.isEmpty then acc.1.dropReq r.id
        else acc.1.setReq { r with kind := .write bytes [], sharers := if taken.isEmpty then r.sharers else r.sharers ++ [(k, op)] }
      (t, acc.2.filter (fun b => !taken.contains (pline + b.1)))
    | _, _ => acc) (s, bs)

/-- A line's bytes stored by a wave in the L1, or held (R186, R233). -/
def State.storeL1 (s : State) (k : WaveKey) (op vline pline : Nat) (e : Option (BitVec 64)) (bs : List (Nat × MByte)) (front : Bool) : State :=
  let w := s.wave k
  let r := if s.regionOpen w.team then (s, bs) else s.overRelease k op pline bs
  if r.2.isEmpty then r.1 else r.1.l1Write k.core w.ctx vline pline e r.2 w front

/-- The stores of an instruction over translated lines: into the L1, or held, or written at the home (R186, R233). -/
def State.issueStore (s : State) (ls : List LineX) (hint : BitVec 2) (accs : List LaneAcc) : State :=
  let k := s.sel.key
  let w := s.cur
  let writes := writesOf accs
  let open_ := s.regionOpen w.team
  let before := s
  let op := s.nextId
  let s := s.issueOp .st (.store (hint = 2#2) (accs.map (fun a => { a with data := [] })))
  let s := ((writes.map (fun b => lineAddr b.1)).dedup).foldl (fun s v =>
    let pline := s.plineOf k.core w.ctx w.team ls v
    let bs := lineBytes v writes
    if !open_ && (hint = 2#2 || mtypeOf ls v = 1) then
      let s := s.writeBack k.core w.ctx v true
      let (s, bs) := s.overRelease k op pline bs
      if bs.isEmpty then s
      else s.send (.core k.core) k op w.ctx v pline (.write (bs.map (fun b => (pline + b.1, b.2))) []) [] false
    else s.storeL1 k op v pline (entryOf ls v) bs (hint = 1#2)) s
  let s := s.overfullLanes before k accs
  (if (s.opReqs k op).isEmpty then s.modCur (fun w => w.finish op none) else s).advance

/-- A VM store of a width from the registers at D. -/
def State.vmStore (s : State) (f : VM) (width n : Nat) : Res :=
  match s.laneBegin (vname f.a ++ vnames f.d n) 7#3 false [] [] with
  | .stop s => .next s
  | .go s _ =>
    match firstTrap (s.accessChecks f.a f.br f.imm.toNat width .write) with
    | some t => .next (s.trap s.sel.key t)
    | none =>
      let lanes := s.accessLanes f.a f.br f.imm.toNat width
      s.withLines .write (f.ch = 2#2) (Rec.fab (s.cur.brec f.br)) f.br.toNat lanes [] none (fun s ls =>
        s.issueStore ls f.ch (s.storeAccs ls lanes f.d width))

/-- STB (R184). -/
def execStb (f : VM) (s : State) : Res := s.vmStore f 1 1
/-- STH (R184). -/
def execSth (f : VM) (s : State) : Res := s.vmStore f 2 1
/-- STW (R184). -/
def execStw (f : VM) (s : State) : Res := s.vmStore f 4 1
/-- STD (R184). -/
def execStd (f : VM) (s : State) : Res := s.vmStore f 8 2
/-- STQ (R184). -/
def execStq (f : VM) (s : State) : Res := s.vmStore f 16 4

/-! ### Acquire loads, release stores, RECLD (R180, R187) -/

/-- LDAQ (R187): at wave and team scope from the L1, at crew scope and wider from the home. (Log 20: DEDUCED.) -/
def execLdaq (f : VMA) (s : State) : Res :=
  let n := if f.sz then 2 else 1
  let dests := vnames f.d n
  match s.laneBegin (vname f.a) 7#3 false dests [] with
  | .stop s => .next s
  | .go s _ =>
    let bypass := 2 ≤ f.sc.toNat
    match firstTrap (s.accessChecks f.a f.br f.imm.toNat (4 * n) .read) with
    | some t => .next (s.trap s.sel.key t)
    | none =>
      let lanes := s.accessLanes f.a f.br f.imm.toNat (4 * n)
      s.withLines .read bypass (Rec.fab (s.cur.brec f.br)) f.br.toNat lanes dests none (fun s ls =>
        let pool := s.pool s.sel.key.core
        let s := s.modCur (fun w => dests.foldl (fun w n => w.allocV pool n) w)
        s.issueLoad ls bypass false true lanes (fun accs => .load f.d.toNat (4 * n) false 0#2 (some f.sc.toNat) none accs))

/-- The effect of an accepted STRL: its lines' dirty bytes go home, and its writes stand behind them in line, held back until what precedes them
is pushed (R187); on an uncached page at the home at any scope. In an open region it is held like a plain store (R233). -/
def State.issueRelease (s : State) (ls : List LineX) (scope : Nat) (accs : List LaneAcc) : State :=
  let k := s.sel.key
  let w := s.cur
  if s.regionOpen w.team then s.issueStore ls 0#2 accs
  else
    let writes := writesOf accs
    let scope := if writes.any (fun b => mtypeOf ls b.1 = 1) then max 2 scope else scope
    let op := s.nextId
    let s := s.issueOp .st (.release scope (accs.map (fun a => { a with data := [] })) .waits)
    (((writes.map (fun b => lineAddr b.1)).dedup).foldl (fun s v =>
      let pline := s.plineOf k.core w.ctx w.team ls v
      let s := if scope < 2 then s else s.writeBack k.core w.ctx v true
      s.send (.core k.core) k op w.ctx v pline (.write ((lineBytes v writes).map (fun b => (pline + b.1, b.2))) []) [] false) s).advance

/-- STRL (R187): counted in ST; STORE_ACKNOWLEDGE makes its pushes and performs it after them. -/
def execStrl (f : VMA) (s : State) : Res :=
  let n := if f.sz then 2 else 1
  match s.laneBegin (vname f.a ++ vnames f.d n) 7#3 false [] [] with
  | .stop s => .next s
  | .go s _ =>
    match firstTrap (s.accessChecks f.a f.br f.imm.toNat (4 * n) .write) with
    | some t => .next (s.trap s.sel.key t)
    | none =>
      let lanes := s.accessLanes f.a f.br f.imm.toNat (4 * n)
      s.withLines .write (2 ≤ f.sc.toNat) (Rec.fab (s.cur.brec f.br)) f.br.toNat lanes [] none (fun s ls =>
        s.issueRelease ls f.sc.toNat (s.storeAccs ls lanes f.d (4 * n)))

/-- RECLD (R180): sixteen bytes through no record, read once for the whole path; poison of the address pair raises POISON (R189). -/
def execRecld (f : UI) (s : State) : Res :=
  let w := s.cur
  let a := va56 ((w.spair f.a).toNat % 2 ^ 56 + 16 * f.imm.toNat)
  match firstTrap [ s.check (w.spairPois f.a) causePoison s.sel.mask 0,
                    s.check (a % 16 ≠ 0) causeMisalign s.sel.mask (BitVec.ofNat 64 a) ] with
  | some t => .next (s.trap s.sel.key t)
  | none =>
    let lanes := (maskLanes s.sel.mask).map (fun i => (i, (List.range 16).map (fun j => va56 (a + j))))
    s.withLines .read false true 0 lanes [] (some (f.d.toNat % 16)) (fun s ls =>
      s.issueLoad ls false false false (lanes.take 1) (fun accs => .load 63 16 false 0#2 none (some (f.d.toNat % 16)) accs))

/-! ### Arrival of loads (R185, R193) -/

/-- The words of an access in order, each with the poison of its bytes. -/
def wordsOf (bs : List MByte) : Nat → List (Word × Bool)
  | 0 => []
  | n + 1 =>
    let b := bs.take 4
    (leWord (b.map MByte.val), b.any MByte.pois) :: wordsOf (bs.drop 4) n

/-- A loaded value extended to its register (R184). -/
def extend (width : Nat) (signed : Bool) (w : Word) : Word :=
  if signed then (match width with
    | 1 => (w.setWidth 8).signExtend 32
    | 2 => (w.setWidth 16).signExtend 32
    | _ => w) else w

/-- A lane's bytes once all have arrived. -/
def LaneAcc.value (a : LaneAcc) : Option (List MByte) := a.bytes.mapM ByteAcc.got

/-- The value of a load goes into its lanes; out-of-bounds lanes of the path get zero, failed lanes stay unwritten (R183, R196). (Log 19: DEDUCED.) -/
def State.writeLoad (s : State) (k : WaveKey) (o : Op) (dst width : Nat) (signed : Bool) (accs : List LaneAcc) : State :=
  if 62 ≤ dst then s
  else
    let n := (width + 3) / 4
    let vals : List (Nat × List (Word × Bool)) := accs.filterMap (fun a => a.value.map (fun bs => (a.lane, wordsOf bs n)))
    let bounds := accs.foldl (fun m a => m ||| (1#32 <<< a.lane)) 0#32
    let got := vals.foldl (fun m v => m ||| (1#32 <<< v.1)) 0#32
    let m := (got ||| (o.lanes &&& ~~~bounds)) &&& (s.wave k).live
    (List.range n).foldl (fun s j =>
      s.lateV k (dst + j) m
        (fun i => extend width signed ((((assocGet vals i.val).bind (fun l => l[j]?)).map Prod.fst).getD 0))
        (maskOf (fun i => (((assocGet vals i.val).bind (fun l => l[j]?)).map Prod.snd).getD false))) s

/-- Every request of an operation has been answered. -/
def State.replied (s : State) (k : WaveKey) (op : Nat) : Bool := (s.opReqs k op).isEmpty

/-- The record that RECLD brings: invalid ones are loaded all the same and fail the operation (R180), with TADDR 0, for which the spec gives no
value. (Log 71: DESIGN CHOICE.) -/
def State.loadRecord (s : State) (k : WaveKey) (o : Op) (b : Nat) (accs : List LaneAcc) : State × Option Failure :=
  match accs.head?.bind LaneAcc.value with
  | none => (s, o.fail)
  | some bs =>
    let r := BitVec.ofNat 128 (leNat (bs.map MByte.val))
    let s := s.modWave k (fun w => w.setB (BitVec.ofNat 4 b) r (bs.any MByte.pois))
    (s, match o.fail with
      | some f => some f
      | none => if Rec.invalid r then some ⟨causeIllegalOperand, o.lanes, 0, o.pc, false⟩ else none)

/-- LOAD_DATA_ARRIVAL (R185, R193): a load whose every line has answered writes its lanes and completes; an acquire load then makes
its invalidations (R187). ATOM that returns values arrives the same way in its own event arm of the operation. -/
def State.arriveLoad (s : State) (k : WaveKey) (o : Op) : State :=
  match o.kind with
  | .load dst width signed _ acq rec_ accs =>
    let (s, fail) := match rec_ with
      | some b => s.loadRecord k o b accs
      | none => (s.writeLoad k o dst width signed accs, o.fail)
    let s := s.modWave k (fun w => w.finish o.id fail)
    match acq with
    | some sc => s.acquire k.core sc (fun _ => true)
    | none => s
  | _ => s

/-! ### Waits (R195, R196) and delivery of failures -/

def waitPairs (f : UK) (x : Bool) : List (Class × Nat) :=
  let t := [f.t0.toNat, f.t1.toNat, f.t2.toNat, f.t3.toNat]
  ((if x then [Class.nm, .rs, .fx] else [.ld, .st, .cp, .tl]).zip t).filter (fun p => p.2 ≠ 31)

def Wave.waitMet (w : Wave) (pairs : List (Class × Nat)) : Bool := pairs.all (fun p => w.count p.1 ≤ p.2)

/-- The failure due: the oldest of the covered classes; one that is asynchronous is held back at handler level (R152, R196). -/
def Wave.dueFailure (w : Wave) (classes : List Class) : Option Pending :=
  (w.pend.filter (fun p => classes.contains p.cls && (p.fail.precise || !w.handler))).foldl (fun best p =>
    match best with
    | none => some p
    | some b => if p.op < b.op then some p else some b) none

/-- A met wait at pc delivers the failure due there, if any (R196, R294); otherwise its threads go on. -/
def State.completeWait (s : State) (k : WaveKey) (lanes : LaneMask) (pc next : Word) (pairs : List (Class × Nat)) : State :=
  let w := s.wave k
  match w.dueFailure (pairs.map Prod.fst) with
  | none => s.modWave k (fun w => w.moveTo lanes next)
  | some p =>
    let s := s.modWave k (fun w => { w with pend := w.pend.filter (fun x => x != p) })
    let s := if p.fail.precise then s else s.modWave k (fun w => w.moveTo lanes next)
    s.trap k ⟨p.fail.cause, !p.fail.precise, if p.fail.precise then pc else next, p.fail.lanes, p.fail.addr, p.fail.info⟩

/-- WAIT and WAITX: go on at once when the thresholds are met, else wait in place. -/
def State.waitOn (s : State) (pairs : List (Class × Nat)) : Res :=
  if s.cur.waitMet pairs then .next (s.completeWait s.sel.key s.sel.mask s.sel.pc s.sel.next pairs)
  else .next (s.waitFor (.counters pairs))

/-- WAIT (R195). -/
def execWait (f : UK) (s : State) : Res := s.waitOn (waitPairs f false)
/-- WAITX (R195). -/
def execWaitx (f : UK) (s : State) : Res := s.waitOn (waitPairs f true)

/-- A wait that may complete: its threads are not stopped in trap handling (R151). -/
def Wave.waitRuns (w : Wave) (wt : Wait) : Bool := wt.lanes &&& w.laneMask (fun l => l.stopped) = 0

/-- Unblock a wait's threads where they stand. -/
def Wave.releaseWait (w : Wave) (wt : Wait) : Wave :=
  { w.blockAs wt.lanes .none with waits := w.waits.filter (fun x => x != wt), swapCandidate := false }

/-- WAIT_COMPLETE (R195). -/
def execWaitComplete (w : WaveKey) (pc : Word) (s : State) : Res :=
  let x := s.wave w
  match x.waitAt pc with
  | some wt =>
    match wt.why with
    | .counters pairs =>
      if x.waitRuns wt && x.waitMet pairs then .next ((s.setWave w (x.releaseWait wt)).completeWait w wt.lanes wt.pc wt.next pairs)
      else .next s
    | _ => .next s
  | none => .next s

/-! ### Fences (R197) -/

/-- Issue an ordering action that covers every access the wave has issued. -/
def State.pushFence (s : State) (what : FenceWhat) (scope : Nat) : State :=
  let (id, s) := s.fresh
  s.modCur (fun w => { w with fences := w.fences ++ [⟨what, scope, id, none⟩] })

/-- FENCE (R197): later accesses are not ready until its action is done. (Log 23: DEDUCED.) -/
def execFence (f : UF) (s : State) : Res := .next (s.pushFence (.fence f.kind) f.sc.toNat).advance

/-- The operations of the classes that a fence covers have completed. -/
def Wave.earlierDone (w : Wave) (upTo : Nat) (classes : List Class) : Bool :=
  w.ops.all (fun o => o.done || upTo ≤ o.id || !classes.contains o.cls)

/-- A release at a scope may push: its earlier accesses are complete and its kept remote writes acknowledged (R197, R290). -/
def State.releaseReady (s : State) (k : WaveKey) (upTo scope : Nat) : Bool :=
  (s.wave k).earlierDone upTo [.ld, .st] && (scope < 2 || s.rdcClear k.core (s.wave k))

/-- The release of a wave at a scope, as far as it has come: once it may, it pushes; mark: its pushes, those with an identity below that, are under
way; true when they have been acknowledged (R187, R197). -/
def State.releaseTo (s : State) (k : WaveKey) (upTo scope : Nat) (mark : Option Nat) : State × Option Nat × Bool :=
  match mark with
  | some m => (s, mark, !s.pushing (s.wave k).uid m [])
  | none =>
    if !s.releaseReady k upTo scope then (s, none, false)
    else
      let s := s.release k scope
      if scope < 2 || !s.pushing (s.wave k).uid s.nextId [] then (s, none, true) else (s, some s.nextId, false)

/-- The release of a wave's oldest ordering action. -/
def State.fenceRelease (s : State) (k : WaveKey) (f : Fence) : State × Bool :=
  let r := s.releaseTo k f.upTo f.scope f.pushed
  (if r.2.1 = f.pushed then r.1 else r.1.modWave k (fun w => { w with fences := { f with pushed := r.2.1 } :: w.fences.drop 1 }), r.2.2)

/-- The writes of a release store below crew scope are performed in the L1 (R187). -/
def State.releaseL1 (s : State) (k : WaveKey) (op : Nat) : State :=
  let rs := s.net.filter (fun r => r.key = k && r.op = op)
  let s := { s with net := s.net.filter (fun r => !(r.key = k && r.op = op)) }
  rs.foldl (fun s r => match r.kind with
    | .write bs _ => s.l1Write k.core r.ctx r.vline r.pline none (bs.map (fun b => (b.1 - r.pline, b.2))) (s.wave k) false
    | _ => s) s

/-- Nothing of some lines but dirty bytes stays in a core's L1, and no read of them that is under way enters it. -/
def State.staleLines (s : State) (core ctx : Nat) (vlines : List Nat) : State :=
  let s := s.modCore core (fun c => { c with l1 := (c.l1.map (fun l =>
    if l.ctx = ctx ∧ l.held = none ∧ vlines.contains l.vline then { l with bytes := l.bytes.filter (fun b => b.2.dirty) } else l)).filter (fun l => !l.bytes.isEmpty) })
  { s with net := s.net.map (fun r => if r.core = core && r.ctx = ctx && vlines.contains r.vline && !r.by_.isSlice then { r with noInstall := true, noShare := true } else r) }

/-- STORE_ACKNOWLEDGE (R187, R193): a .BYPASS store whose writes are acknowledged; a STRL one stage further: its pushes set out when what
precedes it is done, its own writes when they are acknowledged, and it completes when those are. -/
def State.ackStore (s : State) (k : WaveKey) (o : Op) : State :=
  let done := fun (s : State) => if s.replied k o.id then s.modWave k (fun w => w.finish o.id o.fail) else s
  match o.kind with
  | .store _ _ => done s
  | .release _ _ .sent => done s
  | .release scope accs (.pushes mark) =>
    if s.pushing (s.wave k).uid mark (s.heldBackLines k) then s
    else (s.modWave k (fun w => w.setOp { o with kind := .release scope accs .sent })).staleLines k.core (s.wave k).ctx
      ((accs.flatMap (fun a => a.bytes.map (fun b => lineAddr b.va))).dedup)
  | .release scope accs .waits =>
    if !s.releaseReady k o.id scope then s
    else if scope < 2 then (s.releaseL1 k o.id).modWave k (fun w => w.finish o.id o.fail)
    else
      let s := s.release k scope
      s.modWave k (fun w => w.setOp { o with kind := .release scope accs (.pushes s.nextId) })
  | _ => s

end Sys2Proof.Machine
end

