-- ==== Sys2Proof/Machine/Scratch.lean ====
section
/-! DEFINITION. The team's scratchpad (spec/09_core_memory.md R190 to R192, R199), atomic operations on it and on global memory
(R188, R57, R76, spec/21 R435), and the events in which global accesses complete (R185, R193). -/

namespace Sys2Proof.Machine

/-! ### Scratchpad bytes, words, marks -/

def Team.spWord (x : Team) (a : Nat) : Word := leWord (cellTake x.sp a 4)
/-- The words of the scratchpad that read as poisoned: marked so (R189), or with a parity bit that does not agree (R175). -/
def Team.spBad (x : Team) (word : Nat) : Bool := x.spPois.contains word || x.spPar.contains word
def Team.spBytes (x : Team) (a n : Nat) : List MByte :=
  (List.range n).map (fun i => ⟨cellGet x.sp (a + i), x.spBad ((a + i) / 4)⟩)
def Team.wordPois (x : Team) (a : Nat) : Bool := x.spBad (a / 4)
/-- Write one aligned word with its poison mark (R189) and its parity (R174). -/
def Team.putWord (x : Team) (a : Nat) (w : Word) (pois : Bool) : Team :=
  { x with sp := cellPut x.sp a (wordLe w)
           spPois := if pois then insertSorted x.spPois (a / 4) else x.spPois.filter (· ≠ a / 4)
           spPar := x.spPar.filter (· ≠ a / 4) }
/-- Write bytes; each word they touch is poisoned when a byte of it is; one that they cover whole is clean otherwise, its parity anew. -/
def Team.putBytes (x : Team) (a : Nat) (bs : List MByte) : Team :=
  let words := ((List.range bs.length).map (fun i => (a + i) / 4)).dedup
  let mine := fun (w : Nat) => (bs.zipIdx).filter (fun b => (a + b.2) / 4 = w)
  { x with sp := cellPut x.sp a (bs.map MByte.val)
           spPois := words.foldl (fun acc w =>
             if (mine w).any (fun b => b.1.pois) then insertSorted acc w
             else if (mine w).length = 4 then acc.filter (· ≠ w) else acc) x.spPois
           spPar := x.spPar.filter (fun w => (mine w).length ≠ 4) }
/-- The lowest armed object that bytes overlap (R199). -/
def Team.armedAt (x : Team) (a n : Nat) : Option Nat :=
  match x.armed.filter (fun o => o * 16 < a + n && a < o * 16 + 16) with
  | [] => none
  | o :: l => some (l.foldl min o * 16)

/-- Parity errors found in words of the scratchpad, by lane and address (R174, R175): each is logged and its word's errors counted; inside a
region the first aborts it, and the answer is true. -/
def State.scratchFound (s : State) (k : WaveKey) : List (Nat × Nat) → State × Bool
  | [] => (s, false)
  | (lane, a) :: rest =>
    let t := (s.wave k).team
    let open_ := s.regionOpen t
    let s := (s.unitError k t a).detected k 4 lane id
    if open_ then (s, true) else s.scratchFound k rest

/-- The lanes of a path read words of the scratchpad, at the addresses given for each (R174, R147 UNIT 4): an injected error falls on the
counted read, and a stored parity bit that disagrees is found. The reads, by lane and address, that give poison; whether they ended the
attempt of an open region. -/
def State.spParity (s : State) (path : LaneMask) (words : Fin 32 → List Nat) : State × List (Nat × Nat) × Bool :=
  let k := s.sel.key
  let w := s.wave k
  let hit := if path.getLsbD w.injLane.val then w.inject 4 (words w.injLane).length else (w, none)
  let injected := (hit.2.map (fun j => (w.injLane.val, ((words w.injLane)[j]?).getD 0))).toList
  let stored := (maskLanes path).flatMap (fun i => ((words i).filter (fun a => (s.team w.team).spPar.contains (a / 4))).map (fun a => (i.val, a)))
  let bad := firsts (injected ++ stored)
  let r := (s.setWave k hit.1).scratchFound k (firstOf bad)
  (r.1, bad, r.2)
where
  /-- One error for each word. -/
  firstOf (l : List (Nat × Nat)) : List (Nat × Nat) :=
    l.foldl (fun acc x => if acc.any (fun y => y.2 / 4 = x.2 / 4) then acc else acc ++ [x]) []

/-! ### VS accesses (R190, R191) -/

/-- A lane's scratchpad address: exact (R190). -/
def Wave.spAddr (w : Wave) (a : BitVec 6) (off : Nat) (i : Fin 32) : Nat := (w.vsrc a 0 i).toNat + off

/-- The checks of R189, R190 and R199, lower codes first (R443); an address from a poisoned word is not judged. -/
def State.spChecks (s : State) (a : BitVec 6) (off width : Nat) (store : Bool) : List (Option TrapReq) :=
  let w := s.cur
  let t := s.curTeam
  let path := s.sel.mask
  let pois := path &&& w.vsrcPois a
  let ad := w.spAddr a off
  let mis := path &&& ~~~pois &&& maskOf (fun i => ad i % width ≠ 0)
  let oob := path &&& ~~~pois &&& maskOf (fun i => t.spSize < ad i + width)
  let hit := path &&& maskOf (fun i => (t.armedAt (ad i) width).isSome)
  let at_ := fun (m : LaneMask) => BitVec.ofNat 64 (((lowestLane m).map ad).getD 0)
  [ s.check (mis ≠ 0) causeMisalign mis (at_ mis),
    s.check (oob ≠ 0) causeBounds oob (at_ oob),
    s.check (pois ≠ 0) causePoison pois 0,
    s.check (store && hit ≠ 0) causeBarClobber hit
      (BitVec.ofNat 64 (((lowestLane hit).bind (fun i => t.armedAt (ad i) width)).getD 0)) ]

/-- A scratchpad load of n registers. -/
def State.spLoad (s : State) (f : VI) (n : Nat) : Res :=
  match s.laneBegin (vname f.a) 7#3 false (vnames f.d n) [] with
  | .stop s => .next s
  | .go s _ =>
    match firstTrap (s.spChecks f.a f.imm.toNat (4 * n) false) with
    | some t => .next (s.trap s.sel.key t)
    | none =>
      let w := s.cur
      let t := s.curTeam
      let ad := w.spAddr f.a f.imm.toNat
      let (s, bad, aborted) := s.spParity s.sel.mask (fun i => (List.range n).map (fun j => ad i + 4 * j))
      if aborted then .next s
      else
        s.laneDone [] (fun pool x => if f.d.toNat < 62 then (List.range n).foldl (fun x j =>
          x.writeV pool (f.d.toNat + j) s.sel.mask (fun i => t.spWord (ad i + 4 * j))
            (maskOf (fun i => t.wordPois (ad i + 4 * j) || bad.contains (i.val, ad i + 4 * j)))) x else x)

/-- A scratchpad store of n registers, lanes in ascending order. -/
def State.spStore (s : State) (f : VI) (n : Nat) : Res :=
  match s.laneBegin (vname f.a ++ vnames f.d n) 7#3 false [] [] with
  | .stop s => .next s
  | .go s _ =>
    match firstTrap (s.spChecks f.a f.imm.toNat (4 * n) true) with
    | some t => .next (s.trap s.sel.key t)
    | none =>
      let w := s.cur
      .next (s.modTeam w.team (fun t => (maskLanes s.sel.mask).foldl (fun t i =>
        t.putBytes (w.spAddr f.a f.imm.toNat i) (w.storeBytes f.d (4 * n) i)) t)).advance

/-- LDSW (R190). -/
def execLdsw (f : VI) (s : State) : Res := s.spLoad f 1
/-- LDSD (R190). -/
def execLdsd (f : VI) (s : State) : Res := s.spLoad f 2
/-- LDSQ (R190). -/
def execLdsq (f : VI) (s : State) : Res := s.spLoad f 4
/-- STSW (R190). -/
def execStsw (f : VI) (s : State) : Res := s.spStore f 1
/-- STSD (R190). -/
def execStsd (f : VI) (s : State) : Res := s.spStore f 2
/-- STSQ (R190). -/
def execStsq (f : VI) (s : State) : Res := s.spStore f 4

/-! ### Atomic operations (R76, R57) -/

/-- Bytes of the location. -/
def atomWidth (aop : BitVec 4) : Nat := if aop = 10#4 || aop = 11#4 || aop = 12#4 then 8 else 4

/-- The value written: the operand's words in a and, for the compare-and-swaps, the new value in b. Floating forms round to nearest
even, never flush and raise no flag (R57). -/
def atomNew (aop : BitVec 4) (old a b : Nat) : Nat :=
  let w : Word := BitVec.ofNat 32 old
  let x : Word := BitVec.ofNat 32 a
  match aop.toNat with
  | 0 => (w + x).toNat
  | 1 => (Int32.smin w x).toNat
  | 2 => (Int32.smax w x).toNat
  | 3 => (Int32.umin w x).toNat
  | 4 => (Int32.umax w x).toNat
  | 5 => (w &&& x).toNat
  | 6 => (w ||| x).toNat
  | 7 => (w ^^^ x).toNat
  | 8 => x.toNat
  | 9 => if w = x then b else old
  | 10 => (old + a) % 2 ^ 64
  | 11 => max old a
  | 12 => if old = a then b else old
  | 13 => (Fp.add Fp.f32 false old a).1
  | 14 => (Fp.minMax Fp.f32 false false true old a).1
  | _ => (Fp.minMax Fp.f32 false true true old a).1

/-- The new bytes of a location: poisoned when the old ones or the data are (R189). -/
def atomBytes (aop : BitVec 4) (old data : List MByte) : List MByte :=
  let n := atomWidth aop
  let v := fun (l : List MByte) => leNat (l.map MByte.val)
  let pois := old.any MByte.pois || data.any MByte.pois
  (leBytes n (atomNew aop (v old) (v (data.take n)) (v ((data.drop n).take n)))).map (fun b => ⟨b, pois⟩)

/-- ATOMS (R192): lanes in ascending order, each on what the one before left; an injected parity error poisons the word it reads. -/
def execAtoms (f : VSA) (s : State) : Res :=
  let n := atomWidth f.aop
  let regs := atomRegs f.aop
  let dests := if f.nr then [] else vnames f.d (n / 4)
  match s.laneBegin (vname f.a ++ vnames f.d regs) 7#3 false dests [] with
  | .stop s => .next s
  | .go s _ =>
    match firstTrap (s.spChecks f.a (4 * f.imm.toNat) n true) with
    | some t => .next (s.trap s.sel.key t)
    | none =>
      let w := s.cur
      let ad := w.spAddr f.a (4 * f.imm.toNat)
      let (s, bad, aborted) := s.spParity s.sel.mask (fun i => (List.range (n / 4)).map (fun j => ad i + 4 * j))
      if aborted then .next s
      else
        let run := (maskLanes s.sel.mask).foldl (fun (acc : Team × List (Nat × List MByte)) i =>
          let data := w.storeBytes f.d (4 * regs) i
          let old := (acc.1.spBytes (ad i) n).zipIdx.map (fun b =>
            if bad.contains (i.val, ad i + b.2 / 4 * 4) then (⟨b.1.val, true⟩ : MByte) else b.1)
          let back := old.map (fun b => (⟨b.val, b.pois || data.any MByte.pois⟩ : MByte))
          (acc.1.putBytes (ad i) (atomBytes f.aop old data), acc.2 ++ [(i.val, back)])) (s.curTeam, [])
        let s := s.setTeam w.team run.1
        s.laneDone [] (fun pool x => if f.nr || 62 ≤ f.d.toNat then x else (List.range (n / 4)).foldl (fun x j =>
          let word := fun (i : Fin 32) => (((assocGet run.2 i.val).getD []).drop (4 * j)).take 4
          x.writeV pool (f.d.toNat + j) s.sel.mask (fun i => leWord ((word i).map MByte.val))
            (maskOf (fun i => (word i).any MByte.pois))) x)

/-! ### ATOM (R188) -/

/-- The operations a pooled memory node provides (R432, R435). -/
def fabricAtom (aop : BitVec 4) : Bool := [0, 4, 9, 10, 11, 12].contains aop.toNat

/-- The line of an access's first byte: its request goes there. -/
def LaneAcc.home (a : LaneAcc) : Nat × Nat := match a.bytes with
  | [] => (0, 0)
  | b :: _ => (lineAddr b.va, lineAddr b.pa)

/-- The effect of an accepted ATOM: held in an open region (R233), else sent to the homes of its lines or pending at the L1. -/
def State.issueAtom (s : State) (f : VA) (accs : List LaneAcc) (ls : List LineX) : State :=
  let k := s.sel.key
  let w := s.cur
  let cls := if f.nr then Class.st else Class.ld
  let op := s.nextId
  if s.regionOpen w.team then
    let s := s.issueOp cls (.store false [])
    let s := s.modTeam w.team (fun t => { t with region := t.region.map (fun r =>
      { r with atomics := r.atomics ++ [⟨f.aop, f.sc.toNat, accs⟩] }) })
    (s.modCur (fun w => w.finish op none)).advance
  else
    let homes := (accs.map LaneAcc.home).dedup
    if 2 ≤ f.sc.toNat || homes.any (fun h => mtypeOf ls h.1 = 1) then
      let s := s.issueOp cls (.atom f.aop f.sc.toNat f.nr f.d.toNat .home accs)
      (homes.foldl (fun s h => (s.writeBack k.core w.ctx h.1 true).send (.core k.core) k op w.ctx h.1 h.2
        (.atomic f.aop (!f.nr) (accs.filter (fun a => a.home = h))) [] false) s).advance
    else
      let accs := accs.map (fun a => { a with bytes := a.bytes.map (fun b => s.findByte k ls false b.va) })
      let s := s.issueOp cls (.atom f.aop f.sc.toNat f.nr f.d.toNat .l1 accs)
      (s.sendReads (.core k.core) k op ls false false accs).advance

/-- ATOM (R188). -/
def execAtom (f : VA) (s : State) : Res :=
  let n := atomWidth f.aop
  let regs := atomRegs f.aop
  let dests := if f.nr then [] else vnames f.d (n / 4)
  if s.regionOpen s.cur.team && !f.nr then .next (s.trapHere causeRgnViolation s.sel.mask 0)
  else
    match s.laneBegin (vname f.a ++ vnames f.d regs) 7#3 false dests [] with
    | .stop s => .next s
    | .go s _ =>
      match firstTrap (s.accessChecks f.a f.br 0 n .atomic) with
      | some t => .next (s.trap s.sel.key t)
      | none =>
        let lanes := s.accessLanes f.a f.br 0 n
        s.withLines .atomic true (Rec.fab (s.cur.brec f.br)) f.br.toNat lanes dests none (fun s ls =>
          let w := s.cur
          let pa := fun (v : Nat) => s.plineOf s.sel.key.core w.ctx w.team ls (lineAddr v) + v % 128
          let fabLanes := lanes.filter (fun l => l.2.any (fun v => s.isFabric (pa v)))
          if !fabLanes.isEmpty && !fabricAtom f.aop then
            s.trap s.sel.key ⟨causeProt, false, s.sel.pc, fabLanes.foldl (fun m l => m ||| (1#32 <<< l.1.val)) 0,
              BitVec.ofNat 64 (((fabLanes.head?).bind (fun l => l.2.head?)).getD 0), 0x50000 + f.aop.setWidth 32⟩
          else
            let pool := s.pool s.sel.key.core
            let accs : List LaneAcc := lanes.map (fun l =>
              ⟨l.1.val, l.2.map (fun v => ⟨v, pa v, none⟩), w.storeBytes f.d (4 * regs) l.1, none, false⟩)
            (s.modCur (fun w => dests.foldl (fun w n => w.allocV pool n) w)).issueAtom f accs ls)

/-! ### Performing atomics -/

/-- Record the old value in a lane's access, poisoned when the location or the data is (R189). -/
def LaneAcc.took (a : LaneAcc) (old : List MByte) : LaneAcc :=
  { a with old := some (BitVec.ofNat 64 (leNat (old.map MByte.val))), oldPois := old.any MByte.pois || a.data.any MByte.pois }

/-- One lane's atomic performed at the homes of its bytes. -/
def State.atomHome (s : State) (aop : BitVec 4) (a : LaneAcc) : State × LaneAcc :=
  let old := a.bytes.map (fun b => s.homeByte b.pa)
  (s.homeWrite ((a.bytes.map ByteAcc.pa).zip (atomBytes aop old a.data)), a.took old)

/-- The atomics of a request, lanes ascending. -/
def State.atomsHome (s : State) (aop : BitVec 4) (accs : List LaneAcc) : State × List LaneAcc :=
  accs.foldl (fun acc a => let r := acc.1.atomHome aop a; (r.1, acc.2 ++ [r.2])) (s, [])

/-- A byte as an atomic on the L1 finds it: its wave's own store that is held back first (R323). -/
def State.atomByte (s : State) (k : WaveKey) (b : ByteAcc) : Option MByte :=
  match s.releaseByte k b.pa, s.l1Byte k.core (s.wave k).ctx (s.wave k).team b.va with
  | some x, _ => some x
  | none, x => x.map (fun y => ⟨y.val, y.pois⟩)

/-- An atomic of wave or team scope performed on the core's L1 (R335). -/
def State.atomL1 (s : State) (k : WaveKey) (op : Nat) (aop : BitVec 4) (a : LaneAcc) : State × LaneAcc :=
  match a.bytes.mapM (s.atomByte k) with
  | none => (s, a)
  | some old =>
    let bs := a.bytes.zip (atomBytes aop old a.data)
    let s := ((bs.map (fun b => (lineAddr b.1.va, lineAddr b.1.pa))).dedup).foldl (fun s l =>
      s.storeL1 k op l.1 l.2 none ((bs.filter (fun b => lineAddr b.1.va = l.1)).map (fun b => (b.1.va % 128, b.2))) false) s
    (s, a.took old)

/-- The old values as the bytes that a load would bring. -/
def LaneAcc.oldBytes (aop : BitVec 4) (a : LaneAcc) : LaneAcc :=
  { a with bytes := (a.bytes.take (atomWidth aop)).zipIdx.map (fun b =>
      { b.1 with got := a.old.map (fun o => ⟨o.extractLsb' (8 * b.2) 8, a.oldPois⟩) }) }

/-- The lanes of an operation that have failed. -/
def Op.failed (o : Op) : LaneMask := o.fail.elim 0 Failure.lanes

/-- Atomics on the L1, lanes ascending, once all their bytes stand there; a line that has left it meanwhile is fetched again. A lane whose line
failed is left. -/
def State.atomsL1 (s : State) (k : WaveKey) (o : Op) (aop : BitVec 4) (accs : List LaneAcc) : State × Option (List LaneAcc) :=
  let run := fun (a : LaneAcc) => !(o.failed.getLsbD a.lane)
  let gone := missing ((accs.filter run).map (fun a => { a with bytes := a.bytes.map (fun b => { b with got := s.atomByte k b }) }))
  if gone.isEmpty then
    let r := accs.foldl (fun acc a => if run a then let r := acc.1.atomL1 k o.id aop a; (r.1, acc.2 ++ [r.2]) else (acc.1, acc.2 ++ [a]))
      (s, ([] : List LaneAcc))
    (r.1, some r.2)
  else
    (gone.foldl (fun s l => s.sendRead (.core k.core) k o.id l false (match s.translate (s.wave k).ctx l.1 .read with
      | .ok _ e _ => Pte.mtype e = 2
      | _ => false) false) s, none)

/-- An ATOM whose requests are all answered: performed at the L1 if that is its level, its old values written, counted off. -/
def State.finishAtom (s : State) (k : WaveKey) (o : Op) : State :=
  match o.kind with
  | .atom aop _ nr dst level accs =>
    match (match level with
      | .home => (s, some accs)
      | .l1 => s.atomsL1 k o aop accs) with
    | (s, none) => s
    | (s, some accs) =>
      let s := if nr then s else s.writeLoad k o dst (atomWidth aop) false (accs.map (LaneAcc.oldBytes aop))
      s.modWave k (fun w => w.finish o.id o.fail)
  | _ => s

/-! ### Events -/

def Op.isAtom (o : Op) : Bool := match o.kind with
  | .atom _ _ _ _ _ _ => true
  | _ => false
def Op.isLoad (o : Op) : Bool := match o.kind with
  | .load _ _ _ _ _ _ _ => true
  | _ => false
def Op.isStore (o : Op) : Bool := match o.kind with
  | .store _ _ => true
  | .release _ _ _ => true
  | _ => false

/-- LOAD_DATA_ARRIVAL (R185, R193): a load or a returning atomic whose every line has answered. -/
def execLoadDataArrival (w : WaveKey) (op : Nat) (s : State) : Res :=
  match (s.wave w).op op with
  | none => .next s
  | some o =>
    if o.done || !s.replied w op then .next s
    else if o.isLoad then .next (s.arriveLoad w o)
    else if o.isAtom && o.cls = .ld then .next (s.finishAtom w o)
    else .next s

/-- STORE_ACKNOWLEDGE (R193): a store, release store or atomic without return acknowledged by its level. -/
def execStoreAcknowledge (w : WaveKey) (op : Nat) (s : State) : Res :=
  match (s.wave w).op op with
  | none => .next s
  | some o =>
    if o.done then .next s
    else if o.isAtom && o.cls = .st then .next (if s.replied w op then s.finishAtom w o else s)
    else .next (s.ackStore w o)

/-- L1_EVICTION (R186): a line leaves the L1; a held one spills to its team's journal (R235). -/
def execL1Eviction (core ctx line : Nat) (s : State) : Res :=
  match (s.core core).l1.find? (fun l => l.ctx = ctx ∧ l.vline = line) with
  | some l => .next (s.evict core l)
  | none => .next s

end Sys2Proof.Machine
end

