-- ==== Sys2Proof/Machine/Barrier.lean ====
section
/-! DEFINITION. Team barrier objects (spec/09_core_memory.md R198 to R202), remote scratchpad stores and armed maps (spec/13 R268 to
R270), group barriers (R271 to R275), and the completion of ordering actions (R197). -/

namespace Sys2Proof.Machine

/-! ### Barrier objects -/

def Team.expect (x : Team) (a : Nat) : Nat := (x.spWord a).toNat
def Team.arrivedAt (x : Team) (a : Nat) : Nat := (x.spWord (a + 4)).toNat
def Team.gen (x : Team) (a : Nat) : Word := x.spWord (a + 8)
def Team.flags (x : Team) (a : Nat) : Word := x.spWord (a + 12)
def Team.kindAt (x : Team) (a : Nat) : Nat := ((x.flags a).extractLsb' 1 2).toNat
def Team.isArmed (x : Team) (a : Nat) : Bool := x.armed.contains (a / 16)
def Team.objPois (x : Team) (a : Nat) : Bool := [0, 4, 8, 12].any (fun o => x.wordPois (a + o))
/-- The waves that have arrived at a team-waves object in this phase (R201). -/
def Team.maskAt (x : Team) (a : Nat) : LaneMask := (assocGet x.arrived a).getD 0

/-- n arrivals or bytes: every phase they end ends in one step (R201). -/
def Team.arrive (x : Team) (a n : Nat) : Team :=
  let e := x.expect a
  let t := x.arrivedAt a + n
  let k := if e = 0 then 0 else t / e
  let x := (x.putWord (a + 4) (BitVec.ofNat 32 (t - k * e)) false).putWord (a + 8) (x.gen a + BitVec.ofNat 32 k) false
  if k = 0 then x else { x with arrived := assocErase x.arrived a }

/-- Waves whose awaited generation has been left go on (R201). -/
def State.wakeBarrier (s : State) (t a : Nat) : State :=
  let g := (s.team t).gen a
  { s with waves := s.waves.map (fun p =>
      if p.2.team = t then
        (p.1, (p.2.waits.filter (fun x => match x.why with
          | .barrier o g' => o = a && g' ≠ g
          | _ => false)).foldl Wave.endWait p.2)
      else p) }

/-- An arrival of a wave's index at an object, with what it adds. -/
def State.arriveBarrier (s : State) (t a n : Nat) (idx : Option (BitVec 5)) : State :=
  let s := s.modTeam t (fun x =>
    let x := match idx with
      | some i => if x.kindAt a = 1 then { x with arrived := assocSet x.arrived a (x.maskAt a ||| (1#32 <<< i.toNat)) } else x
      | none => x
    x.arrive a n)
  s.wakeBarrier t a

/-- An arrival at the object has been issued and is still to be made (R201). -/
def Wave.arriving (w : Wave) (a : Nat) : Bool := w.fences.any (fun x => match x.what with
  | .barArrive o _ _ => o = a
  | _ => false)
/-- Some wave of the team waits on the object, or is about to arrive there. -/
def State.waitedOn (s : State) (t a : Nat) : Bool :=
  (s.teamWaves t).any (fun p => p.2.arriving a || p.2.waits.any (fun x => match x.why with
    | .barrier o _ => o = a
    | _ => false))
/-- A BARINIT of the team is arming the object and not all its cores have replied (R270). -/
def State.armingAt (s : State) (t a : Nat) : Bool :=
  (s.teamWaves t).any (fun p => p.2.waits.any (fun x => match x.why with
    | .arming o c _ => o = a && c ≠ 0
    | _ => false))

/-- The arrival of a wave at an object is made (R201): BARARV takes the generation, BARSYNC waits for it to be left. -/
def State.makeArrival (s : State) (k : WaveKey) (a n : Nat) (d : Option (BitVec 6)) : State :=
  let w := s.wave k
  let g := (s.team w.team).gen a
  let s := s.modWave k (fun w => match d with
    | some r => w.setS r g false
    | none => { w with waits := w.waits.map (fun x => if x.why = .syncDue a then { x with why := .barrier a g } else x) })
  s.arriveBarrier w.team a n (some w.index)

/-- An arrival is a release at team scope of the wave's earlier accesses (R201): made at once when they are complete and no other ordering
action is under way, else after them. -/
def State.arriveOrdered (s : State) (a n : Nat) (d : Option (BitVec 6)) : State :=
  if s.cur.fences.isEmpty && s.releaseReady s.sel.key s.nextId 1 then s.makeArrival s.sel.key a n d
  else s.pushFence (.barArrive a n d) 1

/-- What a barrier instruction finds at its object: the checks of R200, R189 and R443, then the object's four word reads (R147). -/
def State.atObject (s : State) (f : U3) (illegal : List (Option TrapReq)) (useB : Bool) (after : Nat → List (Option TrapReq))
    (effect : State → Nat → Res) : Res :=
  let w := s.cur
  let t := s.curTeam
  let path := s.sel.mask
  let aw := w.sreg f.a f.lit
  let a := aw.toNat
  if w.sregPois f.a then .next (s.trapHere causePoison path 0)
  else
    match firstTrap (illegal ++ [ s.check (a % 16 ≠ 0) causeMisalign path (aw.setWidth 64),
                                  s.check (t.spSize < a + 16) causeBounds path (aw.setWidth 64) ]) with
    | some r => .next (s.trap s.sel.key r)
    | none =>
      let (s, bad, aborted) := s.spParity path (fun _ => [a, a + 4, a + 8, a + 12])
      if aborted then .next s
      else
        match firstTrap (after a ++ [s.check ((useB && w.sregPois f.b) || t.objPois a || !bad.isEmpty) causePoison path 0]) with
        | some r => .next (s.trap s.sel.key r)
        | none => effect s a

/-- The control word of BARINIT is not one of R200's. -/
def ctlIllegal (c : Word) : Bool :=
  let kind := (c.extractLsb' 24 2).toNat
  let n := (c.extractLsb' 0 24).toNat
  c ≠ 0 && (c.extractLsb' 27 5 ≠ 0 || kind = 3 || (kind ≠ 1 && n = 0) || (kind = 1 && n ≠ 0))

/-- The cores of a team's crew (R270). -/
def State.crewCores (s : State) (c : Nat) : List Nat := ((s.teams.filter (fun p => p.2.crew = c ∧ p.2.resident)).map (fun p => p.2.core)).dedup

/-- The object is armed by its control word (R200). -/
def Team.armObject (x : Team) (a : Nat) (c : Word) : Team :=
  let kind := (c.extractLsb' 24 2).toNat
  let expect := if kind = 1 then BitVec.ofNat 32 x.liveWaves else c &&& 0xFFFFFF
  let flags : Word := BitVec.ofNat 32 ((c.getLsbD 26).toNat * 8 + kind * 2 + 1)
  let x := ((x.putWord a expect false).putWord (a + 4) 0 false).putWord (a + 12) flags false
  { x with armed := insertSorted x.armed (a / 16), arrived := assocErase x.arrived a }

/-- The object is disarmed: its flags word reads 0, the whole of it (R200; log 71: DESIGN CHOICE). -/
def Team.disarmObject (x : Team) (a : Nat) : Team := { x.putWord (a + 12) 0 false with armed := x.armed.filter (· ≠ a / 16) }

/-- BARINIT (R200, R270): the path waits until every core of the crew has replied; disarming takes effect at once, arming when all have. A
BARINIT on an object that another is arming raises BAR_CLOBBER. Disarming zeroes KIND and WDOFF with ARMED (R200 says only that GEN is kept;
log 71: DESIGN CHOICE). -/
def execBarinit (f : U3) (s : State) : Res :=
  let w := s.cur
  let c := w.sreg f.b f.lit
  let cpois := w.sregPois f.b
  s.uniGuard f.qg f.qn (s.atObject f [s.check (!cpois && ctlIllegal c) causeIllegalOperand s.sel.mask 0] true (fun _ => [])
    (fun s a =>
      let t := s.curTeam
      let clobber := if c = 0 then t.isArmed a && (t.arrivedAt a ≠ 0 || s.waitedOn w.team a) else t.isArmed a
      if clobber || s.armingAt w.team a then .next (s.trapHere causeBarClobber s.sel.mask (BitVec.ofNat 64 a))
      else if c = 0 && !t.isArmed a then .next (s.modTeam w.team (fun x => x.putWord (a + 12) 0 false)).advance
      else
        let s := if c = 0 then s.modTeam w.team (fun x => x.disarmObject a) else s
        .next (s.waitFor (.arming a c ((s.crewCores t.crew).map (fun core => (core, none)))))))

/-- The checks of an arrival (R201). -/
def State.arrivalChecks (s : State) (a : Nat) : List (Option TrapReq) :=
  [s.check (!s.curTeam.isArmed a) causeIllegalOperand s.sel.mask 0]
/-- A wave that arrives twice in one phase of a team-waves object (R201). -/
def State.arrivedTwice (s : State) (a : Nat) : Bool :=
  s.curTeam.kindAt a = 1 && ((s.curTeam.maskAt a).getLsbD s.cur.index.toNat || s.cur.arriving a)

/-- BARARV (R200, R201): s[B] counts only for KIND 2, and so does its poison. -/
def execBararv (f : U3) (s : State) : Res :=
  s.uniGuard f.qg f.qn (s.atObject f [] false (fun a => s.arrivalChecks a) (fun s a =>
    let w := s.cur
    let bytes := s.curTeam.kindAt a = 2
    if bytes && w.sregPois f.b then .next (s.trapHere causePoison s.sel.mask 0)
    else if s.arrivedTwice a then .next (s.trapHere causeBarClobber s.sel.mask (BitVec.ofNat 64 a))
    else .next (s.arriveOrdered a (if bytes then (w.sreg f.b f.lit).toNat else 1) (some f.d)).advance))

/-- BARWT (R200). -/
def execBarwt (f : U3) (s : State) : Res :=
  let g := s.cur.sreg f.b f.lit
  s.uniGuard f.qg f.qn (s.atObject f [] true (fun _ => []) (fun s a =>
    if s.curTeam.gen a = g then .next (s.waitFor (.barrier a g)) else .next s.advance))

/-- BARSYNC (R200): one arrival, of 0 bytes for KIND 2, then the wait for the generation to be left. -/
def execBarsync (f : U3) (s : State) : Res :=
  s.uniGuard f.qg f.qn (s.atObject f [] false (fun a => s.arrivalChecks a) (fun s a =>
    if s.arrivedTwice a then .next (s.trapHere causeBarClobber s.sel.mask (BitVec.ofNat 64 a))
    else .next ((s.waitFor (.syncDue a)).arriveOrdered a (if s.curTeam.kindAt a = 2 then 0 else 1) none)))

/-- A wave of a team is gone: team-waves objects expect one arrival less (R201). -/
def State.retireBarriers (s : State) (t : Nat) (idx : BitVec 5) : State :=
  (((s.team t).armed.map (· * 16)).filter (fun a => (s.team t).kindAt a = 1)).foldl (fun s a =>
    let s := s.modTeam t (fun x =>
      let had := (x.maskAt a).getLsbD idx.toNat
      let x := x.putWord a (BitVec.ofNat 32 (x.expect a - 1)) false
      let x := if had then
          { x.putWord (a + 4) (BitVec.ofNat 32 (x.arrivedAt a - 1)) false with
            arrived := assocSet x.arrived a (x.maskAt a &&& ~~~(1#32 <<< idx.toNat)) }
        else x
      x.arrive a 0)
    s.wakeBarrier t a) s

/-! ### Armed maps (R270) -/

/-- The wave's BARINIT in progress: its object, control word and the cores still to reply. -/
def Wave.armingWait (w : Wave) : Option (Wait × Nat × Word × List (Nat × Option Nat)) :=
  w.waits.findSome? (fun x => match x.why with
    | .arming o c l => some (x, o, c, l)
    | _ => none)

/-- A core has an STSR older than an identity toward a team that is not yet performed. -/
def State.stsrPending (s : State) (core t upTo : Nat) : Bool :=
  (s.coreWaves core).any (fun p => p.2.ops.any (fun o => o.id < upTo && o.stores t))

/-- A core's armed map shows a unit of a team armed, or not. -/
def CoreSt.mapUnit (x : CoreSt) (t unit : Nat) (armed : Bool) : CoreSt :=
  { x with armedMap := (if armed then [(t, unit)] else []) ++ x.armedMap.filter (fun p => p ≠ (t, unit)) }

/-- ARMED_MAP_UPDATE (R270): a member core updates its map; it replies once the STSRs that it issued earlier toward the allocation have
landed, at once when none is under way. -/
def execArmedMapUpdate (w : WaveKey) (core : Nat) (s : State) : Res :=
  let x := s.wave w
  match x.armingWait with
  | some (wt, o, c, l) =>
    let put := fun (s : State) (l : List (Nat × Option Nat)) => s.modWave w (fun y => { y with waits := y.waits.map (fun z =>
      if z = wt then { z with why := .arming o c l } else z) })
    match assocGet l core with
    | none => .next s
    | some st =>
      let upTo := st.getD s.nextId
      let s := if st.isSome then s else s.modCore core (fun y => y.mapUnit x.team (o / 16) (c ≠ 0))
      .next (put s (if s.stsrPending core x.team upTo then assocSet l core (some upTo) else assocErase l core))
  | none => .next s

/-- BARINIT_REPLIES_DONE (R270): every reply has arrived; an object is armed now, and every core of the crew shows what it has come to. -/
def execBarinitRepliesDone (w : WaveKey) (pc : Word) (s : State) : Res :=
  let x := s.wave w
  match x.armingWait with
  | some (wt, o, c, []) =>
    if wt.pc = pc then
      let s := s.modWave w (fun x => x.endWait wt)
      let s := if c = 0 then s else s.modTeam x.team (fun y => y.armObject o c)
      .next ((s.crewCores (s.team x.team).crew).foldl (fun s core => s.modCore core (fun y => y.mapUnit x.team (o / 16) (c ≠ 0))) s)
    else .next s
  | _ => .next s

/-! ### Remote scratchpad stores (R268, R269) -/

/-- The team that is a member of a crew, unless it has retired. -/
def State.memberTeam (s : State) (crew m : Nat) : Option Nat :=
  (s.teams.find? (fun p => p.2.crew = crew ∧ p.2.member = m)).map Prod.fst

/-- STSR (R268): the checks in their order, then one operation of class RS. -/
def execStsr (f : VI) (s : State) : Res :=
  match s.laneBegin (vname f.a ++ vname f.d) 7#3 false [] [] with
  | .stop s => .next s
  | .go s _ =>
    let w := s.cur
    let t := s.curTeam
    let path := s.sel.mask
    let ad := w.spAddr f.a f.imm.toNat
    let member := fun i => ad i / 2 ^ 20 % 4
    let off := fun i => ad i % 2 ^ 19
    let bad := fun i => match s.memberTeam t.crew (member i) with
      | none => true
      | some m => ad i / 2 ^ 22 ≠ 0 || ad i / 2 ^ 19 % 2 ≠ 0 || (s.team m).spSize < off i + 4
    let armed := fun i => match s.memberTeam t.crew (member i) with
      | none => false
      | some m => (s.core s.sel.key.core).armedMap.any (fun p => p.1 = m && p.2 = off i / 16)
    let pois := path &&& w.vsrcPois f.a
    let oob := path &&& maskOf bad
    let mis := path &&& maskOf (fun i => off i % 4 ≠ 0)
    let hit := path &&& maskOf armed
    let at_ := fun (m : LaneMask) => BitVec.ofNat 64 (((lowestLane m).map ad).getD 0)
    s.guarded [ s.check (pois ≠ 0) causePoison pois 0, s.check (oob ≠ 0) causeBounds oob (at_ oob),
                s.check (mis ≠ 0) causeMisalign mis (at_ mis), s.check (hit ≠ 0) causeBarClobber hit (at_ hit),
                s.check (s.regionOpen w.team) causeRgnViolation path 0 ]
      (s.issueOp .rs (.stsr ((maskLanes path).map (fun i =>
        ⟨(s.memberTeam t.crew (member i)).getD 0, off i, w.vsrc f.d 0 i, (w.vsrcPois f.d).getLsbD i.val, false⟩)))).advance

/-- STSR_PERFORM (R269): the wave's oldest STSR is written at its members, lanes ascending; a member that has left, or whose region has
aborted meanwhile, shows no effect, and what was kept of it is freed. -/
def execStsrPerform (w : WaveKey) (op : Nat) (s : State) : Res :=
  let x := s.wave w
  match x.op op with
  | some o =>
    match o.kind with
    | .stsr ws =>
      if o.done || x.ops.any (fun p => p.cls = .rs && p.id < op && !p.done) then .next s
      else
        let s := ws.foldl (fun s q => if q.void || (assocGet s.teams q.team).isNone then s
          else s.modTeam q.team (fun t => t.putWord q.off q.word q.pois)) s
        .next (s.modWave w (fun y => y.finish op none)).freeKept
    | _ => .next s
  | none => .next s

/-! ### Watchdogs (R30, R202) -/

/-- A watchdog of a context has run out: not off, not frozen by a debugger, and more than so many microseconds have passed. -/
def State.overdue (s : State) (ctx since : Nat) (us : Word) : Bool :=
  us ≠ 0 && (s.context ctx).frozenAt.isNone && since + us.toNat * Config.clocksPerUs < s.clock

/-- The PC that the diagnostic record gives for a wave: of its last EXIT, of its wait, or of its lowest live thread (R202). -/
def State.diagPc (s : State) (t : Nat) (waits : Wait → Bool) (i : Nat) : Word :=
  match assocGet (s.team t).retired i with
  | some pc => pc
  | none =>
    match (s.teamWaves t).find? (fun p => p.2.index.toNat = i) with
    | none => 0
    | some p =>
      match p.2.waits.find? waits with
      | some x => x.pc
      | none => ((lowestLane p.2.live).map (fun l => p.2.lanes[l].pc)).getD 0

/-- The waves of a team for which a test holds, by index. -/
def State.indexMask (s : State) (t : Nat) (f : Wave → Bool) : LaneMask :=
  (s.teamWaves t).foldl (fun m p => if f p.2 then m ||| (1#32 <<< p.2.index.toNat) else m) 0#32
def State.liveMask (s : State) (t : Nat) : LaneMask :=
  if (s.team t).resident then s.indexMask t (fun _ => true)
  else ((s.team t).saved.getD []).foldl (fun m w => m ||| (1#32 <<< w.index.toNat)) 0#32

/-- What the diagnostic record of a timed-out wait gives (R202, R230, R274): the object's address, EXPECT, ARRIVED, GEN, and which waits are
on it. -/
structure Diag where
  obj : Word
  expect : Word
  arrived : Word
  gen : Word
  waits : Wait → Bool

/-- The diagnostic record (R202, kind 0x0002); the mask of waiting waves leaves out those of the list (R258). -/
def State.barDiag (s : State) (k : WaveKey) (d : Diag) (stopped : List WaveKey) : State :=
  let w := s.wave k
  let t := w.team
  let retired := (s.team t).retired.foldl (fun m p => m ||| (1#32 <<< p.1)) 0#32
  let waiting := ((s.teamWaves t).filter (fun p => !stopped.contains p.1 && p.2.waits.any d.waits)).foldl
    (fun m p => m ||| (1#32 <<< p.2.index.toNat)) 0#32
  s.logRec 0x0002 false (placeWord w.ctx k.core) false causeBarTimeout
    ([(placeWord w.ctx k.core).setWidth 32, (s.team t).teamId, d.obj, d.expect, d.arrived, d.gen, waiting, retired]
      ++ (List.range 32).map (s.diagPc t d.waits))

def waitsOn (a : Nat) (x : Wait) : Bool := match x.why with
  | .barrier o _ => o = a
  | _ => false
def waitsAtGroup (n : Nat) (x : Wait) : Bool := match x.why with
  | .group m _ => m = n
  | _ => false
def isRdvWait (x : Wait) : Bool := match x.why with
  | .rendezvous _ => true
  | _ => false

/-- The wave's rendezvous wait and its instruction. -/
def Wave.rdvWait (w : Wave) : Option (Wait × Instr) :=
  w.waits.findSome? (fun x => match x.why with
    | .rendezvous i => some (x, i)
    | _ => none)

/-- A wave has arrived at its rendezvous: it waits, its counters read zero, and its ordering actions are done (R230). -/
def Wave.rdvArrived (w : Wave) : Bool :=
  match w.rdvWait with
  | some (x, _) => w.drained && w.fences.isEmpty && w.waitRuns x && w.stop == .running
  | none => false

/-- The instruction word at a PC of a wave, as fetch sees it. -/
def State.wordAt (s : State) (k : WaveKey) (pc : Word) : Word := leWord ((s.context (s.wave k).ctx).codeWord pc)

/-- A wait whose barrier watchdog has fired (R202, R230, R274), under the value it began with (R145): the record and the trap. -/
def State.timedOut (s : State) (k : WaveKey) (wt : Wait) : Option (Diag × TrapReq) :=
  let x := s.wave k
  let t := s.team x.team
  if !(x.waitRuns wt && s.overdue x.ctx wt.since wt.limit) then none
  else match wt.why with
    | .barrier a g =>
      if (t.flags a).getLsbD 3 then none
      else some (⟨BitVec.ofNat 32 a, BitVec.ofNat 32 (t.expect a), BitVec.ofNat 32 (t.arrivedAt a), t.gen a, waitsOn a⟩,
        ⟨causeBarTimeout, false, wt.next, wt.lanes, BitVec.ofNat 64 a, g⟩)
    | .group n b =>
      let g := s.group n
      let obj : Word := BitVec.ofNat 32 (0xFFFFFF00 + n)
      some (⟨obj, BitVec.ofNat 32 g.mset.length, g.arrived.setWidth 32, g.gen, waitsAtGroup n⟩,
        ⟨causeBarTimeout, false, wt.next, wt.lanes, obj.setWidth 64, b⟩)
    | .rendezvous _ =>
      if (t.region.map Region.committing).getD false then none
      else
        let ws := s.teamWaves x.team
        some (⟨0xFFFFFFFF, BitVec.ofNat 32 ws.length, BitVec.ofNat 32 (ws.filter (fun p => p.2.rdvArrived)).length, 0, isRdvWait⟩,
          ⟨causeBarTimeout, false, wt.pc, wt.lanes, 0xFFFFFFFF, s.wordAt k wt.pc⟩)
    | _ => none

/-- The other waits of a context whose watchdogs have fired. -/
def State.othersOut (s : State) (k : WaveKey) : List (WaveKey × Diag) :=
  (s.waves.filter (fun p => p.2.ctx = (s.wave k).ctx && p.1 ≠ k)).flatMap (fun p =>
    p.2.waits.filterMap (fun wt => (s.timedOut p.1 wt).map (fun d => (p.1, d.1))))

/-- A barrier watchdog fires (R202): its record, then the trap. When that ends the context, every other wait of it whose watchdog has fired
by then gets its record before the firmware stops it, the mask without the waves stopped before (R258). -/
def State.barTimeout (s : State) (k : WaveKey) (wt : Wait) : State :=
  match s.timedOut k wt with
  | none => s
  | some (d, t) =>
    let s := s.barDiag k d []
    let w := s.wave k
    let s := if w.handler || w.tvec = 0 then
        ((s.othersOut k).foldl (fun (acc : State × List WaveKey) p => (acc.1.barDiag p.1 p.2 acc.2, acc.2 ++ [p.1])) (s, [k])).1
      else s
    (s.modWave k (fun y => y.releaseWait wt)).trap k t

/-- BAR_TIMEOUT (R202). -/
def execBarTimeout (w : WaveKey) (pc : Word) (s : State) : Res :=
  match (s.wave w).waitAt pc with
  | some wt => .next (match wt.why with
    | .barrier _ _ => s.barTimeout w wt
    | _ => s)
  | none => .next s

/-! ### Group barriers (R271 to R275) -/

/-- A team of MSET has completed its arrival in this generation: every live wave of it, or it has retired. -/
def State.teamArrived (s : State) (g : Group) (t : Nat) : Bool :=
  let m := (assocGet g.waves t).getD 0
  (assocGet s.teams t).isNone || (m ≠ 0 && s.liveMask t &&& ~~~m = 0)

/-- A generation of a group has ended. -/
def Group.ended (g : Group) : Bool := (g.mset ≠ [] && g.arrived.toNat = g.mset.length) || (g.mset = [] && g.nset ≠ [])

/-- A GBWT whose generation has ended performs its acquire at package scope and then goes on (R274). -/
def State.leaveGroup (s : State) (k : WaveKey) (wt : Wait) : State :=
  let (id, s) := s.fresh
  s.modWave k (fun w => { w with
    waits := w.waits.map (fun z => if z = wt then { z with why := .groupLeft id } else z)
    fences := w.fences ++ [⟨.groupAcquire, 4, id, none⟩] })

/-- A wave's waits for a generation that the group has left. -/
def State.groupDue (s : State) (w : Wave) : List Wait :=
  w.waits.filter (fun x => match x.why with
    | .group n g => g ≠ (s.group n).gen
    | _ => false)

/-- Every GBWT whose awaited generation has ended (R271, R274). -/
def State.wakeGroup (s : State) : State :=
  (s.waves.map Prod.fst).foldl (fun s k => (s.groupDue (s.wave k)).foldl (fun s x => s.leaveGroup k x) s) s

/-- A wave's waits on objects whose generation is no longer the one they wait on (R200). -/
def State.barrierDue (s : State) (w : Wave) : List Wait :=
  w.waits.filter (fun x => match x.why with
    | .barrier o g => g ≠ (s.team w.team).gen o
    | _ => false)

/-- A wave's waits are tested again, as when it has been restored or a word of an object has been written (R200, R275). -/
def State.retest (s : State) (k : WaveKey) : State :=
  let w := s.wave k
  let s := s.setWave k ((s.barrierDue w).foldl Wave.endWait w)
  (s.groupDue w).foldl (fun s x => s.leaveGroup k x) s

/-- Count the arrivals of a group again and end its generation if that is due (R271). -/
def State.groupTest (s : State) (n : Nat) : State :=
  let g := s.group n
  let g := { g with arrived := BitVec.ofNat 17 ((g.mset.filter (s.teamArrived g)).length) }
  if g.ended then (s.setGroup n { g with gen := g.gen + 1, mset := g.nset, arrived := 0, waves := [] }).wakeGroup
  else s.setGroup n g

/-- Every group is tested again, as when a wave or a team retires (R271, R275). -/
def State.groupsAgain (s : State) : State := (s.groups.map Prod.fst).foldl State.groupTest s

/-- A team retires: it leaves the next generation of every group (R275). -/
def State.groupLeave (s : State) (t : Nat) : State :=
  { s with groups := s.groups.map (fun p => (p.1, { p.2 with nset := p.2.nset.filter (· ≠ t) })) }

/-- The checks common to group instructions on a clean group number: its reserved bits, its owner. -/
def State.groupChecks (s : State) (f : U3) : List (Option TrapReq) :=
  let w := s.cur
  let a := w.sreg f.a f.lit
  let clean := !w.sregPois f.a
  let own := (s.group (a.toNat % 64)).owner = some (BitVec.ofNat 6 w.ctx)
  [ s.check (clean && a.extractLsb' 6 26 ≠ 0) causeIllegalOperand s.sel.mask 0,
    if clean && !own then some ⟨causeProt, false, s.sel.pc, s.sel.mask, 0, BitVec.ofNat 32 (0x20000 + a.toNat % 64)⟩ else none,
    s.check (!clean) causePoison s.sel.mask 0 ]

/-- GBSET (R272). -/
def execGbset (f : U3) (s : State) : Res :=
  let w := s.cur
  let n := (w.sreg f.a f.lit).toNat % 64
  let b := w.sreg f.b f.lit
  let g := s.group n
  let set := g.nset.filter (· ≠ w.team)
  s.uniGuard f.qg f.qn (s.guarded
    ([ s.check (s.regionOpen w.team) causeRgnViolation s.sel.mask 0,
       s.check (!w.sregPois f.b && 1 < b.toNat) causeIllegalOperand s.sel.mask 0 ]
      ++ s.groupChecks f ++ [s.check (w.sregPois f.b) causePoison s.sel.mask 0])
    ((s.setGroup n { g with nset := if b = 1 then set ++ [w.team] else set }).groupTest n).advance)

/-- GBARV (R273): the arrival itself follows the release; it writes s[D] when it is made. -/
def execGbarv (f : U3) (s : State) : Res :=
  let w := s.cur
  let n := (w.sreg f.a f.lit).toNat % 64
  let g := s.group n
  let out := !w.sregPois f.a && !g.mset.contains w.team
  let again := ((assocGet g.waves w.team).getD 0).getLsbD w.index.toNat || w.fences.any (fun x => match x.what with
    | .groupArrive m _ => m = n
    | _ => false)
  s.uniGuard f.qg f.qn
    (match firstTrap ([s.check (s.regionOpen w.team) causeRgnViolation s.sel.mask 0] ++ (s.groupChecks f).take 1
        ++ [s.check out causeIllegalOperand s.sel.mask 0] ++ (s.groupChecks f).drop 1
        ++ [s.check again causeBarClobber s.sel.mask 0]) with
      | some t => .next (s.trap s.sel.key t)
      | none => .next (s.pushFence (.groupArrive n f.d) 4).advance)

/-- GBWT (R274): open to teams outside MSET; its acquire follows its completion. -/
def execGbwt (f : U3) (s : State) : Res :=
  let w := s.cur
  let n := (w.sreg f.a f.lit).toNat % 64
  let b := w.sreg f.b f.lit
  s.uniGuard f.qg f.qn (s.guarded (s.groupChecks f ++ [s.check (w.sregPois f.b) causePoison s.sel.mask 0])
    (let t := s.waitFor (.group n b)
     if (s.group n).gen ≠ b then t.leaveGroup s.sel.key (s.pathWait (.group n b)) else t))

/-- GROUP_BARRIER_TIMEOUT (R274). -/
def execGroupBarrierTimeout (w : WaveKey) (pc : Word) (s : State) : Res :=
  match (s.wave w).waitAt pc with
  | some wt => .next (match wt.why with
    | .group _ _ => s.barTimeout w wt
    | _ => s)
  | none => .next s

/-! ### Ordering actions done (R197, R273) -/

/-- The oldest ordering action of a wave, taken off. -/
def State.popFence (s : State) (k : WaveKey) : State := s.modWave k (fun w => { w with fences := w.fences.drop 1 })

/-- The arrival that GBARV sends once its release is done. -/
def State.groupArrive (s : State) (k : WaveKey) (n : Nat) (d : BitVec 6) : State :=
  let g := s.group n
  let w := s.wave k
  let s := s.modWave k (fun w => w.setS d g.gen false)
  if g.mset.contains w.team then
    (s.setGroup n { g with waves := assocSet g.waves w.team ((assocGet g.waves w.team).getD 0 ||| (1#32 <<< w.index.toNat)) }).groupTest n
  else s

/-- Change the fragments of the lanes of a mask. -/
def Wave.mapFrags (w : Wave) (m : LaneMask) (f : Frag → Frag) : Wave :=
  { w with pixel := w.pixel.map (fun p => { p with frags := p.frags.map (fun g => if m.getLsbD g.lane then f g else g) }) }

end Sys2Proof.Machine
end

