-- ==== Sys2Proof/Machine/Slices.lean ====
section
/-! DEFINITION. A request on its way (spec/14_the_die.md): through the remote-data slice of its die (R290), at its home (R289), back (R291,
R326), its delivery (R185, R193), its end by time (R293 to R295); and the errors of the two caches (R297). -/

namespace Sys2Proof.Machine

/-! ### Errors in the L2 and in the remote-data slices (R297, R298) -/

/-- The ways of a group whose bits are set. -/
def wayCount (m : BitVec 16) : Nat := ((List.range 16).filter (fun i => m.getLsbD i)).length

/-- A way of a group holds no line any more: copies and clean lines are dropped, dirty lines are written back, poison included. -/
def Die.emptyWay (d : Die) (g : WayGroup) (way : Nat) : Die :=
  if g.rdc then { d with copies := d.copies.filter (fun c => !(WayGroup.ofRdc c.pline = g && c.way = way)) }
  else { d with l2 := d.l2.filter (fun l => !(WayGroup.ofL2 l.pline = g && l.way = way)) }

/-- A second corrected error within one hour retires the way, unless its group would keep fewer than 4; either way it is reported (R445). The
location of the record names the slice, the group and the way. -/
def State.wayError (s : State) (die : Nat) (g : WayGroup) (way : Nat) : State :=
  let d := s.die die
  if d.wayErrs.any (fun e => e.1 = g && e.2.1 = way && s.clock ≤ e.2.2 + hourClocks) then
    let m := d.retiredWays g ||| (1#16 <<< way)
    let d := { d with wayErrs := d.wayErrs.filter (fun e => !(e.1 = g && e.2.1 = way)) }
    let d := if 12 < wayCount m then d
      else ({ d with wayMasks := assocSet d.wayMasks g m
                     counters := { d.counters with wayret := satInc d.counters.wayret } } : Die).emptyWay g way
    (s.setDie die d).logRec 0x0004 true (diePlace die) false 0
      [3, BitVec.ofNat 32 ((if g.rdc then 65536 else 0) + g.slice * 256 + g.group * 16 + way)]
  else s.setDie die { d with wayErrs := d.wayErrs ++ [(g, way, s.clock)] }

/-- An access finds an error in a line that its cache holds: corrected and counted; or uncorrectable, counted and logged: a clean line comes again
from its home, and the sectors of dirty bytes are poisoned (R406). (Log 44: DESIGN CHOICE.) -/
def State.takeUpset (s : State) (u : Upset) (way : Nat) (dirty : BitVec 128) : State :=
  if !u.hard then
    (s.modDie u.die (fun d => { d with counters :=
      if u.rdc then { d.counters with rdce := satInc d.counters.rdce } else { d.counters with l2ce := satInc d.counters.l2ce } })).wayError
        u.die (if u.rdc then .ofRdc u.pline else .ofL2 u.pline) way
  else
    let s := s.modDie u.die (fun d =>
      if u.rdc then { d.dropCopy u.pline with counters := { d.counters with rdue := satInc d.counters.rdue } }
      else { d with counters := { d.counters with l2ue := satInc d.counters.l2ue } })
    let bad := (List.range 4).filter (fun i => dirty.extractLsb' (32 * i) 32 ≠ 0)
    let s := { s with poisoned := bad.foldl (fun l i => insertSorted l (u.pline / 32 + i)) s.poisoned }
    s.logRec 0x0003 true (diePlace u.die) false 0
      [if u.rdc then 9 else 8, 0, BitVec.ofNat 32 u.pline, BitVec.ofNat 32 (u.pline / 2 ^ 32), 0]

/-- An access to a line in a remote-data slice, or at its home: an error that has struck it there is found. -/
def State.struck (s : State) (rdc : Bool) (die pline : Nat) : State :=
  match s.upsets.find? (fun u => u.rdc = rdc && u.die = die && u.pline = pline) with
  | none => s
  | some u =>
    let s := { s with upsets := s.upsets.erase u }
    if rdc then ((s.die die).copy pline).elim s (fun c => s.takeUpset u c.way 0)
    else ((s.die die).l2.find? (fun l => l.pline = pline)).elim s (fun l => s.takeUpset u l.way l.dirty)

/-! ### At the remote-data slice, on the way out (R290) -/

/-- The router of the remote-data slice that a request of a die passes. -/
def Request.rdcRouter (q : Request) : Nat := 16 * dieOf q.core + sliceRouter (sliceOf q.pline)
/-- The newest number that a line's remote-data slice on a die has given to a write. -/
def State.newestWrite (s : State) (d pline : Nat) : Nat := (assocGet (s.die d).forwarded (sliceOf pline)).getD 0
/-- A slice answers a read; number: of the newest write that it has forwarded, where a byte is pending. -/
def State.answer (s : State) (q : Request) (bs : List MByte) (number : Nat) : State :=
  s.setOut { q with performed := true, reply := some bs, number := number, leg := .backHere } q.rdcRouter
/-- A read that the copies of its slice serve. -/
def ReqKind.cached : ReqKind → Bool
  | .read bypass noCopy => !bypass && !noCopy
  | _ => false
/-- The fill that a slice has outstanding for a line (R326). -/
def Request.fills (r : Request) (d pline : Nat) : Bool := r.by_ = .slice d (sliceOf pline) && r.pline = pline && !r.dead

/-- A request comes to the remote-data slice of its die: a read is served from a copy, or waits there for the slice's fill of its line; a write
takes a number and updates a copy, an atomic drops it, and both go on to the home, as bypassing reads do. -/
def State.slicePass (s : State) (q : Request) : State :=
  let d := dieOf q.core
  match q.kind with
  | .write bs low =>
    let n := s.newestWrite d q.pline + 1
    let sl := sliceOf q.pline
    (s.modDie d (fun x => { x.updateCopy q.pline bs low n with
      forwarded := assocSet x.forwarded sl n
      unacked := x.unacked ++ [(sl, n)] })).depart { q with leg := .toHome, number := n } q.rdcRouter
  | .atomic _ _ _ => (s.modDie d (fun x => x.dropCopy q.pline)).depart { q with leg := .toHome } q.rdcRouter
  | .read _ _ =>
    if !q.kind.cached then s.depart { q with leg := .toHome } q.rdcRouter
    else
      let s := s.struck true d q.pline
      match (s.die d).copy q.pline with
      | some c => s.answer q c.bytes (if c.pend.isEmpty then 0 else s.newestWrite d q.pline)
      | none =>
        if s.net.any (fun r => r.fills d q.pline) then s
        else s.send (.slice d (sliceOf q.pline)) (coreKey q.core) 0 q.ctx q.vline q.pline (.read false false) [] false

/-! ### At the home (R289) -/

/-- A slice performs the requests for one line in the order in which they reach it. -/
def State.homeFirst (s : State) (q : Request) : Bool :=
  q.leg = .toHome && q.spot = .there && !q.performed
    && s.net.all (fun r => !(r.leg = .toHome && r.spot = .there && r.pline = q.pline && !r.performed && r.seat < q.seat))

/-- A reply leaves the home of its line, by the remote-data slice that its request has passed. -/
def State.replyFrom (s : State) (q : Request) : State :=
  let q := { q with leg := if q.by_.isSlice || !s.remote (dieOf q.core) q.pline then .backHere else .backSlice }
  if s.isFabric q.pline then s.place q .there else s.setOut q (16 * s.homeDie q.pline + sliceRouter (sliceOf q.pline))

/-- A request performed at its home, in the next place of the homes' order. -/
def State.perform (s : State) (q : Request) : State :=
  let (n, s) := s.fresh
  let q := { q with performed := true, stamp := n }
  match q.kind with
  | .read _ _ => s.replyFrom { q with reply := some (s.homeBytes q.pline 128) }
  | .write bs low => (s.homeWrite (nibbleBytes low s.homeByte bs)).replyFrom q
  | .atomic aop ret accs =>
    let r := s.atomsHome aop accs
    r.1.replyFrom { q with kind := .atomic aop ret r.2, reply := some (r.1.homeBytes q.pline 128) }

/-- L2_REQUEST (R289): a request is performed at its home slice, the line found there or brought there (R288). -/
def execL2Request (req : Nat) (s : State) : Res :=
  match s.req req with
  | some q =>
    if s.isFabric q.pline || !s.homeFirst q then .next s
    else
      let s := s.struck false (s.homeDie q.pline) q.pline
      let written := if q.kind.writes then (q.touches.filter (fun a => lineAddr a = q.pline)).map (fun a => a - q.pline) else []
      .next ((s.modDie (s.homeDie q.pline) (fun d => d.touchL2 q.pline written)).perform q)
  | none => .next s

/-! ### At the remote-data slice, on the way back (R290, R291, R326) -/

/-- A reply passes the remote-data slice: a write is acknowledged there; the reply of a bypassing or acquire read and of a returning atomic
refreshes a copy; an atomic without return drops one that is older. A fill of the line that its home performed before a write or an atomic
comes too late to be used, and the slice asks again (R291; log 24: DESIGN CHOICE). -/
def State.sliceReturn (s : State) (q : Request) : State :=
  let d := dieOf q.core
  let onCopy := fun (f : Copy → Copy) => s.modDie d (fun x => { x with copies := x.copies.map (fun c => if c.pline = q.pline then f c else c) })
  let refresh := onCopy (fun c => c.refresh (q.reply.getD []) q.stamp)
  let s := match q.kind with
    | .write _ _ => (onCopy (fun c => c.acked q.number q.stamp)).modDie d (fun x => { x with
        unacked := x.unacked.filter (fun u => !(u.1 = sliceOf q.pline ∧ u.2 = q.number)) })
    | .read bypass _ => if bypass then refresh else s
    | .atomic _ ret _ => if ret then refresh else s.modDie d (fun x => { x with
        copies := x.copies.filter (fun c => !(c.pline = q.pline && c.base < q.stamp)) })
  let s := if q.kind.writes then { s with net := s.net.map (fun r =>
      if r.fills d q.pline && r.performed && r.stamp < q.stamp then { r with noInstall := true } else r) } else s
  s.setOut { q with leg := .backHere } q.rdcRouter

/-- A die's writes of a line that wait for their acknowledgement, in the order of their numbers. -/
def State.pendingWrites (s : State) (d pline : Nat) : List Request :=
  (s.net.filter (fun r => dieOf r.core = d && r.pline = pline && (r.leg = .toHome || r.leg = .backSlice) && r.kind.writes && r.number ≠ 0)).mergeSort
    (fun a b => a.number ≤ b.number)
/-- A line with a write's bytes merged over it. -/
def Request.mergeOver (bs : List MByte) (r : Request) : List MByte := match r.kind with
  | .write ws low => overlay r.pline bs (nibbleBytes low (fun a => (bs[a - r.pline]?).getD ⟨0, false⟩) ws)
  | _ => bs

/-- The reads that wait at a slice for a fill and have left under no later epoch. -/
def State.waitingFor (s : State) (q : Request) : List Request :=
  s.net.filter (fun r => !r.by_.isSlice && dieOf r.core = dieOf q.core && r.pline = q.pline && r.leg = .toSlice && r.spot = .there
    && r.kind.cached && r.epoch ≤ q.epoch)

/-- A fill reaches its slice (R291): merged with the die's pending writes it is delivered only; under an older epoch as well; otherwise it is
installed. It serves the reads that wait for it and left under no later epoch. -/
def State.fillRdc (s : State) (q : Request) : State :=
  let d := dieOf q.core
  let waiting := s.waitingFor q
  let s := s.dropReq q.id
  if q.noInstall then s
  else
    let ws := s.pendingWrites d q.pline
    let bs := ws.foldl Request.mergeOver (q.reply.getD [])
    let s := if ws.isEmpty && q.epoch = (s.die d).epoch then s.modDie d (fun x => x.installCopy q.pline bs q.stamp) else s
    waiting.foldl (fun s r => s.answer r bs (if ws.isEmpty then 0 else s.newestWrite d q.pline)) s

/-- A request stands, answered, at the agent that it came from. -/
def Request.home (q : Request) : Bool := q.leg = .backHere && q.spot = .there

/-- RDC_FILL (R291). -/
def execRdcFill (req : Nat) (s : State) : Res :=
  match s.req req with
  | some q => if q.by_.isSlice && q.home && !q.dead then .next (s.fillRdc q) else .next s
  | none => .next s

/-! ### Delivery (R185, R193) -/

def OpKind.accs : OpKind → List LaneAcc
  | .load _ _ _ _ _ _ a => a
  | .store _ a => a
  | .release _ a _ => a
  | .atom _ _ _ _ _ a => a
  | .copy _ _ a _ => a
  | .tile _ _ a => a
  | _ => []
def OpKind.mapAccs (f : LaneAcc → LaneAcc) : OpKind → OpKind
  | .load d w sg h q r a => .load d w sg h q r (a.map f)
  | .atom o sc nr d l a => .atom o sc nr d l (a.map f)
  | .copy c r a m => .copy c r (a.map f) m
  | .tile t st a => .tile t st (a.map f)
  | k => k
/-- An operation of a wave that is still there changes. -/
def State.modOp (s : State) (x : WaveKey × Nat) (f : Op → Op) : State :=
  if s.hasWave x.1 then s.modWave x.1 (fun w => (w.op x.2).elim w (fun o => w.setOp (f o))) else s
/-- The operations that a request's reply is for. -/
def Request.users (q : Request) : List (WaveKey × Nat) := (q.key, q.op) :: q.sharers

/-- A line's bytes into the accesses that still lack them. -/
def LaneAcc.fill (vline : Nat) (bs : List MByte) (a : LaneAcc) : LaneAcc :=
  { a with bytes := a.bytes.map (fun b => if b.got.isNone && lineAddr b.va = vline then { b with got := bs[b.va % 128]? } else b) }
/-- The old value of a performed atomic into its access. -/
def LaneAcc.withOld (accs : List LaneAcc) (a : LaneAcc) : LaneAcc :=
  match accs.find? (fun x => x.lane = a.lane && x.home = a.home) with
  | some x => { a with old := x.old, oldPois := x.oldPois }
  | none => a
/-- A load with .STREAM (R186). -/
def Op.streams (o : Op) : Bool := match o.kind with
  | .load _ _ _ h _ _ _ => h = 1#2
  | _ => false

/-- A reply reaches its requester: its line fills the accesses that it serves, and the L1 unless it bypasses it or comes too late for it (R186);
its tag is free (R292). -/
def State.deliver (s : State) (q : Request) : State :=
  let s := match q.kind with
    | .read bypass _ =>
      let bs := q.reply.getD []
      let front := q.users.any (fun x => ((s.wave x.1).op x.2).any Op.streams)
      let s : State := q.users.foldl (fun (s : State) x => s.modOp x (fun o => { o with kind := o.kind.mapAccs (LaneAcc.fill q.vline bs) })) s
      let s := if q.number = 0 then s
        else q.users.foldl (fun (s : State) (x : WaveKey × Nat) => if s.hasWave x.1 then s.modWave x.1 (fun w => w.keepRdc (sliceOf q.pline) q.number) else s) s
      if bypass || q.noInstall then s
      else s.l1Fill q.core q.ctx q.vline q.pline
        (match s.translate q.ctx q.vline .read with
          | .ok _ e _ => some e
          | _ => none) bs front
    | .atomic _ _ accs => s.modOp (q.key, q.op) (fun o => { o with kind := o.kind.mapAccs (LaneAcc.withOld accs) })
    | .write _ _ => s
  s.dropReq q.id

/-! ### Timeouts and stale replies (R293 to R295) -/

/-- The failure of an operation grows by the lanes of one more failed line; its address is that of the lowest failing lane, and for an operation that
acts as a whole that of the failed byte (R196, R217, R294). code: of a negative reply, in TADDRHI[31:24] (R437). -/
def Op.failLine (o : Op) (cause code vline : Nat) : Op :=
  let accs := o.kind.accs
  let missed := ((accs.flatMap LaneAcc.bytes).find? (fun b => lineAddr b.va = vline && b.got.isNone)).elim vline ByteAcc.va
  let (m, a) : LaneMask × (LaneMask → Nat) := match o.kind with
    | .load _ _ _ _ _ (some _) _ => (o.lanes, fun _ => missed)
    | .copy _ _ _ _ => (o.lanes, fun _ => missed)
    | .tile _ _ _ => (o.lanes, fun _ => missed)
    | _ => (lanesOnLine accs vline, laneAddr accs)
  let all := o.failed ||| m
  let (cause, code) := o.fail.elim (cause, code) (fun f => (f.cause, f.addr.toNat / 2 ^ 56))
  { o with fail := some ⟨cause, all, BitVec.ofNat 64 (a all % 2 ^ 56 + code * 2 ^ 56), o.pc, o.cls = .ld⟩ }

/-- A request fails the operations that it serves: their lanes get no value, and the cause awaits the covering WAIT (R293, R437). A push fails the
release stores that wait for it: they are not performed (log 20: DEDUCED). -/
def State.failReq (s : State) (q : Request) (cause code : Nat) : State :=
  if q.owners.isEmpty then q.users.foldl (fun s x => s.modOp x (fun o => o.failLine cause code q.vline)) s
  else
    let waits := fun (o : Op) => match o.kind with
      | .release _ _ (.pushes mark) => q.id < mark
      | _ => false
    let hit := s.waves.flatMap (fun p => if q.owners.contains p.2.uid && p.1.core = q.core then (p.2.ops.filter waits).map (fun o => (p.1, o.id)) else [])
    let s := { s with net := s.net.filter (fun r => !hit.contains (r.key, r.op)) }
    hit.foldl (fun s x => s.modOp x (fun o =>
      { o with fail := some ⟨cause, o.lanes, BitVec.ofNat 64 (laneAddr o.kind.accs o.lanes % 2 ^ 56 + code * 2 ^ 56), o.pc, false⟩ })) s

/-- A timed-out request is not waited for any more: it goes where nothing will bring it back, else it comes back late (R295). -/
def State.giveUp (s : State) (q : Request) : State :=
  if q.spot = .lost then (s.dropReq q.id).forget q else s.setReq { q with dead := true }

/-- REQUEST_TIMEOUT (R293, R298, R445): the tag's generation advances and the tag is free; the request itself may still be on its way. -/
def execRequestTimeout (req : Nat) (s : State) : Res :=
  match s.req req with
  | some q =>
    if !q.dead && q.tag < 1024 && q.born + s.timeoutOf q ≤ s.clock then
      let s := s.failReq q causeTimeout 0
      let s := s.bumpTag q.core q.by_ q.tag
      let s := s.modDie (dieOf q.core) (fun d => { d with counters := { d.counters with timeouts := satInc d.counters.timeouts } })
      let s := s.logRec 0x0005 false (placeWord q.ctx q.core) false 0
        [BitVec.ofNat 32 q.pline, BitVec.ofNat 32 (q.pline / 2 ^ 32), BitVec.ofNat 32 q.tag, q.gen.setWidth 32]
      .next (s.giveUp q)
    else .next s
  | none => .next s

def State.countStale (s : State) (d : Nat) : State :=
  s.modDie d (fun x => { x with counters := { x.counters with stalereply := satInc x.counters.stalereply } })

/-- STALE_REPLY_DROP (R295): a reply that reaches its requester under an old generation is dropped and counted, on the requester's die. -/
def execStaleReplyDrop (req die : Nat) (s : State) : Res :=
  match s.req req with
  | some q => if q.dead && q.home && die = dieOf q.core then .next ((s.dropReq req).countStale die) else .next s
  | none => .next s

/-- PACKET_AGE_DISCARD (R295): a packet that has been in the package longer than 50 µs is discarded by the router or the port where it stands; a
reply is counted there. -/
def execPacketAgeDiscard (req die : Nat) (s : State) : Res :=
  match s.req req with
  | some q =>
    if q.spot.place.any (fun x => x.1 / 16 = die) && q.injected + 50 * Config.clocksPerUs < s.clock then
      let s := if q.dead then (s.dropReq req).forget q else s.setReq { q with spot := .lost }
      .next (if q.cls = 1 then s.countStale die else s)
    else .next s
  | none => .next s

/-! ### Operations that act at a home by themselves (rings, held atomics) -/

/-- What a home has been given from a core by itself makes older copies of the line stale: its die's copy, a fill and a read under way. -/
def State.freshHome (s : State) (core pline : Nat) : State :=
  let s := s.modDie (dieOf core) (fun d => d.dropCopy pline)
  { s with net := s.net.map (fun r =>
      if r.pline = pline && ((r.core = core && !r.by_.isSlice) || (r.fills (dieOf core) pline && r.performed)) then { r with noInstall := true, noShare := true } else r) }

/-- A core's writes of a line that are on their way are performed at its home before an operation that acts there by itself: what the core has
written before is in the line (R188, R325). The time that they take is not modelled (log 24: DESIGN CHOICE). -/
def State.hurry (s : State) (core pline : Nat) : State :=
  (s.net.filter (fun r => r.core = core && r.pline = pline && r.kind.writes && !r.performed && !s.heldBack r)).foldl (fun s q =>
    let s := (s.freshHome core pline).modDie (dieOf core) (fun d => { d with
      unacked := d.unacked.filter (fun u => !(u.1 = sliceOf pline ∧ u.2 = q.number)) })
    let (n, s) := s.fresh
    let q := { q with performed := true, stamp := n, leg := .backHere, spot := .there }
    match q.kind with
    | .read _ _ => s
    | .write bs low => (s.homeWrite (nibbleBytes low s.homeByte bs)).setReq q
    | .atomic aop ret accs => let r := s.atomsHome aop accs; r.1.setReq { q with kind := .atomic aop ret r.2 }) s

/-! ### The moves of one request -/

/-- A request that is not in the network goes on: into it, through the remote-data slice of its die, back through it, to its requester. -/
def execRequestStep (req : Nat) (s : State) : Res :=
  match s.req req with
  | none => .next s
  | some q => .next (match q.spot, q.leg with
    | .outside, _ => s.inject q
    | .there, .toSlice => s.slicePass q
    | .there, .backSlice => s.sliceReturn q
    | .there, .backHere => if q.dead || q.by_.isSlice then s else s.deliver q
    | .there, .toHome => s
    | .lost, _ => s
    | _, _ => s.hop q)

end Sys2Proof.Machine
end

