-- ==== Sys2Proof/Machine/Ring.lean ====
section
/-! DEFINITION. Rings (spec/09_core_memory.md R203 to R205), TSPAWN (spec/15_tasks_and_queues.md R315, R316), and accesses that engines
and dispatchers make byte by byte through a context's page table. -/

namespace Sys2Proof.Machine

/-! ### The control block (R203) -/

/-- Where a ring operation works: its block, and how it is reached. -/
structure RingAt where
  sp : Bool
  addr : Nat
  scope : Nat
  home : Bool
  deriving DecidableEq, Repr

/-- The queue that a virtual address is registered as (R302, R303). -/
def State.registered (s : State) (ctx va : Nat) : Option Nat :=
  ((s.context ctx).queues.find? (fun q => q.2.block = va)).map Prod.fst

def State.ringAt (s : State) (k : WaveKey) (f : UR) : RingAt :=
  let w := s.wave k
  let a := if f.sp then (w.sreg f.a 0).toNat else va56 (w.spair f.a).toNat
  ⟨f.sp, a, f.sc.toNat, 2 ≤ f.sc.toNat || (s.registered w.ctx a).isSome⟩

/-- A byte of the block as the operation's level holds it. -/
def State.ringByte (s : State) (k : WaveKey) (r : RingAt) (i : Nat) : MByte :=
  let w := s.wave k
  if r.sp then ((s.team w.team).spBytes (r.addr + i) 1).headD ⟨0, false⟩
  else if r.home then s.homeByte (s.paOf w.ctx (r.addr + i) .atomic)
  else match s.l1Byte k.core w.ctx w.team (r.addr + i) with
    | some b => ⟨b.val, b.pois⟩
    | none => s.homeByte (s.paOf w.ctx (r.addr + i) .atomic)
def State.ringBytes (s : State) (k : WaveKey) (r : RingAt) (off n : Nat) : List MByte := (List.range n).map (fun i => s.ringByte k r (off + i))
def State.ringWord (s : State) (k : WaveKey) (r : RingAt) (off : Nat) : Word := leWord ((s.ringBytes k r off 4).map MByte.val)

/-- Write a counter of the block at the operation's level (R205). -/
def State.ringPut (s : State) (k : WaveKey) (r : RingAt) (off : Nat) (v : Word) : State :=
  let w := s.wave k
  let bs := valBytes 4 v.toNat
  if r.sp then s.modTeam w.team (fun t => t.putWord (r.addr + off) v false)
  else
    let pa := s.paOf w.ctx (r.addr + off) .atomic
    let s := s.markRange w.ctx (r.addr + off) 1 .atomic
    if r.home then
      (s.homeWrite (bs.zipIdx.map (fun b => (pa + b.2, b.1)))).freshHome k.core (lineAddr pa)
    else s.l1Write k.core w.ctx (lineAddr r.addr) (lineAddr pa) none (bs.zipIdx.map (fun b => ((r.addr + off) % 128 + b.2, b.1))) w false

/-- A line of a context as an operation at its home finds it: the core's dirty bytes of it are home, and no copy is left in the L1 (R188). -/
def State.atItsHome (s : State) (core ctx vline pline : Nat) : State := (s.writeBack core ctx vline true).hurry core pline
/-- Before an operation on a block in memory the core's writes of it that are on their way are home, for one at home level its dirty bytes too. -/
def State.ringPrepare (s : State) (k : WaveKey) (r : RingAt) : State :=
  let ctx := (s.wave k).ctx
  let pline := lineAddr (s.paOf ctx r.addr .atomic)
  if r.sp then s else if r.home then s.atItsHome k.core ctx (lineAddr r.addr) pline else s.hurry k.core pline

/-- SLOTS is zero, above 2^20 or no power of two (R203). -/
def slotsIllegal (n : Word) : Bool := n = 0 || 2 ^ 20 < n.toNat || n &&& (n - 1) ≠ 0

/-! ### One attempt -/

/-- What an attempt comes to: it waits, the pushes of its release perhaps under way; reach: an address of a slot is to be reached first. -/
inductive RingOut where
  | wait (s : State) (mark : Option Nat)
  | done (s : State)
  | trap (cause : Nat) (addr info : Word)
  | reach (s : State) (va : Nat)

/-- The checks on the block's words (R203, R189, R443). -/
def State.blockFault (s : State) (k : WaveKey) (r : RingAt) (slotSize : Bool) : Option Nat :=
  let slots := s.ringBytes k r 12 4
  let size := s.ringBytes k r 8 4
  if !slots.any MByte.pois && slotsIllegal (leWord (slots.map MByte.val)) then some causeIllegalOperand
  else if slotSize && !size.any MByte.pois && bytesNat size ≠ 64 then some causeIllegalOperand
  else if (s.ringBytes k r 0 32).any MByte.pois then some causePoison else none

/-- An operation's success: the counter it raises, the value for s[D], as R204 gives them; none when it cannot succeed now. RREL
and TSPAWN go their own way. -/
def ringMove (op : RingOp) (n reserve commit peek release d : Word) : Option (Nat × Word × Option Word) :=
  match op with
  | .racq => if (reserve - release).toNat < n.toNat then some (0x10, reserve + 1, some (reserve % n)) else none
  | .rcmt => if commit % n = d then some (0x14, commit + 1, none) else none
  | .rpeek => if commit - peek ≠ 0 then some (0x18, peek + 1, some (peek % n)) else none
  | .rrel => none
  | .tspawn => none

/-- The effect of RREL on its block (R204), its release being done; a poisoned block gives a poisoned result. -/
def State.freeSlot (s : State) (k : WaveKey) (r : RingAt) (slot : Word) (qd : BitVec 3) : State :=
  let s := s.ringPrepare k r
  let n := s.ringWord k r 12
  let at_ := s.ringWord k r 28
  if (s.ringBytes k r 0 32).any MByte.pois then s.modWave k (fun w => w.setQ qd false true)
  else if n ≠ 0 && at_ % n = slot then (s.ringPut k r 28 (at_ + 1)).modWave k (fun w => w.setQ qd true false)
  else s.modWave k (fun w => w.setQ qd false false)

/-- An attempt of RACQ, RCMT, RPEEK or RREL (R204): RCMT waits for the wave's earlier accesses, RREL never waits: its effect follows them
when some are outstanding; an acquire invalidates after. TADDR of a SLOTS or poison fault is the low word of the block's address, its high
word 0 (R205 names none; log 71: DESIGN CHOICE). -/
def State.ringTry (s : State) (k : WaveKey) (op : RingOp) (f : UR) (mark : Option Nat) : RingOut :=
  let r := s.ringAt k f
  let s := s.ringPrepare k r
  let w := s.wave k
  match s.blockFault k r false with
  | some c => .trap c (BitVec.ofNat 32 r.addr) 0
  | none =>
    if op = .rrel then
      let rel := s.releaseTo k s.nextId r.scope none
      if w.fences.isEmpty && rel.2.2 then .done (rel.1.freeSlot k r (w.sreg f.d 0) f.qd)
      else .done (s.pushFence (.ringRelease r.sp r.addr r.scope r.home (w.sreg f.d 0) f.qd) r.scope)
    else match ringMove op (s.ringWord k r 12) (s.ringWord k r 16) (s.ringWord k r 20) (s.ringWord k r 24) (s.ringWord k r 28) (w.sreg f.d 0) with
    | none => if op = .rcmt || f.w then .wait s mark else .done (s.modWave k (fun w => w.setQ f.qd false false))
    | some (off, v, sd) =>
      let rel := if op = .rcmt then s.releaseTo k s.nextId r.scope mark else (s, none, true)
      if !rel.2.2 then .wait rel.1 rel.2.1
      else
        let s := rel.1.ringPut k r off v
        let s := s.modWave k (fun w =>
          let w := match sd with
            | some x => w.setS f.d x false
            | none => w
          if op = .rcmt then w else w.setQ f.qd true false)
        .done (if op = .rcmt then s else s.acquire k.core r.scope (fun c => c = w.ctx))

/-- The record's place in the ring, as the copy of R315 writes it. -/
def State.slotBase (s : State) (k : WaveKey) (r : RingAt) (slot : Nat) : Nat :=
  va56 (bytesNat (s.ringBytes k r 0 8) + 64 * slot)

/-- Copy the 64 bytes of the record into its slot. -/
def State.copyRecord (s : State) (k : WaveKey) (r : RingAt) (src slot : Nat) : State :=
  let w := s.wave k
  let bs := (s.team w.team).spBytes src 64
  let dst := s.slotBase k r slot
  if r.sp then s.modTeam w.team (fun t => t.putBytes dst bs)
  else
    let lines := ((List.range 64).map (fun i => lineAddr (va56 (dst + i)))).dedup
    let s := lines.foldl (fun s v => s.atItsHome k.core w.ctx v (lineAddr (s.paOf w.ctx v .write))) s
    lines.foldl (fun s v => s.freshHome k.core (lineAddr (s.paOf w.ctx v .write))) (s.vaWrite w.ctx dst bs)

/-- A TSPAWN whose slot is reserved: release and copy, then the commit in slot order (R315). -/
def State.spawnGo (s : State) (k : WaveKey) (f : UR) (pc : Word) (slot : Nat) (copied : Bool) (mark : Option Nat) : RingOut :=
  let r := s.ringAt k f
  let w := s.wave k
  let rel := if copied then (s, none, true) else s.releaseTo k s.nextId r.scope mark
  let dest := s.xlatRange w.ctx (s.slotBase k r slot) 64 .write
  if !rel.2.2 then .wait rel.1 rel.2.1
  else if !copied && !r.sp && dest.2.bad then .reach s dest.1
  else
  let s := if copied then s
    else ((rel.1.ringPrepare k r).copyRecord k r (w.sreg f.d 0).toNat slot).modWave k (fun w =>
      { w with spawning := assocSet w.spawning pc (slot, true) })
  if (s.ringWord k r 20 % s.ringWord k r 12).toNat = slot then
    let s := { s.ringPut k r 20 (s.ringWord k r 20 + 1) with lastDepEval := none }
    .done (s.modWave k (fun w => { w.setQ f.qd true false with spawning := assocErase w.spawning pc }))
  else .wait s none

/-- A TSPAWN attempt: at first it reserves a slot, or finds the ring full. -/
def State.spawnTry (s : State) (k : WaveKey) (f : UR) (pc : Word) (mark : Option Nat) : RingOut :=
  let r := s.ringAt k f
  let s := s.ringPrepare k r
  match assocGet (s.wave k).spawning pc with
  | some (slot, copied) => s.spawnGo k f pc slot copied mark
  | none =>
    match s.blockFault k r true with
    | some c => .trap c (BitVec.ofNat 32 r.addr) 0
    | none =>
      let w := s.wave k
      let n := s.ringWord k r 12
      let reserve := s.ringWord k r 16
      let slot := (reserve % n).toNat
      let dst := s.slotBase k r slot
      let dest := s.xlatRange w.ctx dst 64 .write
      if ((s.team w.team).spBytes (w.sreg f.d 0).toNat 64).any MByte.pois then .trap causePoison 0 0
      else if n.toNat ≤ (reserve - s.ringWord k r 28).toNat then
        if f.w then .wait s none else .done (s.modWave k (fun w => w.setQ f.qd false false))
      else if r.sp && (s.team w.team).spSize < dst + 64 then .trap causeBounds (BitVec.ofNat 32 dst) 0
      else if !r.sp && dest.2.bad then .reach s dest.1
      else
        let s := s.ringPut k r 16 (reserve + 1)
        let s := s.modWave k (fun w => { w with spawning := assocSet w.spawning pc (slot, false) })
        s.spawnGo k f pc slot false none

def State.ringAttempt (s : State) (k : WaveKey) (op : RingOp) (f : UR) (pc : Word) (mark : Option Nat) : RingOut :=
  match op with
  | .tspawn => s.spawnTry k f pc mark
  | _ => s.ringTry k op f mark

/-! ### Issue -/

/-- A virtual address as the issuing path reaches it: go on, or trap, scout or wait (R359 to R365). -/
def State.reach (s : State) (va : Nat) (acc : Access) (effect : State → Res) : Res :=
  match s.translate s.cur.ctx va acc with
  | .ok _ _ _ => effect (s.modCur (fun w => { w with refused := [] }))
  | .fault c r l => .next (s.trap s.sel.key ⟨c, false, s.sel.pc, s.sel.mask, BitVec.ofNat 64 va, xlatInfo r l acc⟩)
  | .noPage l =>
    if s.cur.refused.contains (va / 65536) then
      .next ((s.modCur (fun w => { w with refused := [] })).trap s.sel.key
        ⟨causePageFault, false, s.sel.pc, s.sel.mask, BitVec.ofNat 64 va, xlatInfo 0 l acc⟩)
    else .next (s.enterScout va acc.code [] none)
  | .migrating l => .next (s.waitMigrating va l acc s.sel.mask)

/-- Where the words of a scratchpad block stand that an operation reads (R147 UNIT 4). -/
def ringReads (op : RingOp) : List Nat := match op with
  | .racq => [12, 16, 28]
  | .rcmt => [12, 20]
  | .rpeek => [12, 20, 24]
  | .rrel => [12, 28]
  | .tspawn => [0, 4, 8, 12, 16, 28, 20]

/-- The attempt at issue: done, waiting in place, trapped precisely, or once a page of its slot can be reached (R315, R361 to R365). -/
def State.ringIssue (s : State) (op : RingOp) (f : UR) : Res :=
  match s.ringAttempt s.sel.key op f s.sel.pc none with
  | .done s => .next s.advance
  | .wait s mark => .next (s.waitFor (.ring op f mark))
  | .trap c a i => .next (s.trap s.sel.key ⟨c, false, s.sel.pc, s.sel.mask, a.setWidth 64, if i = 0 then s.sel.word else i⟩)
  | .reach s va => s.reach va .write (fun s => .next s)

/-- A ring instruction (R204, R205, R236, R303): region, operand, alignment and bounds checks, the block's page, then the attempt. -/
def State.ringOp (s : State) (op : RingOp) (f : UR) : Res :=
  let w := s.cur
  let t := s.curTeam
  let path := s.sel.mask
  let readsD := op = .rcmt || op = .rrel || op = .tspawn
  let aPois := if f.sp then w.sregPois f.a else w.spairPois f.a
  let dPois := readsD && w.sregPois f.d
  let r := s.ringAt s.sel.key f
  let d := (w.sreg f.d 0).toNat
  let rec_ := op = .tspawn && !dPois
  let at_ := BitVec.ofNat 64 r.addr
  let prot : Option TrapReq := if !f.sp && !aPois && (op = .rpeek || op = .rrel) then
      (s.registered w.ctx r.addr).map (fun q => ⟨causeProt, false, s.sel.pc, path, at_, BitVec.ofNat 32 (0x30000 + q)⟩)
    else none
  match firstTrap
    [ s.check ((op = .tspawn || !f.sp) && s.regionOpen w.team) causeRgnViolation path 0,
      s.check (!aPois && r.addr % 32 ≠ 0) causeMisalign path at_,
      s.check (rec_ && d % 64 ≠ 0) causeMisalign path (BitVec.ofNat 64 d),
      s.check (!aPois && f.sp && t.spSize < r.addr + 32) causeBounds path at_,
      s.check (rec_ && t.spSize < d + 64) causeBounds path (BitVec.ofNat 64 d),
      prot,
      s.check (aPois || dPois) causePoison path 0 ] with
  | some x => .next (s.trap s.sel.key x)
  | none =>
    if f.sp then
      let (s, bad, aborted) := s.spParity path (fun _ => (ringReads op).map (fun o => r.addr + o))
      if aborted then .next s
      else if !bad.isEmpty then .next (s.trapHere causePoison path 0)
      else s.ringIssue op f
    else s.reach r.addr .atomic (fun s => s.ringIssue op f)

/-- RACQ (R204). -/
def execRacq (f : UR) (s : State) : Res := s.ringOp .racq f
/-- RCMT (R204): always waits in place. -/
def execRcmt (f : UR) (s : State) : Res := s.ringOp .rcmt f
/-- RPEEK (R204). -/
def execRpeek (f : UR) (s : State) : Res := s.ringOp .rpeek f
/-- RREL (R204): it never waits; it takes effect after the accesses that its release carries. -/
def execRrel (f : UR) (s : State) : Res := s.ringOp .rrel f
/-- TSPAWN (R315). -/
def execTspawn (f : UR) (s : State) : Res := s.ringOp .tspawn f

/-- RING_RETRY (R204): the attempt is made again; a failure is precise at the waiting instruction. A page of the slot that cannot be reached
is met by the instruction as it issues again (R315, R361). -/
def execRingRetry (w : WaveKey) (pc : Word) (s : State) : Res :=
  let x := s.wave w
  match x.waitAt pc with
  | some wt =>
    match wt.why with
    | .ring op f mark =>
      let block := s.ringAt w f
      if !x.waitRuns wt || (!f.sp && (s.translate x.ctx block.addr .atomic).bad) then .next s
      else match s.ringAttempt w op f pc mark with
        | .done s => .next (s.modWave w (fun y => y.endWait wt))
        | .wait s mark =>
          .next (s.modWave w (fun y => { y with waits := y.waits.map (fun z => if z = wt then { z with why := .ring op f mark } else z) }))
        | .trap c a i =>
          .next ((s.modWave w (fun y => y.releaseWait wt)).trap w ⟨c, false, pc, wt.lanes, a.setWidth 64, if i = 0 then s.wordAt w pc else i⟩)
        | .reach s _ => .next (s.modWave w (fun y => y.releaseWait wt))
    | _ => .next s
  | none => .next s

/-- RING_TIMEOUT (R205, R315): precise, no counter changed; RREL does not wait. -/
def execRingTimeout (w : WaveKey) (pc : Word) (s : State) : Res :=
  let x := s.wave w
  match x.waitAt pc with
  | some wt =>
    match wt.why with
    | .ring _ f _ =>
      if x.waitRuns wt && s.overdue x.ctx wt.since wt.limit then
        .next ((s.modWave w (fun y => y.releaseWait wt)).trap w
          ⟨causeRingTimeout, false, pc, wt.lanes, BitVec.ofNat 64 (s.ringAt w f).addr, s.wordAt w pc⟩)
      else .next s
    | _ => .next s
  | none => .next s

/-! ### Ordering actions done (R197, R201, R204, R273) -/

/-- FENCE_ACTION_COMPLETE (R197, R201, R204, R273, R274, R397): the oldest action of the wave, once what it covers has completed. -/
def execFenceActionComplete (w : WaveKey) (s : State) : Res :=
  let x := s.wave w
  match x.fences with
  | [] => .next s
  | f :: _ =>
    match f.what with
    | .fence kind =>
      let rel := if kind = 0#2 then (s, x.earlierDone f.upTo [.ld]) else s.fenceRelease w f
      .next (if rel.2 then (if kind = 1#2 then rel.1 else rel.1.acquire w.core f.scope (fun c => c = x.ctx)).popFence w else rel.1)
    | .groupArrive n d =>
      let rel := s.fenceRelease w f
      .next (if rel.2 && x.count .rs = 0 then (rel.1.popFence w).groupArrive w n d else rel.1)
    | .groupAcquire =>
      if x.earlierDone f.upTo [.ld] then
        .next (((s.acquire w.core f.scope (fun c => c = x.ctx)).popFence w).modWave w (fun y =>
          (y.waits.filter (fun z => z.why = .groupLeft f.upTo)).foldl Wave.endWait y))
      else .next s
    | .barArrive a n d =>
      let rel := s.fenceRelease w f
      .next (if rel.2 then (rel.1.popFence w).makeArrival w a n d else rel.1)
    | .ringRelease sp addr scope home slot qd =>
      let rel := s.fenceRelease w f
      .next (if rel.2 then (rel.1.popFence w).freeSlot w ⟨sp, addr, scope, home⟩ slot qd else rel.1)
    | .pixelRelease m =>
      let rel := s.fenceRelease w f
      .next (if rel.2 then (rel.1.popFence w).modWave w (fun y =>
        y.mapFrags m (fun g => if g.locked then { g with released := true } else g)) else rel.1)
    | .trigger _ => .next s

end Sys2Proof.Machine
end

