-- ==== Sys2Proof/Machine/Region.lean ====
section
/-! DEFINITION. The team rendezvous (spec/11_regions_and_regrouping.md R230), opening, committing and aborting a region (R231 to R245),
the place of a replay (spec/13 R276, R277), and regrouping (R246 to R253). -/

namespace Sys2Proof.Machine

/-! ### The rendezvous (R230) -/

/-- The mnemonic of a rendezvous instruction, as its opcode. -/
def rdvCode : Instr → Nat
  | .rgnb _ => 0xBC
  | .rgnc _ => 0xBD
  | .regrp _ => 0x4D
  | _ => 0

/-- The PC at which earlier waves of the team wait for another rendezvous than this one. (Log 32: DEDUCED.) -/
def State.rdvClash (s : State) (i : Instr) : Option Word :=
  (s.teamWaves s.cur.team).findSome? (fun p => p.2.rdvWait.bind (fun x =>
    if rdvCode x.2 ≠ rdvCode i ∨ (rdvCode i = 0x4D ∧ x.1.pc ≠ s.sel.pc) then some x.1.pc else none))

/-- Join the rendezvous, or meet one of another kind. (Log 32: DEDUCED.) -/
def State.rendezvous (s : State) (i : Instr) : Res :=
  match s.rdvClash i with
  | some pc => .next (s.trap s.sel.key ⟨causeCollMismatch, false, s.sel.pc, s.sel.mask, 0, pc⟩)
  | none => .next (s.waitFor (.rendezvous i))

/-- The waves of a team that wait at a rendezvous, by wave index. -/
def State.rdvWaves (s : State) (t : Nat) : List (WaveKey × Wave × Wait × Instr) :=
  (List.range 32).filterMap (fun n => (s.teamWaves t).findSome? (fun p =>
    if p.2.index.toNat = n then p.2.rdvWait.map (fun x => (p.1, p.2, x.1, x.2)) else none))

/-- Every wave of the rendezvous goes on. -/
def State.rdvGo (s : State) (l : List (WaveKey × Wave × Wait × Instr)) : State :=
  l.foldl (fun s x => s.modWave x.1 (fun w => w.endWait x.2.2.1)) s

/-- Every wave of the rendezvous takes a trap, precise at its instruction; info gives TINFO from the instruction word. -/
def State.rdvTrap (s : State) (l : List (WaveKey × Wave × Wait × Instr)) (cause : Nat) (addr : DWord) (info : Word → Word) : State :=
  l.foldl (fun s x =>
    if s.hasWave x.1 then
      (s.modWave x.1 (fun w => w.releaseWait x.2.2.1)).trap x.1
        ⟨cause, false, x.2.2.1.pc, x.2.2.1.lanes, addr, info (s.wordAt x.1 x.2.2.1.pc)⟩
    else s) s

/-! ### Opening a region (R231, R232) -/

/-- A window descriptor: its start and its bytes. -/
def windowOf (d : Word) : Nat × Nat := ((d.extractLsb' 0 19).toNat, (d.extractLsb' 20 12).toNat * 128)
/-- Two nonempty windows overlap. -/
def windowsOverlap (a b : Nat × Nat) : Bool := a.2 ≠ 0 && b.2 ≠ 0 && a.1 < b.1 + b.2 && b.1 < a.1 + a.2

/-- RGNB (R231). -/
def execRgnb (f : UC) (s : State) : Res :=
  let w := s.cur
  let t := s.curTeam
  let path := s.sel.mask
  let m := w.spair f.a
  let d0 := w.sreg f.b 0
  let d1 := w.sreg (f.b + 1) 0
  let wins := [windowOf d0, windowOf d1].filter (fun x => x.2 ≠ 0)
  let mis := wins.find? (fun x => x.1 % 128 ≠ 0)
  let oob := wins.find? (fun x => t.spSize < x.1 + x.2)
  let at_ := fun (x : Option (Nat × Nat)) => BitVec.ofNat 64 ((x.map Prod.fst).getD 0)
  match firstTrap
    [ s.check (s.regionOpen w.team) causeRgnViolation path 0,
      s.check (w.spairPois f.a || w.spairPois f.b) causePoison path 0,
      s.check (m.extractLsb' 62 2 ≠ 0) causeIllegalOperand path 0,
      s.check (d0.getLsbD 19 || d1.getLsbD 19 || windowsOverlap (windowOf d0) (windowOf d1)) causeIllegalOperand path 0,
      s.check mis.isSome causeMisalign path (at_ mis),
      s.check oob.isSome causeBounds path (at_ oob) ] with
  | some x => .next (s.trap s.sel.key x)
  | none => s.rendezvous (.rgnb f)

/-- A wave as the checkpoint holds it (R232): its masked rows, uniform state and thread status, every live thread at the resume PC. (Log 27: DEDUCED.) -/
def Wave.image (w : Wave) (rows : List (Nat × Row)) (resume : Word) : Wave :=
  { w with
    lanes := w.lanes.map (fun l => { l with
      pc := if l.isLive then resume else l.pc
      block := .none
      stopped := false
      passed := 0
      yieldSpan := .none })
    rows := rows
    ops := []
    pend := []
    waits := []
    fences := []
    growStall := false
    granted := 0
    swapped := none
    swapCandidate := false
    dbgStep := false
    stop := .running
    refused := []
    spawning := []
    rdcKept := [] }

/-- The live mask and the windows of a wave waiting at its RGNB. -/
def rgnbMask (w : Wave) : Instr → DWord
  | .rgnb f => w.spair f.a
  | _ => 0
def rgnbWindows (w : Wave) : Instr → List (Nat × Nat)
  | .rgnb f => [windowOf (w.sreg f.b 0), windowOf (w.sreg (f.b + 1) 0)].filter (fun x => x.2 ≠ 0)
  | _ => []

def inWindows (wins : List (Nat × Nat)) (a : Nat) : Bool := wins.any (fun x => x.1 ≤ a && a < x.1 + x.2)

/-- The rows of the masked names of a wave as they are read, those that have been swapped out among them (R172, R174, R232). -/
def State.maskedRows (s : State) (k : WaveKey) (m : DWord) : List (Nat × Row) :=
  (((s.wave k).rows ++ s.swappedRows k).filter (fun r => m.getLsbD r.1)).map (fun r => (r.1, r.2.read))

/-- The region opens (R231): the checkpoint is written from the windows of the wave with the lowest index; a parity error found as a row is
read is saved as poison (R232). -/
def State.openRegion (s : State) (t : Nat) (l : List (WaveKey × Wave × Wait × Instr)) : State :=
  let s := l.foldl (fun s y => (s.readNames y.1 (fun n => (rgnbMask y.2.1 y.2.2.2).getLsbD n)).1) s
  let x := s.team t
  let wins := (l.head?.map (fun y => rgnbWindows y.2.1 y.2.2.2)).getD []
  let ck : Checkpoint := ⟨l.map (fun y => y.2.1.image (s.maskedRows y.1 (rgnbMask y.2.1 y.2.2.2)) y.2.2.1.next), wins,
    x.sp.filter (fun c => inWindows wins c.1), x.spPois.filter (fun a => inWindows wins (4 * a)),
    x.spPar.filter (fun a => inWindows wins (4 * a)), x.armed.filter (fun a => inWindows wins (16 * a)), []⟩
  (s.setTeam t { x with rgnstat := 1, rgnatt := 1, region := some ⟨ck, [], [], false, false, [], []⟩ }).rdvGo l

/-! ### Committing (R237, R238) -/

/-- RGNC (R237): an overflow that has fallen due is delivered first, asynchronously, the RGNC to be issued again (R235). -/
def execRgnc (f : U3) (s : State) : Res :=
  let w := s.cur
  if !s.regionOpen w.team then .next (s.trapHere causeRgnViolation s.sel.mask 0)
  else match w.pend.find? (fun p => p.fail.cause = causeRgnViolation && !w.handler) with
    | some p =>
      let s := s.modCur (fun w => { w with pend := w.pend.filter (fun y => y != p) })
      .next (s.trap s.sel.key ⟨causeRgnViolation, true, s.sel.pc, p.fail.lanes, p.fail.addr, 0⟩)
    | none => s.rendezvous (.rgnc f)

/-- The addresses of held bytes with poison, of the L1 and the journal, and of queued atomics with poisoned data (R238). -/
def State.heldPoison (s : State) (t : Nat) : List Nat :=
  let r := (s.team t).region
  (s.heldLines t).flatMap (fun l => (l.bytes.filter (fun b => b.2.pois)).map (fun b => l.vline + b.1))
    ++ (s.journalOf t).filterMap (fun j => if j.2.2.pois then some j.1 else none)
    ++ ((r.map Region.atomics).getD []).flatMap (fun h => h.accs.filterMap (fun a =>
      if a.data.any MByte.pois then (a.bytes.head?.map ByteAcc.va) else none))

/-- Bytes into the ordinary line of an address, dirty and belonging to owners. -/
def State.l1Put (s : State) (core ctx vline pline : Nat) (bs : List (Nat × MByte)) (owners : List Nat) : State :=
  let l := ((s.core core).line ctx vline none).getD ⟨ctx, vline, pline, true, true, none, []⟩
  s.putLine core { l with bytes := bs.foldl (fun acc b => assocSet acc b.1 ⟨b.2.val, b.2.pois, true, owners⟩) l.bytes } false

/-- The commit in one step (R237): every held line becomes an ordinary one, its bytes dirty for every wave of the team. A journal byte whose
line the L1 holds becomes such a byte too; the others are still to go home. -/
def State.commitHeld (s : State) (t : Nat) (owners : List Nat) : State :=
  let x := s.team t
  let held := s.heldLines t
  let journal := s.journalOf t
  let s := s.modCore x.core (fun c => { c with l1 := c.l1.filter (fun l => l.held ≠ some t) })
  let here := fun (j : Nat × Nat × MByte) => ((s.core x.core).byteIn x.ctx j.1 none).isSome
  let s := (journal.filter here).foldl (fun s j => s.l1Put x.core x.ctx (lineAddr j.1) (lineAddr j.2.1) [(j.1 % 128, j.2.2)] owners) s
  let s := held.foldl (fun s l => s.l1Put x.core x.ctx l.vline l.pline (l.bytes.map (fun b => (b.1, ⟨b.2.val, b.2.pois⟩))) owners) s
  s.modTeam t (fun y => { y with region := y.region.map (fun r =>
    { r with committing := true, journal := journal.filter (fun j => !here j) }) })

/-- A held atomic of one lane performed at its scope: at the home of its bytes, or in the core's L1 (R188, R237). -/
def State.heldAtomic (s : State) (core ctx : Nat) (owners : List Nat) (h : HeldAtomic) (a : LaneAcc) : State :=
  let uncached := match s.translate ctx a.home.1 .atomic with
    | .ok _ e _ => Pte.mtype e = 1
    | _ => false
  if 2 ≤ h.scope || uncached then (((s.atItsHome core ctx a.home.1 a.home.2).atomHome h.aop a).1).freshHome core a.home.2
  else
    let s := s.hurry core a.home.2
    let old := a.bytes.map (fun b => match (s.core core).byteIn ctx b.va none with
      | some x => (⟨x.val, x.pois⟩ : MByte)
      | none => s.homeByte b.pa)
    let bs := a.bytes.zip (atomBytes h.aop old a.data)
    ((bs.map (fun b => (lineAddr b.1.va, lineAddr b.1.pa))).dedup).foldl (fun s l =>
      s.l1Put core ctx l.1 l.2 ((bs.filter (fun b => lineAddr b.1.va = l.1)).map (fun b => (b.1.va % 128, b.2))) owners) s

/-- The journal's lines go home as evictions do (R237 step 4). -/
def State.pushJournal (s : State) (t : Nat) (owners : List Nat) : State :=
  let x := s.team t
  let journal := (x.region.map Region.journal).getD []
  let s := s.setTeam t { x with region := x.region.map (fun r => { r with journal := [] }) }
  ((journal.map (fun j => (lineAddr j.1, lineAddr j.2.1))).dedup).foldl (fun s l =>
    s.pushHome x.core x.ctx l.1 l.2 ((journal.filter (fun j => lineAddr j.1 = l.1)).map (fun j => (j.2.1, j.2.2))) owners) s

/-- The end of a commit (R237 steps 4 and 5): the atomics in order; the region is closed. -/
def State.finishCommit (s : State) (t : Nat) (owners : List Nat) : State :=
  let x := s.team t
  let r := x.region
  let s := s.setTeam t { x with rgnstat := x.rgnstat &&& ~~~1#32, region := none }
  ((r.map Region.atomics).getD []).foldl (fun s h => h.accs.foldl (fun s a => s.heldAtomic x.core x.ctx owners h a) s) s

/-- RGNC's team-level effect at its rendezvous: the held bytes are read, an error in them aborting the region (R240, R243), then the checks of
R238, then the commit. -/
def State.commitPoint (s : State) (t : Nat) (l : List (WaveKey × Wave × Wait × Instr)) : State :=
  let x := s.team t
  match (x.region.map Region.struck).getD [] with
  | va :: _ => s.heldStruck t va
  | [] =>
  match s.heldPoison t with
  | a :: rest => s.rdvTrap l causePoison (BitVec.ofNat 64 (rest.foldl min a)) (fun _ => x.rgnstat)
  | [] =>
    if (x.region.map Region.overfull).getD false then s.rdvTrap l causeRgnViolation 0 (fun _ => 0)
    else s.commitHeld t (l.map (fun y => y.2.1.uid))

/-- RGNC_COMPLETION (R237): the journal is written and acknowledged, held atomics are performed, and every wave goes on. -/
def execRgncCompletion (team : Nat) (s : State) : Res :=
  let x := s.team team
  if (x.region.map Region.committing).getD false then
    let l := s.rdvWaves team
    let owners := l.map (fun y => y.2.1.uid)
    if !((x.region.map Region.journal).getD []).isEmpty then .next (s.pushJournal team owners)
    else if owners.any (fun o => s.pushing o s.nextId []) then .next s
    else .next ((s.finishCommit team owners).rdvGo l)
  else .next s

/-! ### RGNA (R244) -/

/-- RGNA (R244): a poisoned reason raises POISON (R189). -/
def execRgna (f : U3) (s : State) : Res :=
  let w := s.cur
  s.uniGuard f.qg f.qn (s.guarded [ s.check (!s.regionOpen w.team) causeRgnViolation s.sel.mask 0,
                                    s.check (w.sregPois f.a) causePoison s.sel.mask 0 ]
    (s.abortRgna w.team ((w.sreg f.a f.lit).toNat % 65536) w.index))

/-! ### Regrouping (R246 to R253) -/

/-- REGRP at issue (R246). -/
def execRegrp (f : VX) (s : State) : Res :=
  match s.laneBegin (vname f.a) 7#3 false [] [] with
  | .stop s => .next s
  | .go s _ =>
    let w := s.cur
    let path := s.sel.mask
    let keys := path &&& w.vsrcPois f.a
    match firstTrap
      [ s.check ((w.spair f.b).extractLsb' 62 2 ≠ 0 && !w.spairPois f.b) causeIllegalOperand path 0,
        s.check (w.spairPois f.b) causePoison path 0,
        s.check (keys ≠ 0) causePoison keys 0 ] with
    | some x => .next (s.trap s.sel.key x)
    | none => s.rendezvous (.regrp f)

/-- One thread of the team on the move: its key, where it stood, its wave and that wave's live mask. -/
structure Mover where
  key : Nat
  old : WaveKey
  lane : Fin 32
  wave : Wave
  mask : DWord
  instr : Instr

def regrpKey (w : Wave) (i : Fin 32) : Instr → Nat
  | .regrp f => (w.vsrc f.a f.lit i).toNat % 256
  | _ => 0
def regrpMask (w : Wave) : Instr → DWord
  | .regrp f => w.spair f.b
  | _ => 0
def regrpPack : Instr → Bool
  | .regrp f => f.fn.getLsbD 0
  | _ => false
def regrpDest : Instr → BitVec 6
  | .regrp f => f.d
  | _ => 63

/-- The live threads of the team in the order of R248 within each key. -/
def movers (l : List (WaveKey × Wave × Wait × Instr)) : List Mover :=
  l.flatMap (fun y => (maskLanes y.2.1.live).map (fun i => ⟨regrpKey y.2.1 i y.2.2.2, y.1, i, y.2.1, regrpMask y.2.1 y.2.2.2, y.2.2.2⟩))

/-- A list cut into pieces of 32. -/
def pieces {α : Type} : Nat → List α → List (List α)
  | 0, _ => []
  | n + 1, l => if l.isEmpty then [] else l.take 32 :: pieces n (l.drop 32)

/-- The threads by ascending key. -/
def byKey (ms : List Mover) : List (List Mover) :=
  ((List.range 256).map (fun k => ms.filter (fun m => m.key = k))).filter (fun l => !l.isEmpty)

/-- The two layouts of R248. -/
def unpacked (ms : List Mover) : List (List Mover) := (byKey ms).flatMap (fun l => pieces 1024 l)
def packed (ms : List Mover) : List (List Mover) :=
  (byKey ms).flatMap (fun l => pieces 1024 (l.take (l.length / 32 * 32))) ++ pieces 1024 ((byKey ms).flatMap (fun l => l.drop (l.length / 32 * 32)))

/-- The names a new wave maps: the union of the masks of the waves that supply it (R249). (Log 33: DEDUCED.) -/
def unionMask (g : List Mover) : DWord := g.foldl (fun m x => m ||| x.mask) 0
/-- The rows a layout needs (R248). (Log 33: DEDUCED.) -/
def layoutRows (l : List (List Mover)) : Nat := (l.map (fun g => (maskNames (unionMask g)).length)).sum

/-- The rows that a core's pool can supply to a team's move: all that no granule drains or withdrawal takes, the rows of other waves
counting because they can be swapped out. -/
def State.rowSupply (s : State) (core : Nat) : Nat :=
  let x := s.core core
  x.openGrans.length * Config.rowsPerGranule - (x.withdrawnRows.filter (fun a => x.openGrans.contains (granOf a))).length

/-- L of R248 as a test on the unpacked layout. -/
def State.unpackedFits (s : State) (t : Nat) (held : Nat) (l : List (List Mover)) : Bool :=
  let x := s.team t
  let room := ((List.range 4).map (fun q => 16 - State.quarterLoad (s.usedSlots x.core) q)).sum
  l.length ≤ x.declared && l.length ≤ held + room && layoutRows l ≤ s.rowSupply x.core

/-- One row of a new wave (R249): what each supplying thread brings, zero and clean elsewhere; its words have just been read (R253). -/
def movedRow (g : List Mover) (n : Nat) : Row :=
  let src := fun (i : Fin 32) => (g[i.val]?).bind (fun m => if m.mask.getLsbD n then some m else none)
  { words := Vector.ofFn (fun i => match src i with
      | some m => m.wave.vword n m.lane
      | none => 0)
    pois := maskOf (fun i => match src i with
      | some m => (m.wave.vpois n).getLsbD m.lane.val
      | none => false)
    par := 0
    readers := maskOf (fun i => match src i with
      | some m => ((m.wave.row n).map (fun r => r.readers.getLsbD m.lane.val)).getD false
      | none => false)
    place := 0 }

/-- The position word (R251). -/
def positionWord (g : List Mover) (w i : Nat) : Word :=
  let mixed := (g.map Mover.key).dedup.length > 1
  BitVec.ofNat 32 ((if mixed then 0x40000 else 0) + ((g[i]?).map Mover.key).getD 0 * 1024 + w * 32 + i)

/-- The pixel state of a new wave: the fragments of its threads, at their new lanes. -/
def movedFrags (g : List Mover) : List Frag :=
  g.zipIdx.filterMap (fun m => m.1.wave.pixel.bind (fun q =>
    (q.frags.find? (fun f => f.lane = m.1.lane.val)).map (fun f => { f with lane := m.2 })))
def movedPixel (g : List Mover) : Option PixelWave :=
  (g.head?.bind (fun m => m.wave.pixel)).map (fun p => { p with frags := movedFrags g })

/-- A new wave (R249, R250), its rows still to be mapped. first: no new wave before it has its uniform state from the same old wave; only
that one takes over an armed injection, which is one error (R147; log 29: DEDUCED). -/
def movedWave (g : List Mover) (uid idx : Nat) (first : Bool) (flags : Word) (next : Word) : Wave :=
  let src := (g.head?.map Mover.wave).getD Wave.absent
  { src.image [] next with
    uid := uid
    index := BitVec.ofNat 5 idx
    lanes := Vector.ofFn (fun (i : Fin 32) => match g[i.val]? with
      | some m => { m.wave.lanes[m.lane] with pc := next, block := .none, stopped := false, passed := 0, yieldSpan := .none }
      | none => Lane.absent)
    rows := (maskNames (unionMask g)).map (fun n => (n, movedRow g n))
    fpc := (src.fpc &&& 0x1F) ||| flags
    errinj := if first then src.errinj else src.errinj &&& 0x7FFFFFFF
    rdcKept := g.foldl (fun acc m => m.wave.rdcKept.foldl (fun acc k => assocSet acc k.1 (max k.2 ((assocGet acc k.1).getD 0))) acc) []
    pixel := movedPixel g }

/-- The position words go into the destination of the REGRP (R251). -/
def State.putPositions (s : State) (k : WaveKey) (g : List Mover) : State :=
  let d := (g.head?.map (fun m => regrpDest m.instr)).getD 63
  let pool := s.pool k.core
  s.modWave k (fun w => w.putV pool d w.live (fun i => positionWord g w.index.toNat i.val) 0)

/-- A wave is swapped out (R168, R169): its rows leave the pool. -/
def Wave.swapOut (w : Wave) : Wave := { w with rows := [], swapped := some w.rows, swapCandidate := false }

/-- A wave is swapped out (R168, R169): its rows are read and leave the pool as they enter the swap granule. -/
def State.swapAway (s : State) (k : WaveKey) : State :=
  match s.readAllRows k with
  | (s, true) => s
  | (s, false) =>
    let names := (s.wave k).rows.map Prod.fst
    (s.modWave k Wave.swapOut).modCore k.core (fun c => { c with swapRows := c.swapRows ++ names.map (fun n => (k.slot, n)) })

/-- Swap out other teams' waves, the youngest first, until so many rows are free (R248), the granule drained as it fills; a wave that no wait
keeps goes to the queue's tail. -/
def State.swapFor (s : State) (core t need : Nat) : Nat → State
  | 0 => s
  | n + 1 =>
    if need ≤ s.rowsFree core then s
    else
      match ((s.coreWaves core).filter (fun p => p.2.team ≠ t ∧ p.2.swapped.isNone ∧ p.2.rows ≠ [])).foldl (fun best p =>
          match best with
          | none => some p
          | some b => if b.2.uid < p.2.uid then some p else some b) (none : Option (WaveKey × Wave)) with
      | none => s
      | some p =>
        let s := if (s.core core).swapRows.length + p.2.rows.length ≤ Config.rowsPerGranule then s
          else (((s.core core).swapRows.map Prod.fst).dedup).foldl (fun s slot => s.drainSwap ⟨core, slot⟩) s
        let s := s.swapAway p.1
        let s := if !s.hasWave p.1 || (s.core core).rowQueue.any (fun q => q.1 = p.1.slot)
            || p.2.laneMask (fun l => l.isLive && l.block == .waiting) = p.2.live then s
          else s.modCore core (fun c => { c with rowQueue := c.rowQueue ++ [(p.1.slot, 0)] })
        s.swapFor core t need n

/-- The lowest armed object in mid-phase (R247). -/
def Team.midPhase (x : Team) : Option Nat := ((x.armed.map (· * 16)).filter (fun a => x.arrivedAt a ≠ 0)).foldl (fun best a =>
  match best with
  | none => some a
  | some b => some (min a b)) none
/-- A group at which some but not all of the team's live waves have arrived (R275). -/
def State.midGroup (s : State) (t : Nat) : Bool :=
  s.groups.any (fun g =>
    (assocGet g.2.waves t).getD 0 ≠ 0 && s.liveMask t &&& ~~~((assocGet g.2.waves t).getD 0) ≠ 0)

/-- Every row of the team's masks is read for the move (R253): a parity error poisons its word, or aborts an open region. -/
def State.readForMove (s : State) : List (WaveKey × Wave × Wait × Instr) → State × Bool
  | [] => (s, false)
  | y :: rest =>
    match s.readNames y.1 (fun n => (regrpMask y.2.1 y.2.2.2).getLsbD n) with
    | (s, true) => (s, true)
    | (s, false) => s.readForMove rest

/-- The waves of the rendezvous as the move takes them, with the rows that have been swapped out. -/
def State.moveFrom (s : State) (l : List (WaveKey × Wave × Wait × Instr)) : List (WaveKey × Wave × Wait × Instr) :=
  l.map (fun y =>
    let w := s.wave y.1
    (y.1, { w with rows := (w.rows ++ s.swappedRows y.1).map (fun r => (r.1, r.2.read)), swapped := none }, y.2.2))

/-- The rows a new wave takes: one for each name of its union, and one for the destination if that is none of them (R165, R248). -/
def groupRows (g : List Mover) : Nat :=
  let names := maskNames (unionMask g)
  let d := ((g.head?.map (fun m => regrpDest m.instr)).getD 63).toNat
  names.length + if d < 62 && !names.contains d then 1 else 0

/-- The move (R248 to R251), its rows read. -/
def State.regroup (s : State) (t : Nat) (l : List (WaveKey × Wave × Wait × Instr)) : State :=
  let x := s.team t
  let core := x.core
  let l := s.moveFrom l
  let ms := movers l
  let pack := (l.head?.map (fun y => regrpPack y.2.2.2)).getD false
  let next := (l.head?.map (fun y => y.2.2.1.next)).getD 0
  let unp := unpacked ms
  let layout := if !pack && s.unpackedFits t l.length unp then unp else packed ms
  let flags := l.foldl (fun f y => f ||| (y.2.1.fpc &&& 0x1F00)) 0
  let oldUids := l.map (fun y => y.2.1.uid)
  let oldSlots := l.map (fun y => y.1.slot)
  let keep := oldSlots.take layout.length
  let s := { s with waves := s.waves.filter (fun p => p.2.team ≠ t) }
  let s := s.modCore core (fun c => { c with
    rowQueue := c.rowQueue.filter (fun q => !oldSlots.contains q.1)
    swapRows := c.swapRows.filter (fun q => !oldSlots.contains q.1) })
  let s := s.swapFor core t ((layout.map groupRows).sum) 64
  let slots := keep ++ ((placeSlots (layout.length - keep.length) (s.usedSlots core ++ keep)).getD [])
  let s := (slots.zip layout.zipIdx).foldl (fun s y =>
    let (uid, s) := s.fresh
    let from_ := fun (g : List Mover) => g.head?.map Mover.old
    let w := movedWave y.2.1 uid y.2.2 ((layout.take y.2.2).all (fun g => from_ g ≠ from_ y.2.1)) flags next
    (if w.rows.length ≤ s.rowsFree core then s.mapWave ⟨core, y.1⟩ w else s.bringWave ⟨core, y.1⟩ w).putPositions ⟨core, y.1⟩ y.2.1) s
  let s := s.reown core oldUids ((s.teamWaves t).map (fun p => p.2.uid))
  let s := s.modTeam t (fun x => { x with
    liveWaves := layout.length
    arrived := []
    retired := x.retired.filter (fun r => layout.length ≤ r.1) })
  let s := (((s.team t).armed.map (· * 16)).filter (fun a => (s.team t).kindAt a = 1)).foldl (fun s a =>
    s.modTeam t (fun x => x.putWord a (BitVec.ofNat 32 layout.length) false)) s
  let all := s.liveMask t
  { s with groups := s.groups.map (fun g => (g.1, { g.2 with waves := g.2.waves.map (fun v =>
      if v.1 = t ∧ v.2 ≠ 0 then (v.1, all) else v) })) }

/-- REGRP's team-level effect (R247, R275): the checks, then the move. -/
def State.regrpPoint (s : State) (t : Nat) (l : List (WaveKey × Wave × Wait × Instr)) : State :=
  match (s.team t).midPhase with
  | some a => s.rdvTrap l causeBarClobber (BitVec.ofNat 64 a) id
  | none =>
    if s.midGroup t then
      let (v, s) := s.freeWord
      s.rdvTrap l causeBarClobber (v.setWidth 64) id
    else match s.readForMove l with
      | (s, true) => s
      | (s, false) => s.regroup t l

/-! ### Events of the rendezvous -/

/-- The rendezvous of a team can complete: every live wave of it has arrived. -/
def State.rdvReady (s : State) (t : Nat) : Bool :=
  let ws := s.teamWaves t
  !ws.isEmpty && ws.all (fun p => p.2.rdvArrived && !(assocGet s.scouts p.1).isSome)
    && !(((s.team t).region.map Region.committing).getD false)

/-- RENDEZVOUS_COMPLETE (R230). -/
def execRendezvousComplete (team : Nat) (s : State) : Res :=
  if s.rdvReady team then
    let l := s.rdvWaves team
    match l with
    | [] => .next s
    | y :: _ => .next (match rdvCode y.2.2.2 with
      | 0xBC => s.openRegion team l
      | 0xBD => s.commitPoint team l
      | _ => s.regrpPoint team l)
  else .next s

/-- RENDEZVOUS_TIMEOUT (R230). -/
def execRendezvousTimeout (w : WaveKey) (s : State) : Res :=
  match (s.wave w).rdvWait with
  | some (wt, _) => .next (s.barTimeout w wt)
  | none => .next s

/-! ### Placing crews and replays (R265, R276, R277) -/

/-- The shape that a team needs: its waves, its scratchpad in KiB. -/
def State.teamShape (s : State) (t : Nat) : Nat × Nat :=
  let x := s.team t
  ((match x.saved with
    | some ws => ws.length
    | none => x.declared), x.spSize / 1024)

/-- Members in ascending order on the lowest-numbered cores that admit them (R265). -/
def State.placeMembers (s : State) (cluster crew : Nat) : List Nat → List Nat → Option (List (Nat × Nat))
  | [], _ => some []
  | t :: rest, used =>
    let sh := s.teamShape t
    match (List.range 4).find? (fun i => !used.contains (cluster * 4 + i) && s.admits (cluster * 4 + i) sh.1 sh.2 (.team t) crew) with
    | none => none
    | some i => (s.placeMembers cluster crew rest (used ++ [cluster * 4 + i])).map (fun l => (t, cluster * 4 + i) :: l)

/-- The members of a crew that have not retired, in member order. -/
def State.crewTeams (s : State) (c : Nat) : List Nat :=
  (List.range 4).filterMap (fun m => (s.teams.find? (fun p => p.2.crew = c ∧ p.2.member = m)).map Prod.fst)

/-- Barrier, ring and section watchdogs do not count while a team is saved (R173). -/
def Wave.shiftWaits (w : Wave) (by_ : Nat) : Wave :=
  { w with waits := w.waits.map (fun x => { x with since := x.since + by_ })
           pixel := w.pixel.map (fun p => { p with frags := p.frags.map (fun f => { f with lockedAt := f.lockedAt + by_ }) }) }

/-- A core that would admit a member after a split change: the granules of scratchpad it would need. -/
def State.afterSplit (s : State) (core waves kib : Nat) : Option Nat :=
  let c := s.core core
  if c.inService && !c.emptying && c.split.isNone && (placeSlots waves (s.usedSlots core)).isSome then
    (s.splitTarget core kib).bind (fun g => if s.splitPossible core g then some g else none)
  else none

/-- Members of a crew on the cores of a cluster, each with the split change its core needs, if any. -/
def State.splitPlan (s : State) (cluster crew : Nat) : List Nat → List Nat → Option (List (Nat × Nat × Option Nat))
  | [], _ => some []
  | t :: rest, used =>
    let sh := s.teamShape t
    match (List.range 4).find? (fun i => !used.contains (cluster * 4 + i) &&
        (s.admits (cluster * 4 + i) sh.1 sh.2 (.team t) crew || (s.afterSplit (cluster * 4 + i) sh.1 sh.2).isSome)) with
    | none => none
    | some i =>
      let core := cluster * 4 + i
      let need := if s.admits core sh.1 sh.2 (.team t) crew then none else s.afterSplit core sh.1 sh.2
      (s.splitPlan cluster crew rest (used ++ [core])).map (fun l => (t, core, need) :: l)

/-- What the placement of a crew comes to (R163, R265): a cluster that admits it, or the split changes that would make room on one, or changes
that are complete and have not made room, or nothing yet. -/
inductive Placing where
  | at (cluster : Nat) (l : List (Nat × Nat))
  | bind (plan : List (Nat × Nat × Option Nat))
  | abandon
  | wait
  deriving DecidableEq, Repr

/-- Where members of a crew can be placed on a cluster, beside cores in use by others of it: on the cores it is bound to while split changes run
for it (R163), else as R265 places them. -/
def State.crewPlace (s : State) (c : Nat) (ms used : List Nat) (cluster : Nat) : Option (List (Nat × Nat)) :=
  match (s.crew c).bound with
  | [] => s.placeMembers cluster c ms used
  | l => if l.all (fun p => p.2 / 4 = cluster && s.admits p.2 (s.teamShape p.1).1 (s.teamShape p.1).2 (.team p.1) c) then some l else none

/-- A split change still runs for a member of a crew. -/
def State.changing (s : State) (c : Nat) : Bool :=
  (s.crew c).bound.any (fun p => (s.core p.2).split.any (fun x => x.by_ = some (.team p.1) && !x.done))

/-- The first of some clusters that admits the members at once; else the first where split changes would make room. -/
def State.placing (s : State) (c : Nat) (ms used clusters : List Nat) : Placing :=
  match clusters.findSome? (fun k => (s.crewPlace c ms used k).map (fun l => (k, l))) with
  | some (k, l) => .at k l
  | none =>
    if !(s.crew c).bound.isEmpty then if s.changing c then .wait else .abandon
    else (clusters.findSome? (fun k => s.splitPlan k c ms used)).elim .wait .bind

/-- A crew is bound to the cores of a plan, and the changes that they need start (R163, R265). -/
def State.bind (s : State) (c : Nat) (plan : List (Nat × Nat × Option Nat)) : State :=
  let s := plan.foldl (fun s p => p.2.2.elim s (fun g => s.startSplit p.2.1 g (.team p.1))) s
  s.setCrew c { s.crew c with bound := plan.map (fun p => (p.1, p.2.1)) }
/-- The placement on the cluster is abandoned; changes that are complete stay made and the bars end (R265). -/
def State.abandon (s : State) (c : Nat) : State :=
  let s := (s.crew c).bound.foldl (fun s p => s.endBar p.2 (.team p.1)) s
  s.setCrew c { s.crew c with bound := [] }
/-- The reservation that a crew holds on any die ends (R266). -/
def State.unreserve (s : State) (c : Nat) : State :=
  { s with dies := s.dies.map (fun d => (d.1, { d.2 with reserved := d.2.reserved.filter (fun r => r.2 ≠ c) })) }

/-- Install saved members of a crew at their places: their watchdogs have not counted meanwhile (R173), and waits whose generation has gone by
end (R275). -/
def State.installCrew (s : State) (c : Nat) (l : List (Nat × Nat)) (cluster : Nat) : State :=
  let s := l.foldl (fun s p => s.install p.1 p.2 ((((s.team p.1).saved).getD []).map (fun w => w.shiftWaits (s.clock - (s.team p.1).savedAt)))) s
  let s := l.foldl (fun s p => ((s.teamWaves p.1).map Prod.fst).foldl State.retest s) s
  (s.setCrew c { s.crew c with place := some cluster, saved := false, waitSince := 0, bound := [], heat := false }).unreserve c

/-- The temperature of the hottest core of a cluster, and whether none is above its limit (R318). -/
def State.hottest (s : State) (cluster : Nat) : Nat := ((List.range 4).map (fun i => (s.core (cluster * 4 + i)).temp)).foldl max 0
def State.coolCluster (s : State) (cluster : Nat) : Bool := (List.range 4).all (fun i =>
  (s.core (cluster * 4 + i)).temp ≤ (s.core (cluster * 4 + i)).tempLimit)

/-- The clusters in the order of R276: die d from the one after k, then the other dies. -/
def replayOrder (d k : Nat) : List Nat :=
  ((List.range 32).map (fun i => d * 32 + (k + 1 + i) % 32))
    ++ (List.range 7).flatMap (fun j => (List.range 32).map (fun c => (d + 1 + j) % 8 * 32 + c))

/-- What the replay of a team that waits for it comes to: the first cluster in order that no failed attempt of its region has used, with the
whole crew (R276, R277). A region that is closed (R242) may take any. One aborted by RGNA goes back to its core, or, with other members of
the crew resident, beside them on their cluster (R244, R277). -/
def State.replayPlacing (s : State) (t : Nat) : Placing :=
  let x := s.team t
  match x.replay with
  | none => .wait
  | some (d, k, _) =>
    let again := x.rgnstat.extractLsb' 6 2 = 2#2
    let members := s.crewTeams x.crew
    let mates := members.filter (fun m => (s.team m).resident)
    let here := (s.teamShape t)
    if again && (mates.length + 1 = members.length) && s.admits x.core here.1 here.2 (.team t) x.crew then .at (x.core / 4) [(t, x.core)]
    else if again && !mates.isEmpty then
      if mates.length + 1 = members.length then s.placing x.crew [t] (mates.map (fun m => (s.team m).core)) [x.core / 4] else .wait
    else if !mates.isEmpty then .wait
    else
      let failed := if x.rgnstat.getLsbD 0 && !again then (x.region.map (fun r => r.ck.failed)).getD [] else []
      s.placing x.crew members [] ((if again then [d * 32 + k] else []) ++ (replayOrder d k).filter (fun c => !failed.contains (c / 32, c % 32)))

/-- Teams waiting for a replay, the one that began to wait first in front (R276). -/
def State.replayWaiters (s : State) : List Nat :=
  ((s.teams.filterMap (fun p => p.2.replay.map (fun r => (p.1, r.2.2)))).mergeSort (fun a b => a.2 ≤ b.2)).map Prod.fst
/-- A waiting replay that can be placed now, or start the changes it needs: it goes ahead of every other admission (R276). What the team's core has
pushed of its ordinary writes is home by then (R338). -/
def State.replayDue (s : State) : Option Nat :=
  s.replayWaiters.find? (fun t => s.replayPlacing t ≠ .wait && !s.net.any (fun r => !r.owners.isEmpty && r.core = (s.team t).core && r.ctx = (s.team t).ctx))

/-- The third failure (R242): the restored team's region is closed, the event is logged, every wave takes RGN_UNRECOVERABLE. -/
def State.unrecoverable (s : State) (t : Nat) : State :=
  let x := s.team t
  let failed := (x.region.map (fun r => r.ck.failed)).getD []
  let s := s.logRec 0x0009 false (placeWord x.ctx x.core) false causeRgnUnrecoverable
    (x.rgnatt :: failed.map (fun p => BitVec.ofNat 32 (p.2 * 256 + p.1)))
  let s := s.hostEvent (s.context x.ctx).session (BitVec.ofNat 32 x.ctx) (wordLe 1 ++ wordLe x.teamId)
  let s := s.modTeam t (fun y => { y with region := none })
  (s.teamWaves t).foldl (fun s p =>
    if s.hasWave p.1 then
      s.trap p.1 ⟨causeRgnUnrecoverable, false, ((lowestLane p.2.live).map (fun i => p.2.lanes[i].pc)).getD 0, p.2.live, 0, x.rgnatt⟩
    else s) s

/-- REPLAY_PLACEMENT (R276, R277, R241, R242): the waiting team that is due, with its crew, is restored on its place; or the
split changes start that would make room (R163). -/
def execReplayPlacement (team : Nat) (s : State) : Res :=
  if s.replayDue = some team then
    match s.replayPlacing team with
    | .wait => .next s
    | .bind p => .next (s.bind (s.team team).crew p)
    | .abandon => .next (s.abandon (s.team team).crew)
    | .at c l =>
      let x := s.team team
      let s := s.installCrew x.crew l c
      .next (if x.region.isSome && !x.rgnstat.getLsbD 0 then s.unrecoverable team else s)
  else .next s

end Sys2Proof.Machine
end

