-- ==== Sys2Proof/Machine/Tasks.lean ====
section
/-! DEFINITION. Tasks and queues (spec/15_tasks_and_queues.md R299 to R314, R317, R318, R451), crews (spec/13 R264 to R267), admission
and launch (spec/08 R171), and the retirement of waves, teams, crews and tasks (spec/01 R26 to R28). -/

namespace Sys2Proof.Machine

/-! ### Task records (R299, R300) -/

namespace TaskRec
def entry (b : List Byte) : Word := bytesWord b 0
def flags (b : List Byte) : Word := bytesWord b 4
def cfab (b : List Byte) : Bool := (flags b).getLsbD 5
def render (b : List Byte) : Bool := (flags b).getLsbD 4
def trigw (b : List Byte) : Bool := (flags b).getLsbD 3
def qbar (b : List Byte) : Bool := (flags b).getLsbD 2
def pri (b : List Byte) : Nat := (flags b).toNat % 4
def rlo (b : List Byte) : Nat := bytesDWord b 0x08
def rhi (b : List Byte) : Nat := bytesDWord b 0x10
def grain (b : List Byte) : Word := bytesWord b 0x18
def shape (b : List Byte) : Word := bytesWord b 0x1C
def scratch (b : List Byte) : Nat := ((shape b).extractLsb' 8 10).toNat
def crew (b : List Byte) : Nat := ((shape b).extractLsb' 6 2).toNat + 1
def waves (b : List Byte) : Nat := ((shape b).extractLsb' 0 6).toNat
def args (b : List Byte) : Nat := bytesDWord b 0x20
def crec (b : List Byte) : Nat := bytesDWord b 0x28
def depc (b : List Byte) : Nat := bytesDWord b 0x30
def dept (b : List Byte) : Word := bytesWord b 0x38
def rtab (b : List Byte) : Nat := (bytesWord b 0x3C).toNat
/-- R300, for a queue of a kind. -/
def valid (b : List Byte) (renderQueue : Bool) : Bool :=
  b.length = 64 && (entry b).toNat % 4 = 0 && (flags b).toNat < 64 && render b = renderQueue && rlo b ≤ rhi b && grain b ≠ 0
    && (shape b).toNat < 2 ^ 18 && 1 ≤ waves b && waves b ≤ 32 && scratch b ≤ 512
    && crec b < 2 ^ 56 && crec b % 16 = 0 && depc b < 2 ^ 56 && depc b % 4 = 0 && args b < 2 ^ 56 && rtab b % 16 = 0
end TaskRec

/-! ### Accesses of dispatchers and engines (R451, R363, R365) -/

/-- What an access of an agent that is not a wave comes to: it goes through, its page is to be asked for or found to be migrating, it waits, or
it fails. -/
inductive Reach where
  | ok
  | ask (va : Nat)
  | later
  | fail (va : Nat)
  deriving DecidableEq, Repr

/-- Translate a range for such an agent; a page refused by the package controller is a failure, and so is one that has been migrating for
2 ms since the agent met it (R365). -/
def State.engineReach (s : State) (ctx va n : Nat) (acc : Access) : Reach :=
  match s.xlatRange ctx va n acc with
  | (_, .ok _ _ _) => .ok
  | (a, .fault _ _ _) => .fail a
  | (a, .migrating _) =>
    match s.faults.find? (fun f => f.migratingSince.isSome ∧ f.ctx = ctx ∧ f.va / 65536 = a / 65536) with
    | none => .ask a
    | some f => if f.migratingSince.any (fun t => t + 2000 * Config.clocksPerUs ≤ s.clock) then .fail a else .later
  | (a, .noPage _) =>
    match s.faults.find? (fun f => f.migratingSince.isNone ∧ f.ctx = ctx ∧ f.va / 65536 = a / 65536) with
    | none => .ask a
    | some f => if f.answered = some false then .fail a else .later

/-- The package controller is asked for a page (R363); a page that is migrating is noted with the clock at which it was met (R365). -/
def State.askPage (s : State) (ctx va access : Nat) : State :=
  let (id, s) := s.fresh
  let since := match s.translate ctx va .read with
    | .migrating _ => some s.clock
    | _ => none
  { s with faults := s.faults ++ [⟨id, ctx, va, access, none, since⟩] }
/-- A refusal has been taken note of. -/
def State.dropFault (s : State) (ctx va : Nat) : State :=
  { s with faults := s.faults.filter (fun f => !(f.ctx = ctx ∧ f.va / 65536 = va / 65536)) }

/-! ### Queues (R302, R303) -/

def Queue.absent : Queue := ⟨0, 0, false, false, none, 0, [], false, 0, 0, true, [], true⟩
def State.queue (s : State) (ctx qid : Nat) : Queue := (assocGet (s.context ctx).queues qid).getD Queue.absent
def State.setQueue (s : State) (ctx qid : Nat) (q : Queue) : State :=
  let c := s.context ctx
  s.setContext ctx { c with queues := assocSet c.queues qid q }
def State.modQueue (s : State) (ctx qid : Nat) (f : Queue → Queue) : State := s.setQueue ctx qid (f (s.queue ctx qid))

/-- Every queue of every resident context, in the cyclic order's numbering. -/
def State.allQueues (s : State) : List (Nat × Nat) :=
  (List.range 64).flatMap (fun c => match assocGet s.contexts c with
    | none => []
    | some x => (List.range 16).filterMap (fun q => if (assocGet x.queues q).isSome then some (c, q) else none))

/-- A counter or field of a registered block, at its home. -/
def State.blockWord (s : State) (ctx : Nat) (q : Queue) (off : Nat) : Word := BitVec.ofNat 32 (bytesNat (s.vaBytes ctx (q.block + off) 4))
def State.blockPut (s : State) (ctx : Nat) (q : Queue) (off : Nat) (v : Word) : State := s.vaWrite ctx (q.block + off) (valBytes 4 v.toNat)
/-- The block can be reached and its SLOTS are legal. -/
def State.blockOk (s : State) (ctx : Nat) (q : Queue) : Bool :=
  s.engineReach ctx q.block 32 .atomic = .ok && !slotsIllegal (s.blockWord ctx q 12)
/-- The address of a slot's record. -/
def State.slotAddr (s : State) (ctx : Nat) (q : Queue) (slot : Nat) : Nat := va56 (bytesNat (s.vaBytes ctx q.block 8) + 64 * slot)

/-- RELEASE advances over ended slots in slot order (R303), once the block can be reached. -/
def State.advanceRelease (s : State) (ctx qid : Nat) : State :=
  let q := s.queue ctx qid
  let n := (q.running.takeWhile Prod.snd).length
  if n = 0 ∨ !s.blockOk ctx q then s
  else (s.setQueue ctx qid { q with running := q.running.drop n }).blockPut ctx q 28 (s.blockWord ctx q 28 + BitVec.ofNat 32 n)

/-- A slot's task has ended. -/
def State.slotDone (s : State) (ctx qid slot : Nat) : State :=
  (s.modQueue ctx qid (fun q => { q with running := q.running.map (fun r => if r.1 = slot then (r.1, true) else r) })).advanceRelease ctx qid

/-- A TASKINV record (R445): queue, slot, record address, and the faulting address and access. -/
def State.logTaskInv (s : State) (ctx qid slot addr : Nat) (fault : Option (Nat × Nat)) : State :=
  s.logRec 0x000A false (placeWord ctx 0) false 0
    ([BitVec.ofNat 32 qid, BitVec.ofNat 32 slot, BitVec.ofNat 32 addr, BitVec.ofNat 32 (addr / 2 ^ 32)]
      ++ (match fault with
          | some (va, a) => [BitVec.ofNat 32 va, BitVec.ofNat 32 (va / 2 ^ 32), BitVec.ofNat 32 a]
          | none => []))

/-! ### Completion (R28, R309 to R311) -/

/-- The STATUS bits of a task (R310). -/
def Task.status (t : Task) : Nat := (if t.invalid then 1 else 0) + (if t.replayed then 2 else 0) + (if t.moved then 4 else 0) + (if t.untaken then 8 else 0)

/-- The scope of a task's completion (R28, R299). Its release is the same at either: what has left a core is acknowledged by its home, in
the fabric window too (log 35: DEDUCED). -/
def TaskRec.scope (b : List Byte) : Nat := if TaskRec.cfab b then 5 else 4
/-- The release of a task: every dirty byte that belongs to it leaves every core (R28). -/
def State.releaseTask (s : State) (t : Nat) : State := (s.cores.map Prod.fst).foldl (fun s c => s.pushOwned c t []) s

/-- STATUS, CLOCK and DONE of a completion record, in that order (R311); a poisoned word stays poisoned. -/
def State.writeCompletion (s : State) (ctx crec status : Nat) : State :=
  let done := s.vaBytes ctx crec 4
  let st := s.vaBytes ctx (crec + 4) 4
  let s := s.vaWrite ctx (crec + 4) ((valBytes 4 (bytesNat st ||| status)).map (fun b => { b with pois := st.any MByte.pois }))
  let s := s.vaWrite ctx (crec + 8) (valBytes 8 s.clock)
  s.vaWrite ctx crec ((valBytes 4 (bytesNat done + 1)).map (fun b => { b with pois := done.any MByte.pois }))

/-- A task is one of a pass's render tasks. -/
def Pass.hasTask (p : Pass) (ctx qid num : Nat) : Bool := p.ctx = ctx && p.qid = qid && p.tasks.any (fun t => t.1 = num)

/-- Status bits of a render task count for its pass (R372). -/
def State.passStatus (s : State) (ctx qid num bits : Nat) : State :=
  { s with passes := s.passes.map (fun p => if p.hasTask ctx qid num then { p with status := p.status ||| bits } else p) }

/-- A task has started, or will never. -/
def State.noteStarted (s : State) (ctx qid num : Nat) : State :=
  { s with passes := s.passes.map (fun p => if p.hasTask ctx qid num then { p with started := p.started ++ [num] } else p) }

/-- A task of a later pass does not start before the queue's open pass has completed (R372). -/
def State.passBars (s : State) (ctx qid num : Nat) : Bool :=
  ((s.passes.filter (fun p => p.ctx = ctx ∧ p.qid = qid)).drop 1).any (fun p => p.hasTask ctx qid num)

/-- A task is over: its slot is free and the dependences of the context are evaluated again (R303, R304). -/
def State.taskOver (s : State) (t : Nat) : State :=
  let x := s.task t
  let s := if (s.queue x.ctx x.queue).render then s.passStatus x.ctx x.queue x.num x.status else s
  let s := { s with tasks := s.tasks.filter (fun p => p.1 ≠ t), lastDepEval := none }
  s.slotDone x.ctx x.queue x.slot

/-- The completion record is due (R311), once what the task's release has pushed is home: written, waited for, or given up as R451 says. An invalid CREC field names no record. -/
def State.complete (s : State) (t : Nat) : State :=
  let x := s.task t
  let crec := TaskRec.crec x.bytes
  let s := s.releaseTask t
  if s.pushing t s.nextId [] then s
  else if crec = 0 ∨ 2 ^ 56 ≤ crec ∨ crec % 16 ≠ 0 then s.taskOver t
  else match s.engineReach x.ctx crec 16 .write with
    | .ok => (s.writeCompletion x.ctx crec x.status).taskOver t
    | .ask va => s.askPage x.ctx va 1
    | .later => s
    | .fail va => ((s.logTaskInv x.ctx x.queue x.slot x.recAddr (some (va, 1))).dropFault x.ctx va).taskOver t

/-- A record that cannot run: it is logged and completes with STATUS.INVALID (R300). -/
def State.refuseHead (s : State) (ctx qid slot addr : Nat) (bytes : List Byte) (fault : Option (Nat × Nat)) : State :=
  let s := s.logTaskInv ctx qid slot addr fault
  let (id, s) := s.fresh
  let s := s.setTask id { Task.absent with
    id := id
    ctx := ctx
    queue := qid
    slot := slot
    num := (s.queue ctx qid).headNum
    recAddr := addr
    bytes := bytes
    invalid := true }
  let s := s.modQueue ctx qid (fun q => { q with head := none, headReady := false, running := q.running ++ [(slot, false)], triggered := true })
  (s.noteStarted ctx qid (s.task id).num).complete id

/-! ### Heads (R303, R304) -/

/-- The oldest committed record that has not started becomes the head. -/
def State.takeHead (s : State) (ctx qid : Nat) : State :=
  let q := s.queue ctx qid
  if q.head.isSome || q.aborted || !s.blockOk ctx q then s
  else
    let peek := s.blockWord ctx q 24
    if s.blockWord ctx q 20 = peek then s
    else
      let slot := (peek % s.blockWord ctx q 12).toNat
      let a := s.slotAddr ctx q slot
      match s.engineReach ctx a 64 .read with
      | .ask va => s.askPage ctx va 0
      | .later => s
      | .fail va =>
        let s := (((s.blockPut ctx q 24 (peek + 1)).logTaskInv ctx qid slot a (some (va, 0))).dropFault ctx va)
        (s.modQueue ctx qid (fun q => { q with running := q.running ++ [(slot, false)], triggered := true })).slotDone ctx qid slot
      | .ok =>
        let bs := s.vaBytes ctx a 64
        let s := s.markRange ctx a 64 .read
        let s := s.blockPut ctx q 24 (peek + 1)
        if bs.any MByte.pois then
          let s := s.logTaskInv ctx qid slot a (some (a, 0))
          (s.modQueue ctx qid (fun q => { q with running := q.running ++ [(slot, false)], triggered := true })).slotDone ctx qid slot
        else
          let b := bs.map MByte.val
          if TaskRec.valid b q.render then
            s.modQueue ctx qid (fun q => { q with head := some slot, headNum := peek.toNat, headBytes := b, headReady := false, readySince := 0, age := 0 })
          else (s.modQueue ctx qid (fun q => { q with headNum := peek.toNat })).refuseHead ctx qid slot a b none

/-- No crew of a task holds a grain (R309). -/
def State.exhausted (s : State) (t : Nat) : Bool := s.crews.all (fun c => c.2.task ≠ t || c.2.hi ≤ c.2.lo)

/-- The waves of a team, resident or saved. -/
def State.wavesOf (s : State) (t : Nat) : List Wave := (s.teamWaves t).map Prod.snd ++ ((s.team t).saved).getD []

/-- A task is triggered (R313): its range is exhausted and every thread of its teams has triggered or exited. -/
def State.taskTriggered (s : State) (t : Nat) : Bool :=
  (s.task t).complete || (s.exhausted t && s.teams.all (fun p => p.2.task ≠ t ||
    (s.wavesOf p.1).all (fun w => w.laneMask (fun l => l.isLive && !l.trig) = 0)))

/-- The previous task of a queue is triggered, or there was none. -/
def State.prevTriggered (s : State) (ctx qid : Nat) : Bool :=
  let q := s.queue ctx qid
  q.triggered || (match q.running.getLast? with
    | none => true
    | some r => r.2 || s.tasks.all (fun t => !(t.2.ctx = ctx ∧ t.2.queue = qid ∧ t.2.slot = r.1) || s.taskTriggered t.1))

/-- The record table of a task (R299): four records of 16 bytes in the code window. -/
def State.rtabVa (s : State) (ctx : Nat) (b : List Byte) : Nat := va56 ((s.context ctx).codeBase + TaskRec.rtab b)
def State.records (s : State) (ctx va : Nat) : List (BitVec 128) :=
  (List.range 4).map (fun i => BitVec.ofNat 128 (bytesNat (s.vaBytes ctx (va + 16 * i) 16)))
/-- How the record table can be read: a poisoned byte is a failure (R451). -/
def State.rtabReach (s : State) (ctx : Nat) (b : List Byte) : Reach :=
  match s.engineReach ctx (s.rtabVa ctx b) 64 .read with
  | .ok => if (s.vaBytes ctx (s.rtabVa ctx b) 64).any MByte.pois then .fail (s.rtabVa ctx b) else .ok
  | r => r

/-- What the dependence of a head comes to (R304); while an access for it waits for a page the head is not ready (R451). -/
def State.headEval (s : State) (ctx qid : Nat) : State :=
  let s := s.takeHead ctx qid
  let q := s.queue ctx qid
  match q.head with
  | none => s
  | some slot =>
    let b := q.headBytes
    let go := fun (s : State) (dep : Bool) =>
      let ready := dep && s.rtabReach ctx b ≠ .later && !s.passBars ctx qid q.headNum && (!TaskRec.qbar b || q.running.all Prod.snd) && (!TaskRec.trigw b || s.prevTriggered ctx qid)
      s.modQueue ctx qid (fun q => { q with headReady := ready, readySince := if ready && !q.headReady && q.readySince = 0 then s.clock else q.readySince })
    if TaskRec.depc b = 0 then go s true
    else match s.engineReach ctx (TaskRec.depc b) 4 .read with
      | .ask va => (go s false).askPage ctx va 0
      | .later => go s false
      | .fail va => (s.dropFault ctx va).refuseHead ctx qid slot (s.slotAddr ctx q slot) b (some (va, 0))
      | .ok =>
        let d := s.vaBytes ctx (TaskRec.depc b) 4
        let s := s.markRange ctx (TaskRec.depc b) 4 .read
        if d.any MByte.pois then s.refuseHead ctx qid slot (s.slotAddr ctx q slot) b (some (TaskRec.depc b, 0))
        else go s (0 ≤ (BitVec.ofNat 32 (bytesNat d) - TaskRec.dept b).toInt)

/-- DEPENDENCE_REEVALUATION (R304): every head is evaluated; a head that has been chosen stays as it is. -/
def execDependenceReevaluation (s : State) : Res :=
  let s := s.allQueues.foldl (fun s q => s.advanceRelease q.1 q.2) s
  let s := s.allQueues.foldl (fun s q =>
    if s.chosen.any (fun c => c.1 = q.1 ∧ c.2.1 = q.2) then s else s.headEval q.1 q.2) s
  .next { s with lastDepEval := some s.clock }

/-! ### Selection (R305) -/

def Queue.base (q : Queue) : Nat := if q.render then 0 else TaskRec.pri q.headBytes
def Queue.eff (q : Queue) : Nat := min 3 (q.base + q.age)

/-- PRIORITY_AGING (R305): a ready head that has waited one more millisecond, until it is chosen. -/
def execPriorityAging (ctx qid : Nat) (s : State) : Res :=
  let q := s.queue ctx qid
  if q.head.isSome && q.headReady && !q.aborted && q.eff < 3 && q.readySince + (q.age + 1) * 1000 * Config.clocksPerUs ≤ s.clock
      && !(s.chosen.any (fun c => c.1 = ctx && c.2.1 = qid)) then
    .next (s.modQueue ctx qid (fun q => { q with age := q.age + 1 }))
  else .next s

/-- The ready heads in the cyclic order that starts after the last chosen one. -/
def State.readyHeads (s : State) : List (Nat × Nat) :=
  let l := s.allQueues.filter (fun q => (s.queue q.1 q.2).head.isSome && (s.queue q.1 q.2).headReady && !(s.queue q.1 q.2).aborted)
  let after := l.filter (fun q => s.lastChosen.1 * 16 + s.lastChosen.2 < q.1 * 16 + q.2)
  after ++ l.filter (fun q => !after.contains q)

/-- The head of highest effective priority, the first in cyclic order. -/
def State.bestHead (s : State) : Option (Nat × Nat) :=
  match s.readyHeads with
  | [] => none
  | q :: t => some (t.foldl (fun best x => if (s.queue best.1 best.2).eff < (s.queue x.1 x.2).eff then x else best) q)

/-! ### Crews (R264, R265, R301) -/

/-- A crew of a task with its teams, not yet placed; team indices go in order of starting. -/
def State.mkCrew (s : State) (t lo hi : Nat) : Nat × State :=
  let x := s.task t
  let n := TaskRec.crew x.bytes
  let (id, s) := s.fresh
  let s := s.setCrew id ⟨id, t, x.nextTeam, n, lo, hi, none, s.clock, 0, false, false, [], false⟩
  let s := s.setTask t { x with nextTeam := x.nextTeam + n }
  (id, (List.range n).foldl (fun s m =>
    let (tid, s) := s.fresh
    s.setTeam tid { Team.absent with
      id := tid
      ctx := x.ctx
      crew := id
      task := t
      teamId := BitVec.ofNat 32 (x.nextTeam + m)
      member := m
      declared := TaskRec.waves x.bytes
      spSize := TaskRec.scratch x.bytes * 1024 }) s)

/-- A placed crew starts (R171, R155, R301): its waves stand at ENTRY under the launch state. -/
def State.launchCrew (s : State) (c : Nat) (l : List (Nat × Nat)) (cluster : Nat) : State :=
  let k := s.crew c
  let x := s.task k.task
  let b := x.bytes
  let va := s.rtabVa x.ctx b
  let recs := s.records x.ctx va
  let s := s.markRange x.ctx va 64 .read
  let s := (s.setCrew c { k with place := some cluster, startedAt := s.clock, bound := [] }).unreserve c
  l.foldl (fun s p =>
    let tm := s.team p.1
    let ws : List Wave × State := (List.range (TaskRec.waves b)).foldl (fun acc i =>
      let (uid, s) := acc.2.fresh
      (acc.1 ++ [Wave.launch uid x.ctx p.1 i (TaskRec.entry b) tm.teamId (BitVec.ofNat 32 (TaskRec.args b))
        (BitVec.ofNat 32 (TaskRec.args b / 2 ^ 32)) recs (s.context x.ctx).tvec], s)) ([], s)
    ws.2.install p.1 p.2 ws.1) s

/-- The raster watchdogs of an open pass whose order point satisfies a test have not counted since a clock (R383). -/
def State.restartDogs (s : State) (ctx qid : Nat) (sel : Nat → Bool) (since : Nat) : State :=
  { s with passes := s.passes.map (fun p =>
      if p.ctx = ctx ∧ p.qid = qid then { p with owners := p.owners.map (fun (o : OwnerSt) =>
        if sel o.orderPoint then { o with movedAt := o.movedAt + (s.clock - max since o.movedAt) } else o) } else p) }

/-- The chosen head has started: its slot runs (R303); a grain of its range counts for the raster watchdog from now (R383). -/
def State.headStarted (s : State) (t : Nat) : State :=
  let x := s.task t
  let s := s.modQueue x.ctx x.queue (fun q => { q with head := none, headReady := false, running := q.running ++ [(x.slot, false)], triggered := false })
  let s := (s.noteStarted x.ctx x.queue x.num).restartDogs x.ctx x.queue (fun n => TaskRec.rlo x.bytes ≤ n && n < TaskRec.rhi x.bytes) 0
  { s with chosen := none, lastDepEval := none }

/-- The crew of the chosen head goes again, with its task; the changes made for it stay made (R163). -/
def State.dropChosen (s : State) (c : Nat) : State :=
  let s := (s.abandon c).unreserve c
  { s with chosen := none, crews := assocErase s.crews c, teams := s.teams.filter (fun p => p.2.crew ≠ c),
           tasks := assocErase s.tasks (s.crew c).task }

/-- The chosen head waits for a page of its record table: it is no longer ready, and no longer chosen (R451). -/
def State.unchoose (s : State) (c : Nat) : State :=
  let x := s.task (s.crew c).task
  (s.dropChosen c).modQueue x.ctx x.queue (fun q => { q with headReady := false })

/-- A task's first crew is placed on a cluster; a record table that cannot be read makes the task invalid (R370, R451). -/
def State.placeFirst (s : State) (c : Nat) (l : List (Nat × Nat)) (cluster : Nat) : State :=
  let t := (s.crew c).task
  let x := s.task t
  match s.rtabReach x.ctx x.bytes with
  | .ok => (s.launchCrew c l cluster).headStarted t
  | .ask va => (s.unchoose c).askPage x.ctx va 0
  | .later => s.unchoose c
  | .fail va => ((s.dropChosen c).dropFault x.ctx va).refuseHead x.ctx x.queue x.slot x.recAddr x.bytes (some (va, 0))

/-! ### TASK_SELECT and admission -/

/-- The chosen head becomes a task with one crew for its whole range (R301, R305). -/
def State.choose (s : State) (q : Nat × Nat) : State :=
  let x := s.queue q.1 q.2
  let slot := x.head.getD 0
  let (id, s) := s.fresh
  let b := x.headBytes
  let s := s.setTask id { Task.absent with
    id := id
    ctx := q.1
    queue := q.2
    slot := slot
    num := x.headNum
    recAddr := s.slotAddr q.1 x slot
    bytes := b
    eff := x.eff
    noSplit := false
    complete := false }
  let (_, s) := s.mkCrew id (TaskRec.rlo b) (TaskRec.rhi b)
  { s with chosen := some (q.1, q.2, id), lastChosen := q }

/-- The crew of the chosen task. -/
def State.chosenCrew (s : State) : Option Nat :=
  s.chosen.bind (fun c => (s.crews.find? (fun p => p.2.task = c.2.2)).map Prod.fst)

/-- Every cluster of the package, in number order. -/
def allClusters : List Nat := List.range 256
/-- What the first placement of a crew comes to now: the lowest-numbered cluster that admits it (R305). (Log 35: DEDUCED.) -/
def State.chosenPlacing (s : State) (c : Nat) : Placing := s.placing c (s.crewTeams c) [] allClusters
/-- Where a crew that waits for its first placement can be placed on a cluster. -/
def State.firstPlace (s : State) (c cluster : Nat) : Option (List (Nat × Nat)) := s.crewPlace c (s.crewTeams c) [] cluster
/-- The lowest-numbered die whose clusters admit the crew (R305). -/
def State.crewDie (s : State) (c : Nat) : Option Nat :=
  (List.range Config.dies).find? (fun d => (List.range 32).any (fun k => (s.firstPlace c (d * 32 + k)).isSome))

/-- Some member of the crew waits for its replay, which the recovery sequencer places (R277). -/
def State.crewReplays (s : State) (c : Nat) : Bool := (s.crewTeams c).any (fun t => (s.team t).replay.isSome)

/-- A crew holds a grain: taken by it and not closed, or in its range (R382, R383). -/
def State.crewHolds (s : State) (c n : Nat) : Bool :=
  let k := s.crew c
  let x := s.task k.task
  (k.lo ≤ n && n < k.hi) || (s.openPass x.ctx x.queue).any (fun p => p.grains.any (fun g => g.n = n && g.crew = c))

/-- The pixel wave of a saved crew of one (R392). -/
def State.crewPixel (s : State) (crew : Nat) : Option PixelWave :=
  (((s.crewTeams crew).head?).bind (fun t => (s.team t).saved)).bind (fun ws => ws.head?.bind (fun w => w.pixel))

/-- The effective priority of a crew's task; render work that is no task has 0 (R317, R392). -/
def State.crewEff (s : State) (c : Crew) : Nat := (assocGet s.tasks c.task).elim 0 Task.eff
/-- A crew has members on a core. -/
def State.crewResident (s : State) (c : Nat) : Bool := (s.crewTeams c).any (fun t => (s.team t).resident)

/-- The clusters on which a crew saved for heat may be restored: no core of them above its limit, the one whose hottest core is coolest in
front; any cluster for another crew (R318). -/
def State.restoreOrder (s : State) (crew : Nat) : List Nat :=
  if (s.crew crew).heat then ((List.range 256).filter (s.coolCluster)).mergeSort (fun a b => s.hottest a ≤ s.hottest b) else List.range 256

/-- Where a saved crew can be restored on a cluster: the members as R265 places them, a pixel team only on the core of its tile (R392). -/
def State.restorePlace (s : State) (crew cluster : Nat) : Option (List (Nat × Nat)) :=
  let ms := s.crewTeams crew
  match s.crewPixel crew with
  | none => s.crewPlace crew ms [] cluster
  | some p =>
    match ((s.openPass p.ctx p.queue).bind (fun x => x.tiles.find? (fun t => t.tx = p.tx ∧ t.ty = p.ty))).bind (fun t => t.core) with
    | none => none
    | some core =>
      if core / 4 = cluster && ms.all (fun t => s.admits core 1 0 (.team t) crew) then some (ms.map (fun t => (t, core))) else none

/-- What the restore of a saved crew comes to now. -/
def State.restorePlacing (s : State) (crew : Nat) : Placing :=
  if (s.crewPixel crew).isSome then
    match (List.range 256).findSome? (fun k => (s.restorePlace crew k).map (fun l => (k, l))) with
    | some (k, l) => .at k l
    | none => .wait
  else s.placing crew (s.crewTeams crew) [] (s.restoreOrder crew)

/-- The saved crew that goes first: of the highest effective priority, and of those the one that has waited longest; no waiting replay and no
chosen head of higher priority that can be placed goes ahead of it (R276, R317). -/
def State.restoreDue (s : State) : Option Nat :=
  if s.replayDue.isSome then none
  else
    let l := (s.crews.map Prod.snd).filter (fun k => k.saved && !s.crewReplays k.id && s.restorePlacing k.id ≠ .wait)
    ((l.foldl (fun best k => match best with
      | none => some k
      | some b => if s.crewEff b < s.crewEff k ∨ (s.crewEff b = s.crewEff k ∧ k.waitSince < b.waitSince) then some k else some b)
        none).filter (fun k => !(s.chosenCrew.any (fun c => s.crewEff k < s.crewEff (s.crew c) && s.chosenPlacing c ≠ .wait)))).map Crew.id

/-- A restored crew goes on (R172, R173, R310): its waits and its tile's order point have not counted meanwhile; its task has been moved. -/
def State.restoreCrew (s : State) (crew : Nat) (l : List (Nat × Nat)) (cluster : Nat) : State :=
  let k := s.crew crew
  let x := s.task k.task
  let since := ((s.crewTeams crew).map (fun t => (s.team t).savedAt)).foldl max 0
  let s := (s.restartDogs x.ctx x.queue (s.crewHolds crew) since).installCrew crew l cluster
  match assocGet s.tasks k.task with
  | some x => s.setTask k.task { x with moved := true }
  | none => (s.crewTeams crew).foldl (fun (s : State) t => (s.teamWaves t).foldl (fun (s : State) w => match w.2.pixel with
      | some p => { s with passes := s.passes.map (fun y => if y.ctx = p.ctx ∧ y.qid = p.queue ∧ s.openPass p.ctx p.queue = some y then
          { y with status := y.status ||| 4 } else y) }
      | none => s) s) s

/-- A saved crew of no lower effective priority can be restored now, or has begun to be: it goes ahead of a new crew (R317). -/
def State.savedFirst (s : State) (eff : Nat) : Bool :=
  (s.crews.map Prod.snd).any (fun k => k.saved && !s.crewReplays k.id && eff ≤ s.crewEff k && s.restorePlacing k.id ≠ .wait)
/-- A crew that waits for its first placement, when no waiting replay and no saved crew goes ahead of it (R276, R317). -/
def State.crewWaits (s : State) (c : Nat) : Bool :=
  s.chosenCrew = some c && s.replayDue.isNone && !s.savedFirst (s.crewEff (s.crew c))

/-- The chosen crew is placed on the lowest-numbered cluster that admits it, starts the split changes that would make room on one, or gives
up one whose changes have not (R163, R265). -/
def State.placeChosen (s : State) : Option State :=
  match s.chosenCrew with
  | none => none
  | some c =>
    if !s.crewWaits c then none
    else match s.chosenPlacing c with
      | .at k l => some (s.placeFirst c l k)
      | .bind p => some (s.bind c p)
      | .abandon => some (s.abandon c)
      | .wait => none

/-- TASK_SELECT (R305): a head is chosen if none is, and its first crew is placed if some cluster admits it. -/
def execTaskSelect (s : State) : Res :=
  let s := match s.chosen with
    | some _ => s
    | none => match s.bestHead with
      | none => s
      | some q => s.choose q
  .next ((s.placeChosen).getD s)

/-- CREW_ADMISSION (R265): the chosen crew is placed as a whole on a cluster of the lowest-numbered die that admits it. -/
def execCrewAdmission (crew cluster : Nat) (s : State) : Res :=
  if s.crewWaits crew && s.crewDie crew = some (cluster / 32) then
    match s.firstPlace crew cluster with
    | some l => .next (s.placeFirst crew l cluster)
    | none => .next s
  else .next s

/-- TEAM_ADMISSION (R171): a team that is a crew of one starts on a core that admits it. -/
def execTeamAdmission (team core : Nat) (s : State) : Res :=
  let c := (s.team team).crew
  if s.crewWaits c && s.crewTeams c = [team] && s.crewDie c = some (dieOf core) && s.firstPlace c (core / 4) = some [(team, core)] then
    .next (s.placeFirst c [(team, core)] (core / 4))
  else .next s

/-- Free wave slots of a cluster. -/
def State.freeSlots (s : State) (cluster : Nat) : Nat := ((List.range 4).map (fun i => 64 - (s.usedSlots (cluster * 4 + i)).length)).sum

/-- CREW_RESERVATION (R266): a crew that has waited more than 1 ms gets the cluster of a die with the most free wave slots. -/
def execCrewReservation (crew die : Nat) (s : State) : Res :=
  let k := s.crew crew
  if s.chosenCrew = some crew && die < Config.dies && k.waitSince + 1000 * Config.clocksPerUs < s.clock
      && s.dies.all (fun d => !(d.2.reserved.any (fun r => r.2 = crew))) && (s.die die).reserved.isNone then
    let best := (List.range 32).foldl (fun b c => if s.freeSlots (die * 32 + b) < s.freeSlots (die * 32 + c) then c else b) 0
    .next (s.modDie die (fun d => { d with reserved := some (best, crew) }))
  else .next s

/-! ### TTAKE, TTRIG (R306, R307, R312) -/

/-- A grain that a render task of an open pass takes is open in the pass (R377); one taken before stays as it is. -/
def State.openGrain (s : State) (team n : Nat) : State :=
  let x := s.task (s.team team).task
  match s.openPass x.ctx x.queue with
  | none => s
  | some p =>
    if p.hasTask x.ctx x.queue x.num && !(p.grains.any (fun g => g.n = n)) then
      { s with passes := s.passes.map (fun y => if y = p then { y with grains := y.grains ++ [⟨n, (s.team team).crew, false, 0⟩] } else y) }
    else s

/-- TTAKE (R307). -/
def execTtake (f : UCC) (s : State) : Res :=
  let w := s.cur
  let c := s.curTeam.crew
  let k := s.crew c
  s.uniGuard f.qg f.qn (s.guarded [s.check (s.regionOpen w.team) causeRgnViolation s.sel.mask 0]
    (if k.lo < k.hi then
      (((s.openGrain w.team k.lo).setCrew c { k with lo := k.lo + 1 }).modCur (fun w => (w.setSPair f.a (BitVec.ofNat 64 k.lo) false).setQ f.qd false false)).advance
     else (s.modCur (fun w => w.setQ f.qd true false)).advance))

/-- TTRIG (R312): the release first; TTRIG_MARK marks the path's threads when it is done. -/
def execTtrig (f : U3) (s : State) : Res :=
  s.uniGuard f.qg f.qn (s.guarded [s.check (s.regionOpen s.cur.team) causeRgnViolation s.sel.mask 0]
    (s.pushFence (.trigger s.sel.mask) 4).advance)

/-- TTRIG_MARK (R312). -/
def execTtrigMark (w : WaveKey) (s : State) : Res :=
  let x := s.wave w
  match x.fences with
  | [] => .next s
  | f :: _ =>
    match f.what with
    | .trigger m =>
      let rel := s.fenceRelease w f
      .next (if rel.2 then (rel.1.popFence w).modWave w (fun y => y.mapLanes m (fun _ l => { l with trig := true })) else rel.1)
    | _ => .next s

/-! ### Splitting ranges (R308) -/

def Crew.left (c : Crew) : Nat := c.hi - c.lo

/-- A hypothetical further crew of a task would be admitted by a cluster. -/
def State.roomFor (s : State) (cluster t : Nat) : Bool :=
  let b := (s.task t).bytes
  TaskRec.crew b ≤ ((List.range 4).filter (fun i =>
    s.admits (cluster * 4 + i) (TaskRec.waves b) (TaskRec.scratch b) (.team s.nextId) s.nextId)).length

/-- The crew to split (R308): the largest remaining count, then the lowest TEAMID, then the lowest context. -/
def State.splitCrew (s : State) (cluster : Nat) (ok : Crew → Bool) : Option Crew :=
  let l := (s.crews.map Prod.snd).filter (fun c =>
    c.place.isSome && 2 ≤ c.left && !(s.task c.task).noSplit && !(s.task c.task).complete && ok c && s.roomFor cluster c.task)
  l.foldl (fun best c => match best with
    | none => some c
    | some b =>
      if b.left < c.left ∨ (b.left = c.left ∧ (c.first < b.first ∨ (c.first = b.first ∧ (s.task c.task).ctx < (s.task b.task).ctx))) then some c
      else some b) none

/-- Room on a cluster is wanted by a waiting head, saved crew or replay (R305, R317, R276). -/
def State.roomWanted (s : State) (cluster : Nat) : Bool :=
  s.replayDue.isSome || (s.chosen.isNone && !s.readyHeads.isEmpty)
    || (s.chosenCrew.any (fun c => (s.firstPlace c cluster).isSome))
    || s.crews.any (fun c => c.2.saved && (s.restorePlace c.1 cluster).isSome)

/-- RANGE_SPLIT (R308). -/
def execRangeSplit (cluster : Nat) (s : State) : Res :=
  if 256 ≤ cluster || s.roomWanted cluster then .next s
  else
    let pick := match s.splitCrew cluster (fun c => c.place.any (fun p => p / 32 = cluster / 32)) with
      | some c => some c
      | none => s.splitCrew cluster (fun _ => true)
    match pick with
    | none => .next s
    | some c =>
      let x := s.task c.task
      let whole := s.setTask c.task { x with noSplit := true }
      if 2 ^ 32 < x.nextTeam + TaskRec.crew x.bytes then .next whole
      else match s.rtabReach x.ctx x.bytes with
        | .ask va => .next (s.askPage x.ctx va 0)
        | .later => .next s
        | .fail va => .next ((whole.logTaskInv x.ctx x.queue x.slot x.recAddr (some (va, 0))).dropFault x.ctx va)
        | .ok =>
          let mid := c.lo + (c.left + 1) / 2
          let (id, t) := (s.setCrew c.id { c with hi := mid }).mkCrew c.task mid c.hi
          match t.firstPlace id cluster with
          | some l => .next (t.launchCrew id l cluster)
          | none => .next s

/-! ### Failures of the dispatcher's accesses (R451) -/

/-- DISPATCHER_ACCESS_FAULT (R451): the access of a queue that cannot go through is decided: 0 queue slot, 1 DEPC, 2 record table, 3 CREC. -/
def execDispatcherAccessFault (ctx qid : Nat) (access : Nat) (s : State) : Res :=
  let q := s.queue ctx qid
  let failed := fun (r : Reach) => match r with
    | .fail _ => true
    | _ => false
  match access with
  | 0 => .next (if q.head.isNone then s.takeHead ctx qid else s)
  | 1 => .next (if q.head.isSome && failed (s.engineReach ctx (TaskRec.depc q.headBytes) 4 .read) && TaskRec.depc q.headBytes ≠ 0
      && !(s.chosen.any (fun c => c.1 = ctx && c.2.1 = qid)) then s.headEval ctx qid else s)
  | 2 => .next (if s.chosen.any (fun c => c.1 = ctx && c.2.1 = qid) && failed (s.rtabReach ctx q.headBytes) then
      (match s.chosenCrew with
        | some c => s.placeFirst c [] 0
        | none => s) else s)
  | _ => .next ((s.tasks.find? (fun t => t.2.ctx = ctx ∧ t.2.queue = qid ∧ t.2.complete)).elim s (fun t => s.complete t.1))

/-! ### Retirement (R26, R27) -/

/-- The fragments of a pixel wave that is gone stay with their tile until they are applied (R393). -/
def State.keepFrags (s : State) (w : Wave) : State :=
  match w.pixel with
  | none => s
  | some p =>
    { s with passes := s.passes.map (fun x => if x.ctx = p.ctx ∧ x.qid = p.queue then
        { x with tiles := x.tiles.map (fun t => if t.tx = p.tx ∧ t.ty = p.ty then { t with ended := t.ended ++ p.frags } else t) } else x) }

/-- A crew whose last team has retired: its place is free, grains left are discarded (R309); with the last crew of an exhausted task
the task completes (R26). -/
def State.retireCrew (s : State) (c : Nat) : State :=
  let k := s.crew c
  let x := s.task k.task
  let s := { s with crews := assocErase s.crews c }
  match assocGet s.tasks k.task with
  | none => s
  | some _ =>
    let s := s.setTask k.task { x with untaken := x.untaken || k.lo < k.hi }
    if s.crews.any (fun p => p.2.task = k.task) then s
    else (s.setTask k.task { s.task k.task with complete := true }).complete k.task

/-- A team whose last wave has retired (R26, R239, R275): a region still open commits, or aborts if an error is found in its held bytes (R240); its
scratchpad is freed, it leaves its groups. (Log 34: DEDUCED.) -/
def State.retireTeam (s : State) (t : Nat) : State :=
  let x := s.team t
  match if s.regionOpen t then (x.region.map Region.struck).getD [] else [] with
  | va :: _ => s.heldStruck t va
  | [] =>
  let s := if s.regionOpen t then
      if (s.heldPoison t).isEmpty && !((x.region.map Region.overfull).getD false) then ((s.commitHeld t [x.task]).pushJournal t [x.task]).finishCommit t [x.task]
      else s.dropHeld t
    else s
  let s := (s.keepPlace t).vacate t
  let s := { s with teams := assocErase s.teams t }
  let s := (s.groupLeave t).groupsAgain
  if s.teams.any (fun p => p.2.crew = x.crew) then s else s.retireCrew x.crew

/-- A wave retires: its dirty bytes pass to its task (R28), its slot and rows are free, the team's counts follow (R201, R271). -/
def State.retireWave (s : State) (k : WaveKey) : State :=
  let w := s.wave k
  let t := w.team
  let s := s.reown k.core [w.uid] [(s.team t).task]
  let s := s.keepFrags w
  let s := { s with waves := assocErase s.waves k }
  let s := s.modCore k.core (fun c => { c with
    rowQueue := c.rowQueue.filter (fun q => q.1 ≠ k.slot)
    swapRows := c.swapRows.filter (fun q => q.1 ≠ k.slot) })
  let s := s.modTeam t (fun x => { x with liveWaves := x.liveWaves - 1, retired := assocSet x.retired w.index.toNat w.exitPc })
  if (s.teamWaves t).isEmpty then s.retireTeam t else (s.retireBarriers t w.index).groupsAgain

def Wave.exitWait (w : Wave) : Option Wait := w.waits.find? (fun x => x.why = .exit)

/-- WAVE_RETIRE (R27): the exit wait ends; errors due are delivered first, at the EXIT. (Log 34: DEDUCED.) -/
def execWaveRetire (w : WaveKey) (s : State) : Res :=
  let x := s.wave w
  match x.exitWait with
  | none => .next s
  | some wt =>
    if !(x.waitRuns wt && x.drained && x.fences.isEmpty && s.rdcClear w.core x && x.stop = .running) then .next s
    else
      match { x with handler := false }.dueFailure [.ld, .st, .cp, .tl, .nm, .rs, .fx] with
      | some p =>
        let s := s.setWave w { x.releaseWait wt with pend := x.pend.filter (fun y => y != p) }
        .next (s.trap w ⟨p.fail.cause, !p.fail.precise, wt.pc, wt.lanes, p.fail.addr, p.fail.info⟩)
      | none => .next (s.retireWave w)

/-! ### Pre-emption, saving, restoring (R172, R173, R267, R317, R318) -/

/-- A request reaches every resident member of a crew (R267). -/
def State.preemptCrew (s : State) (c : Nat) (why : PreemptWhy) : State :=
  { s with teams := s.teams.map (fun p =>
      if p.2.crew = c ∧ p.2.resident ∧ p.2.preempt = none then (p.1, { p.2 with preempt := some (why, s.clock) }) else p) }

/-- PREEMPT_REQUEST (R172). -/
def execPreemptRequest (team : Nat) (s : State) : Res :=
  if (s.team team).resident then .next (s.preemptCrew (s.team team).crew .priority) else .next s

/-- FORCED_STOP (R172, R173): 100 µs after the request, unless an ordered section is held or a debugger has stopped the context. -/
def execForcedStop (w : WaveKey) (s : State) : Res :=
  let x := s.wave w
  let t := s.team x.team
  match t.preempt with
  | some (_, since) =>
    if s.hasWave w && since + 100 * Config.clocksPerUs < s.clock && x.stop = .running && (s.context x.ctx).frozenAt.isNone
        && !((s.teamWaves x.team).any (fun p => p.2.holdsSection)) then
      match assocGet s.scouts w with
      | some sc => .next ({ s with scouts := assocErase s.scouts w }.setWave w { sc.saved with stop := .forced })
      | none => .next (s.modWave w (fun y => { y with stop := .forced }))
    else .next s
  | none => .next s

/-- Waits for a page are given up at a save: the instruction is issued again (R363). -/
def Wave.dropPageWaits (w : Wave) : Wave :=
  (w.waits.filter (fun x => match x.why with
    | .page _ => true
    | .migrating _ _ _ _ _ _ _ => true
    | _ => false)).foldl Wave.releaseWait w

/-- A member of a crew is stopped and drained, no remote store toward it under way, no BARINIT of it waiting for replies; or it is already
saved, or waiting for its replay. -/
def State.stoppedTeam (s : State) (t : Nat) : Bool :=
  !(s.team t).resident || ((s.teamWaves t).all (fun p =>
    p.2.stop ≠ .running && p.2.drained && p.2.fences.isEmpty && s.rdcClear p.1.core p.2
      && !((s.team t).region.map Region.committing).getD false && p.2.armingWait.isNone) && !s.storesTo t)

/-- Save a team (R172): where it stopped, or, with an open region, at its checkpoint with no attempt counted (R173). -/
def State.saveAny (s : State) (t : Nat) : State :=
  let x := s.team t
  let s : State := { s with waves := s.waves.map (fun (p : WaveKey × Wave) => if p.2.team = t then (p.1, p.2.dropPageWaits) else p) }
  if s.regionOpen t then
    let s := s.tearDown t
    s.modTeam t (fun y => { y with preempt := none, rgnstat := rgnstatWord (rgnReason x.rgnstat) 3 (rgnErrs x.rgnstat) 1 })
  else s.saveTeam t

/-- TEAM_SAVE (R172, R267): once every member of its crew is stopped and drained; FENCE.REL.SYS by each wave first (R338). -/
def execTeamSave (team : Nat) (s : State) : Res :=
  let x := s.team team
  if x.resident && x.preempt.isSome && (s.crewTeams x.crew).all s.stoppedTeam then
    if !s.teamHome team then .next ((s.teamWaves team).foldl (fun s p => s.release p.1 6) s)
    else
    let s := s.saveAny team
    .next (if (s.crewTeams x.crew).any (fun t => (s.team t).resident) then s else s.setCrew x.crew { s.crew x.crew with
        saved := true, waitSince := s.clock, heat := x.preempt.any (fun p => p.1 = .thermal) })
  else .next s

/-- TEAM_RESTORE (R163, R172, R265, R267, R317, R318): the saved crew that goes first is restored on a cluster that admits it, or starts the
split changes that would make room there, or gives up a cluster whose changes have not. -/
def execTeamRestore (crew cluster : Nat) (s : State) : Res :=
  if s.restoreDue = some crew then
    .next (match s.restorePlacing crew with
      | .at _ _ => (s.restorePlace crew cluster).elim s (fun l =>
          if (s.restoreOrder crew).find? (fun k => (s.restorePlace crew k).isSome) = some cluster || !(s.crew crew).heat then s.restoreCrew crew l cluster else s)
      | .bind p => s.bind crew p
      | .abandon => s.abandon crew
      | .wait => s)
  else .next s

/-- A crew is being stopped for a chosen head. -/
def State.stopping (s : State) : Bool := s.teams.any (fun p => p.2.resident && p.2.preempt.any (fun w => w.1 = .priority))

/-- PRIORITY_PREEMPTION (R317): after 100 µs without a place the chosen head pre-empts crews one after the other, until it can be admitted:
of the lowest-numbered die that holds crews of lower priority the lowest priority, and of those the most recently started. -/
def execPriorityPreemption (s : State) : Res :=
  match s.chosen, s.chosenCrew with
  | some (_, _, t), some c =>
    let eff := (s.task t).eff
    let lower := (s.crews.map Prod.snd).filter (fun k => s.crewResident k.id && s.crewEff k < eff)
    let die := (List.range Config.dies).find? (fun d => lower.any (fun k => k.place.any (fun p => p / 32 = d)))
    if (s.crew c).waitSince + 100 * Config.clocksPerUs < s.clock && s.chosenPlacing c = .wait && (s.crew c).bound.isEmpty && !s.stopping then
      match die with
      | none => .next s
      | some d =>
        match (lower.filter (fun k => k.place.any (fun p => p / 32 = d))).foldl (fun best k => match best with
            | none => some k
            | some b => if s.crewEff k < s.crewEff b ∨ (s.crewEff k = s.crewEff b ∧ b.startedAt < k.startedAt) then some k else some b) (none : Option Crew) with
        | none => .next s
        | some k => .next (s.preemptCrew k.id .priority)
    else .next s
  | _, _ => .next s

/-- THERMAL_MIGRATION (R318): a team has run for more than 50 ms on a core while that was above its limit. With a cluster below its limit that
admits its crew the crew is pre-empted; with none it stays and the core's clock is lowered. (Log 36: DESIGN CHOICE.) -/
def execThermalMigration (team : Nat) (s : State) : Res :=
  let x := s.team team
  let hot := (s.core x.core).hotSince.any (fun h => max h x.placedAt + 50000 * Config.clocksPerUs < s.clock)
  if x.resident && x.preempt.isNone && hot && x.placedAt + 10000 * Config.clocksPerUs < s.clock then
    let members := s.crewTeams x.crew
    if allClusters.any (fun k => k ≠ x.core / 4 && s.coolCluster k && (s.placeMembers k x.crew members []).isSome) then .next (s.preemptCrew x.crew .thermal)
    else .next (s.modCore x.core (fun c => { c with slowed := true }))
  else .next s

end Sys2Proof.Machine
end

