-- ==== Sys2Proof/Machine/CoreEvents.lean ====
section
/-! DEFINITION. What a core does of itself: granting rows, swapping waves out and back (spec/08_the_core.md R167 to R170), changing its
split (R163), relocating rows, and retiring lanes (R177). -/

namespace Sys2Proof.Machine

/-! ### The register-grow queue (R167) -/

/-- Rows that a queued wave needs: for its stalled instruction, and its saved footprint when it is swapped out. -/
def State.growNeed (s : State) (core : Nat) (q : Nat × Nat) : Nat :=
  q.2 + (((s.wave ⟨core, q.1⟩).swapped.map List.length).getD 0)
/-- Rows that the head of the queue still lacks. -/
def State.headLacks (s : State) (core : Nat) : Nat :=
  match (s.core core).rowQueue with
  | [] => 0
  | q :: _ => s.growNeed core q - (s.wave ⟨core, q.1⟩).granted

/-- A swapped wave whose wait has completed (R168). -/
def Wave.swappedReady (w : Wave) : Bool := w.swapped.isSome && (w.laneMask Lane.free ≠ 0 || w.released.isSome)
/-- Swapped waves that have become ready enter the queue at its tail, their footprint their need (R168). -/
def State.queueSwapped (s : State) (core : Nat) : State :=
  (s.coreWaves core).foldl (fun (s : State) p =>
    if p.2.swappedReady && !((s.core core).rowQueue.any (fun q => q.1 = p.1.slot)) then
      s.modCore core (fun c => { c with rowQueue := c.rowQueue ++ [(p.1.slot, 0)] })
    else s) s

/-- Free rows go to the head; a head that is not swapped and has what it needs leaves the queue. -/
def State.grantHead (s : State) (core : Nat) : State :=
  match (s.core core).rowQueue with
  | [] => s
  | q :: rest =>
    let k : WaveKey := ⟨core, q.1⟩
    let give := min (s.rowsFree core) (s.headLacks core)
    let s := s.modWave k (fun w => { w with granted := w.granted + give })
    let w := s.wave k
    if w.swapped.isNone && s.growNeed core q ≤ w.granted then
      (s.modWave k (fun w => { w with growStall := false })).modCore core (fun c => { c with rowQueue := rest })
    else s

/-- ROW_GRANT (R167). -/
def execRowGrant (core : Nat) (s : State) : Res := .next ((s.queueSwapped core).grantHead core)

/-! ### Swapping out (R168, R169) -/

/-- A wait on a barrier or a ring (R168). -/
def Wait.swaps (x : Wait) : Bool := match x.why with
  | .barrier _ _ => true
  | .group _ _ => true
  | .ring _ _ _ => true
  | _ => false

/-- When a wave that has no thread free began its oldest wait on a barrier or a ring. -/
def Wave.blockedSince (w : Wave) : Option Nat :=
  if w.laneMask Lane.free ≠ 0 || w.released.isSome || w.swapped.isSome then none
  else ((w.waits.filter Wait.swaps).map Wait.since).foldl (fun b x => match b with
    | none => some x
    | some y => some (min x y)) none

/-- SWAP_CANDIDACY_TIMEOUT (R168): blocked on a barrier or a ring for more than 4,096 clocks. -/
def execSwapCandidacyTimeout (w : WaveKey) (s : State) : Res :=
  match (s.wave w).blockedSince with
  | some t => if t + 4096 < s.clock then .next (s.modWave w (fun x => { x with swapCandidate := true })) else .next s
  | none => .next s

/-- The candidate of the first case: blocked the longest. -/
def State.longestBlocked (s : State) (core : Nat) : Option WaveKey :=
  (((s.coreWaves core).filterMap (fun p =>
    if p.2.swapCandidate && p.2.rows ≠ [] then (p.2.blockedSince.filter (fun t => t + 4096 < s.clock)).map (fun t => (p.1, t)) else none)).foldl
    (fun b p => match b with
      | none => some p
      | some x => if p.2 < x.2 then some p else some x) none).map Prod.fst
/-- Every resident wave of a core is stalled in register-grow or swapped. -/
def State.allStalled (s : State) (core : Nat) : Bool := (s.coreWaves core).all (fun p => p.2.growStall || p.2.swapped.isSome)
/-- The candidate of the second case: the youngest stalled wave that is not swapped, but for the head. -/
def State.youngestStalled (s : State) (core : Nat) : Option WaveKey :=
  ((((s.core core).rowQueue.drop 1).map (fun q => (⟨core, q.1⟩ : WaveKey))).filter (fun k =>
    (s.wave k).growStall && (s.wave k).swapped.isNone && (s.wave k).rows ≠ [])).getLast?

/-- The wave to swap out now, if one is (R168): the head's need is not met, and the swap granule has room for its rows (R169). -/
def State.swapVictim (s : State) (core : Nat) : Option WaveKey :=
  if s.headLacks core ≤ s.rowsFree core then none
  else
    (match s.longestBlocked core with
      | some k => some k
      | none => if s.allStalled core then s.youngestStalled core else none).filter (fun k =>
        (s.core core).swapRows.length + (s.wave k).rows.length ≤ Config.rowsPerGranule)

/-- SWAP_OUT (R168, R169): the rows are read and freed as they enter the swap granule; the wave keeps its place in the queue. (Log 38:
DEDUCED.) -/
def execSwapOut (w : WaveKey) (s : State) : Res :=
  if s.swapVictim w.core = some w then .next (s.swapAway w) else .next s

/-- SWAP_GRANULE_DRAIN (R169, R170): the wave's rows go from the granule to its slot of the swap area. (Log 38: DEDUCED.) -/
def execSwapGranuleDrain (w : WaveKey) (s : State) : Res := .next (s.drainSwap w)

/-- SWAP_RESTORE (R169): the head of the queue has all it needs; its rows come from the granule or from memory into rows of the pool, and the
restore reads their words (R174). -/
def execSwapRestore (w : WaveKey) (s : State) : Res :=
  match (s.core w.core).rowQueue, (s.wave w).swapped with
  | q :: rest, some rows =>
    if q.1 = w.slot && s.growNeed w.core q ≤ (s.wave w).granted then
      let back := (s.pool w.core).place [] (s.swappedRows w)
      let s := s.modWave w (fun x => { x with rows := back, swapped := none, growStall := false, granted := x.granted - rows.length })
      let s := s.modCore w.core (fun c => { c with rowQueue := rest, swapRows := c.swapRows.filter (fun r => r.1 ≠ w.slot) })
      .next (s.readAllRows w).1
    else .next s
  | _, _ => .next s

/-! ### Split changes (R163) -/

/-- The requester still waits for its allocation. -/
def State.wantsSplit (s : State) : Requester → Bool
  | .team t => match assocGet s.teams t with
    | some x => !x.resident
    | none => false
  | .tile c q tx ty => s.passes.any (fun p => p.ctx = c ∧ p.qid = q ∧ p.tiles.any (fun t => t.tx = tx ∧ t.ty = ty ∧ t.core = none ∧
      (t.phase = .flushing ∨ t.phase = .closing)))

/-- L1 granules move at once, down to four. -/
def State.takeL1 (s : State) (core target : Nat) : State :=
  let c := s.core core
  let n := min (c.l1Grans - 4) (target - c.scratchGrans)
  let s := s.setCore core { c with l1Grans := c.l1Grans - n, scratchGrans := c.scratchGrans + n }
  s.fitL1 core (c.l1.length)
/-- Draining granules with no mapped row move. -/
def State.takeDrained (s : State) (core : Nat) : State :=
  let c := s.core core
  let empty := c.draining.filter (fun g => (s.placesMapped core).all (fun a => granOf a ≠ g))
  s.setCore core { c with
    regGrans := c.regGrans.filter (fun g => !empty.contains g)
    draining := c.draining.filter (fun g => !empty.contains g)
    scratchGrans := c.scratchGrans + empty.length }

/-- SPLIT_CHANGE (R163): the pending change goes as far as it can. A completed one whose requester has gone ends with its bar. -/
def execSplitChange (core : Nat) (s : State) : Res :=
  match (s.core core).split with
  | none => .next s
  | some x =>
    let s := (s.takeL1 core x.target).takeDrained core
    let done := x.target ≤ (s.core core).scratchGrans
    let by_ := x.by_.filter s.wantsSplit
    let x' : Split := ⟨x.target, by_, done⟩
    .next (s.modCore core (fun c => { c with split := if done && by_.isNone then none else some x' }))

/-- ROW_RELOCATION (R163, R164): a mapped row leaves a draining granule for a free row elsewhere in the pool. -/
def execRowRelocation (w : WaveKey) (name : Nat) (s : State) : Res :=
  match (s.wave w).row name with
  | none => .next s
  | some r =>
    if (s.core w.core).draining.contains (granOf r.place) && 0 < s.rowsFree w.core then
      let a := (s.wave w).nextPlace (s.pool w.core)
      .next (s.modWave w (fun x => { x with rows := assocSet x.rows name { r with place := a } }))
    else .next s

/-! ### Lane retirement (R157, R177) -/

/-- Two errors of a physical lane within one hour. -/
def CoreSt.laneFaulty (c : CoreSt) (q phys : Nat) : Bool :=
  let l := (c.laneErrors.filter (fun e => e.1 = q ∧ e.2.1 = phys)).map (fun e => e.2.2)
  (l.zip (l.drop 1)).any (fun p => p.2 ≤ p.1 + hourClocks)

/-- LANE_RETIREMENT (R177): the core is emptied; once it is, the spare takes the lane's place, or, with the spare in use already, the
core goes out of service. Of the two ways that R177 leaves the firmware, to wait for the resident teams or to pre-empt them, the model's
waits (log 71: DESIGN CHOICE). -/
def execLaneRetirement (core quarter phys : Nat) (s : State) : Res :=
  let c := s.core core
  if quarter < 4 && phys < 33 && c.laneFaulty quarter phys then
    if (s.coreWaves core).isEmpty then
      let used := (assocGet c.remap quarter).isSome
      let c := { c with
        laneErrors := c.laneErrors.filter (fun e => !(e.1 = quarter ∧ e.2.1 = phys))
        emptying := false
        remap := if used then c.remap else assocSet c.remap quarter phys
        inService := c.inService && !used }
      .next ((s.setCore core c).logRec 0x0004 true (diePlace (dieOf core)) false 0
        [0, BitVec.ofNat 32 (core % 128 * 256 + quarter * 64 + phys)])
    else .next (s.setCore core { c with emptying := true })
  else .next s

end Sys2Proof.Machine
end

