-- ==== Sys2Proof/Machine/RasterMath.lean ====
section
/-! DEFINITION. Exact coverage and interpolation (spec/18_package_rasteriser.md R391), the tiles that a record covers (R381, R384), and
the blend of one sample (R399, R400). Coordinates are integers in units of 2^-149, which every FP32 value is a multiple of. -/

namespace Sys2Proof.Machine

open Fp

/-! ### Primitive records (R378) -/

namespace PrimRec
def xw (b : List Byte) (i : Nat) : Word := bytesWord b (12 * i)
def yw (b : List Byte) (i : Nat) : Word := bytesWord b (12 * i + 4)
def zw (b : List Byte) (i : Nat) : Word := bytesWord b (12 * i + 8)
def ctl (b : List Byte) : Word := bytesWord b 0x24
def cull (b : List Byte) : Nat := ((ctl b).extractLsb' 16 2).toNat
def idx (b : List Byte) : Nat := (ctl b).toNat % 65536
def attr (b : List Byte) : Nat := bytesDWord b 0x28
/-- What R380 refuses in a record by itself: reserved bits, CULL = 3, an index outside the grain. -/
def illegal (b : List Byte) (g : Nat) : Bool :=
  (ctl b).extractLsb' 18 14 ≠ 0 || cull b = 3 || g ≤ idx b || 2 ^ 56 ≤ attr b
end PrimRec

/-- A finite FP32 pattern in units of 2^-149. -/
def fixed (w : Word) : Option Int :=
  match Fp.decode f32 false w.toNat with
  | .num n m e _ => some (signedInt n (m * 2 ^ (e + 149).toNat))
  | _ => none

/-- A triangle's vertices (R391). -/
structure Tri where
  x0 : Int
  y0 : Int
  x1 : Int
  y1 : Int
  x2 : Int
  y2 : Int
  deriving DecidableEq, Repr

/-- The vertices of a record, unless an X or Y is not finite. -/
def triOf (b : List Byte) : Option Tri :=
  match fixed (PrimRec.xw b 0), fixed (PrimRec.yw b 0), fixed (PrimRec.xw b 1), fixed (PrimRec.yw b 1), fixed (PrimRec.xw b 2), fixed (PrimRec.yw b 2) with
  | some x0, some y0, some x1, some y1, some x2, some y2 => some ⟨x0, y0, x1, y1, x2, y2⟩
  | _, _, _, _, _, _ => none

/-- Twice the signed area, A of R391. -/
def Tri.area (t : Tri) : Int := (t.x1 - t.x0) * (t.y2 - t.y0) - (t.y1 - t.y0) * (t.x2 - t.x0)

def edgeFn (ax ay bx by_ px py : Int) : Int := (bx - ax) * (py - ay) - (by_ - ay) * (px - ax)

/-- The edge functions e0, e1, e2 at a point, negated when A < 0. -/
def Tri.edges (t : Tri) (px py : Int) : Int × Int × Int :=
  let s : Int := if t.area < 0 then -1 else 1
  (s * edgeFn t.x1 t.y1 t.x2 t.y2 px py, s * edgeFn t.x2 t.y2 t.x0 t.y0 px py, s * edgeFn t.x0 t.y0 t.x1 t.y1 px py)

/-- A tie on an edge from a to b counts as inside: the edge so directed runs down, or leftwards when level; reversed when A < 0. -/
def tieIn (neg : Bool) (ax ay bx by_ : Int) : Bool :=
  let dx := if neg then ax - bx else bx - ax
  let dy := if neg then ay - by_ else by_ - ay
  0 < dy || (dy = 0 && dx < 0)

/-- The inside test (R391). -/
def Tri.covers (t : Tri) (px py : Int) : Bool :=
  let (e0, e1, e2) := t.edges px py
  let neg := t.area < 0
  (0 < e0 || (e0 = 0 && tieIn neg t.x1 t.y1 t.x2 t.y2)) && (0 < e1 || (e1 = 0 && tieIn neg t.x2 t.y2 t.x0 t.y0))
    && (0 < e2 || (e2 = 0 && tieIn neg t.x0 t.y0 t.x1 t.y1))

/-- Sample positions in sixteenths of a pixel (R391). -/
def samplePos (n k : Nat) : Nat × Nat :=
  let l : List (Nat × Nat) := match n with
    | 1 => [(8, 8)]
    | 2 => [(4, 4), (12, 12)]
    | 4 => [(6, 2), (14, 6), (2, 10), (10, 14)]
    | _ => [(9, 5), (7, 11), (13, 9), (5, 3), (3, 13), (1, 7), (11, 15), (15, 1)]
  (l[k]?).getD (8, 8)

/-- A coordinate given in sixteenths of a pixel. -/
def sixteenth (a : Nat) : Int := (a : Int) * 2 ^ 145

/-- num / den × 2^e rounded once to FP32; an exact zero is +0. -/
def roundRatio (num : Int) (den : Nat) (e : Int) : Word :=
  if num = 0 || den = 0 then 0
  else
    let k := 64 + bitLen den - bitLen num.natAbs
    let n := num.natAbs * 2 ^ k
    BitVec.ofNat 32 (deliver f32 0 false (.num (num < 0) (n / den) (e - k) (n % den ≠ 0))).1

/-- The depth at a point (R391): a Z that is not finite gives the canonical NaN. -/
def depthAt (b : List Byte) (t : Tri) (px py : Int) : Word :=
  match fixed (PrimRec.zw b 0), fixed (PrimRec.zw b 1), fixed (PrimRec.zw b 2) with
  | some z0, some z1, some z2 =>
    let (e0, e1, e2) := t.edges px py
    roundRatio (e0 * z0 + e1 * z1 + e2 * z2) t.area.natAbs (-149)
  | _, _, _ => BitVec.ofNat 32 f32.nanCode

/-! ### Bounding boxes (R381, R384) -/

def min3 (a b c : Int) : Int := min a (min b c)
def max3 (a b c : Int) : Int := max a (max b c)
/-- The pixels that the bounding box reaches: columns from and to, rows from and to (log 41: DEDUCED). -/
def Tri.box (t : Tri) : Int × Int × Int × Int :=
  (min3 t.x0 t.x1 t.x2 / 2 ^ 149, max3 t.x0 t.x1 t.x2 / 2 ^ 149, min3 t.y0 t.y1 t.y2 / 2 ^ 149, max3 t.y0 t.y1 t.y2 / 2 ^ 149)

/-- The exchange drops a record (R381 step 1). -/
def recDropped (b : List Byte) (w h : Nat) : Bool :=
  match triOf b with
  | none => true
  | some t =>
    let (xa, xb, ya, yb) := t.box
    t.area = 0 || (PrimRec.cull b = 1 && t.area < 0) || (PrimRec.cull b = 2 && 0 < t.area)
      || xb < 0 || yb < 0 || (w : Int) ≤ xa || (h : Int) ≤ ya

/-- Tile indices from one pixel to another, clipped to the target. (Log 41: DEDUCED.) -/
def tileRange (a b : Int) (size : Nat) : List Nat :=
  let lo := (max a 0).toNat / 64
  let hi := (min b ((size : Int) - 1)).toNat / 64
  (List.range (hi + 1 - lo)).map (fun i => lo + i)

/-- The tiles that a record's bounding box, clipped to the target, overlaps. -/
def recTiles (b : List Byte) (w h : Nat) : List (Nat × Nat) :=
  match triOf b with
  | none => []
  | some t =>
    let (xa, xb, ya, yb) := t.box
    (tileRange ya yb h).flatMap (fun ty => (tileRange xa xb w).map (fun tx => (tx, ty)))

/-! ### Quads (R392) -/

/-- The covered samples of a pixel inside the target, with their depths: sample index within the pixel and depth. -/
def pixelSamples (p b : List Byte) (t : Tri) (x y : Nat) : List (Nat × Word) :=
  if PassRec.width p ≤ x || PassRec.height p ≤ y then []
  else
    (List.range (PassRec.samples p)).filterMap (fun k =>
      let (u, v) := samplePos (PassRec.samples p) k
      let px := sixteenth (16 * x + u)
      let py := sixteenth (16 * y + v)
      if t.covers px py then some (k, depthAt b t px py) else none)

/-- The pixels of a quad. -/
def quadPixels (q : Nat × Nat) : List (Nat × Nat) := [(q.1, q.2), (q.1 + 1, q.2), (q.1, q.2 + 1), (q.1 + 1, q.2 + 1)]

/-- The quads of a tile with a covered sample, by rows. -/
def tileQuads (p b : List Byte) (tx ty : Nat) : List (Nat × Nat) :=
  match triOf b with
  | none => []
  | some t =>
    let (xa, xb, ya, yb) := t.box
    ((List.range 32).map (fun j => 64 * ty + 2 * j)).flatMap (fun (y : Nat) =>
      if (y : Int) + 1 < ya || yb < (y : Int) then []
      else
        (((List.range 32).map (fun i => 64 * tx + 2 * i)).filter (fun (x : Nat) =>
          !((x : Int) + 1 < xa || xb < (x : Int)) && (quadPixels (x, y)).any (fun q => !(pixelSamples p b t q.1 q.2).isEmpty))).map (fun x => (x, y)))

/-! ### Depth and blending (R399, R400) -/

/-- The depth compare: a NaN on either side fails all but NOTEQUAL and ALWAYS. -/
def depthPasses (dcmp : Nat) (z d : Word) : Bool :=
  let a := Fp.decode f32 false z.toNat
  let b := Fp.decode f32 false d.toNat
  let un := a.isNan || b.isNan
  let c := cmpVal a b
  match dcmp with
  | 0 => false
  | 1 => !un && c = .lt
  | 2 => !un && c = .eq
  | 3 => !un && c ≠ .gt
  | 4 => !un && c = .gt
  | 5 => un || c ≠ .eq
  | 6 => !un && c ≠ .lt
  | _ => true

/-- A source channel of RGBA8, clamped to [0, 1], NaN as 0, in units of 2^-149 / 255. -/
def unorm (w : Word) : Nat :=
  match Fp.decode f32 false w.toNat with
  | .nan _ => 0
  | .inf n => if n then 0 else 255 * 2 ^ 149
  | .num n m e _ => if n then 0 else min (255 * 2 ^ 149) (255 * m * 2 ^ (e + 149).toNat)
def unormOne : Nat := 255 * 2 ^ 149
/-- n / d to the nearest integer, ties to even. -/
def nearest (n d : Nat) : Nat :=
  let q := n / d
  let r := n % d
  if d < 2 * r || (2 * r = d && q % 2 = 1) then q + 1 else q

/-- A factor of RGBA8 (R374). -/
def unormFactor (code sa da : Nat) : Nat := match code with
  | 0 => 0
  | 1 => unormOne
  | 2 => sa
  | 3 => unormOne - sa
  | 4 => da
  | _ => unormOne - da

/-- One channel of RGBA8. -/
def unormChannel (blend : Bool) (sf df sa da s d : Nat) : Nat :=
  if blend then
    nearest (255 * min (unormOne * unormOne) (unormFactor sf sa da * s + unormFactor df sa da * d)) (unormOne * unormOne)
  else nearest (255 * s) unormOne

/-- A factor of a floating-point target. -/
def floatFactor (code : Nat) (sa da : Val) : Val :=
  let one : Val := .num false 1 0 false
  match code with
  | 0 => .num false 0 0 false
  | 1 => one
  | 2 => sa
  | 3 => (addVal one sa.negate).1
  | 4 => da
  | _ => (addVal one da.negate).1

def floatChannel (f : Fmt) (blend : Bool) (sf df : Nat) (sa da s d : Val) : Nat :=
  (deliver f 0 false (if blend then (addVal (mulVal (floatFactor sf sa da) s).1 (mulVal (floatFactor df sa da) d).1).1 else s)).1

def byteOf (w : Word) (i : Nat) : Nat := (w.extractLsb' (8 * i) 8).toNat

/-- A target's words after an export of four FP32 channels over the stored words. (Log 42: DEDUCED.) -/
def blendWords (p : List Byte) (t : Nat) (src dst : List Word) : List Word :=
  let bl := PassRec.blend p t
  let sf := fun (c : Nat) => if c = 3 then PassRec.srcfa p t else PassRec.srcf p t
  let df := fun (c : Nat) => if c = 3 then PassRec.dstfa p t else PassRec.dstf p t
  let sv := fun (c : Nat) => Fp.decode f32 false ((src[c]?).getD 0).toNat
  match PassRec.fmt p t with
  | 1 =>
    let dw := (dst[0]?).getD 0
    let d := fun (c : Nat) => byteOf dw c * 2 ^ 149
    let ch := fun (c : Nat) => unormChannel bl (sf c) (df c) (unorm ((src[3]?).getD 0)) (d 3) (unorm ((src[c]?).getD 0)) (d c)
    [BitVec.ofNat 32 (ch 0 + 2 ^ 8 * ch 1 + 2 ^ 16 * ch 2 + 2 ^ 24 * ch 3)]
  | 2 =>
    let d := fun (c : Nat) => Fp.decode f16 false (((dst[c / 2]?).getD 0).toNat / 2 ^ (16 * (c % 2)) % 65536)
    let ch := fun (c : Nat) => floatChannel f16 bl (sf c) (df c) (sv 3) (d 3) (sv c) (d c)
    [BitVec.ofNat 32 (ch 0 + 65536 * ch 1), BitVec.ofNat 32 (ch 2 + 65536 * ch 3)]
  | _ =>
    let d := fun (c : Nat) => Fp.decode f32 false ((dst[c]?).getD 0).toNat
    (List.range 4).map (fun c => BitVec.ofNat 32 (floatChannel f32 bl (sf c) (df c) (sv 3) (d 3) (sv c) (d c)))

/-- A fragment's effect on one sample (R399): depth first, then each exported target. A result computed from a poisoned stored value is
poisoned (log 42: DEDUCED). -/
def TileSt.blend (t : TileSt) (p : List Byte) (f : Frag) (n : Nat) (zi : Word) : TileSt :=
  let z := f.depth.getD zi
  let d := t.get p n 8
  let hasDepth := PassRec.dbase p ≠ 0
  if hasDepth && !depthPasses (PassRec.dcmp p) z ((d.words.head?).getD 0) then t
  else
    let bad := hasDepth && d.pois
    let t := if hasDepth && PassRec.dwrite p then t.put n 8 ⟨[z], false⟩ else t
    f.colours.foldl (fun (t : TileSt) c =>
      let old := t.get p n c.1
      t.put n c.1 ⟨blendWords p c.1 c.2 old.words, bad || (PassRec.blend p c.1 && old.pois)⟩) t

/-- A fragment is applied to every sample that it covers. -/
def TileSt.apply (t : TileSt) (p : List Byte) (f : Frag) : TileSt := f.samples.foldl (fun (t : TileSt) x => t.blend p f x.1 x.2) t

end Sys2Proof.Machine
end

