-- ==== Sys2Proof/Machine/LaneFloat.lean ====
section
/-! DEFINITION. Lane floating-point and conversion instructions (spec/05_lane_float.md R105 to R118), the collectives that compute
(spec/06_lane_control_and_collectives.md R130, R131), and the uniform floating-point instructions (spec/07 R140). -/

namespace Sys2Proof.Machine

open Fp

/-! ### Lane results with flags and checked operations -/

/-- A residue error injected among n operations of a unit in the lane that ERRINJ names (R147, R174, R175): the destination words of
that lane become poisoned, or the open region is aborted, which the operation of another unit finds done. -/
def State.residue (s : State) (unit n : Nat) (e : LaneMask) (dests : List Nat) : State :=
  let k := s.sel.key
  let w := s.wave k
  if !s.hasWave k || !e.getLsbD w.injLane.val then s
  else
    match w.inject unit n with
    | (w', none) => s.setWave k w'
    | (w', some _) =>
      (s.setWave k w').detected k unit w.injLane.val (fun s => s.modWave k (fun x => dests.foldl (fun x d =>
        match x.row d with
        | none => x
        | some r => { x with rows := assocSet x.rows d { r with pois := r.pois ||| (1#32 <<< w.injLane.val) } }) x))

/-- A single register result with flags (R42). -/
def State.laneF (s : State) (reads marks : List Nat) (g : BitVec 3) (gn : Bool) (d : BitVec 6)
    (val : Wave → Fin 32 → Nat × Flags) (pois : Wave → LaneMask) : Res :=
  match s.laneBegin reads g gn (vname d) marks with
  | .stop s => .next s
  | .go s e => s.laneDone marks (fun pool w =>
      (w.putV pool d e (fun i => BitVec.ofNat 32 (val s.cur i).1) (pois s.cur)).raise (laneFlags e (fun i => (val s.cur i).2)))

/-- A pair result with flags; units gives the checked units that one lane execution uses (R147). -/
def State.laneD (s : State) (reads marks : List Nat) (g : BitVec 3) (gn : Bool) (d : BitVec 6) (units : List Nat)
    (val : Wave → Fin 32 → Nat × Flags) (pois : Wave → LaneMask) : Res :=
  match s.laneBegin reads g gn (vnames d 2) marks with
  | .stop s => .next s
  | .go s e =>
    let t := s.laneEnd marks (fun pool w =>
      (w.putPair pool d e (fun i => BitVec.ofNat 64 (val s.cur i).1) (pois s.cur)).raise (laneFlags e (fun i => (val s.cur i).2)))
    .next (units.foldl (fun t u => t.residue u 1 e (vnames d 2)) t)

/-- FP32 of two single sources in V3 (R107). -/
def State.f32Op2 (s : State) (f : V3) (op : Bool → Nat → Nat → Nat × Flags) : Res :=
  s.laneF (vname f.a ++ vname f.b) (markNames f.ka f.kb (vname f.a) (vname f.b)) f.g f.gn f.d
    (fun w i => op w.ftz (w.vsrc f.a f.lit i).toNat (w.vsrc f.b f.lit i).toNat) (fun w => w.vsrcPois f.a ||| w.vsrcPois f.b)

/-- FP64 of two pairs in V3 (R107). -/
def State.f64Op2 (s : State) (f : V3) (units : List Nat) (op : Nat → Nat → Nat × Flags) : Res :=
  s.laneD (vnames f.a 2 ++ vnames f.b 2) (markNames f.ka f.kb (vnames f.a 2) (vnames f.b 2)) f.g f.gn f.d units
    (fun w i => op (w.vpair f.a i).toNat (w.vpair f.b i).toNat) (fun w => w.vpairPois f.a ||| w.vpairPois f.b)

/-- FADD (R107). -/
def execFadd (f : V3) (s : State) : Res := s.f32Op2 f (Fp.add f32)
/-- FSUB (R107). -/
def execFsub (f : V3) (s : State) : Res := s.f32Op2 f (Fp.sub f32)
/-- FMUL (R107). -/
def execFmul (f : V3) (s : State) : Res := s.f32Op2 f (Fp.mul f32)
/-- FDIV (R107). -/
def execFdiv (f : V3) (s : State) : Res := s.f32Op2 f (Fp.div f32)
/-- FMIN (R43, R107). -/
def execFmin (f : V3) (s : State) : Res := s.f32Op2 f (fun z => minMax f32 z false true)
/-- FMAX (R43, R107). -/
def execFmax (f : V3) (s : State) : Res := s.f32Op2 f (fun z => minMax f32 z true true)
/-- FMINN (R43, R107). -/
def execFminn (f : V3) (s : State) : Res := s.f32Op2 f (fun z => minMax f32 z false false)
/-- FMAXN (R43, R107). -/
def execFmaxn (f : V3) (s : State) : Res := s.f32Op2 f (fun z => minMax f32 z true false)
/-- FSQRT (R107). -/
def execFsqrt (f : V3) (s : State) : Res :=
  s.laneF (vname f.a) (markNames f.ka false (vname f.a) []) f.g f.gn f.d
    (fun w i => Fp.sqrt f32 w.ftz (w.vsrc f.a f.lit i).toNat) (fun w => w.vsrcPois f.a)
/-- FFMA (R109). -/
def execFfma (f : V4) (s : State) : Res :=
  s.laneF (vname f.a ++ vname f.b ++ vname f.c) [] 7#3 false f.d
    (fun w i => Fp.fma f32 w.ftz (w.vsrc f.a f.lit i).toNat (w.vsrc f.b f.lit i).toNat (w.vsrc f.c f.lit i).toNat)
    (fun w => w.vsrcPois f.a ||| w.vsrcPois f.b ||| w.vsrcPois f.c)

/-- DADD (R107): the adder is checked (R174). -/
def execDadd (f : V3) (s : State) : Res := s.f64Op2 f [1] (Fp.add f64 false)
/-- DSUB (R107). -/
def execDsub (f : V3) (s : State) : Res := s.f64Op2 f [1] (Fp.sub f64 false)
/-- DMUL (R107): the multiplier is checked. -/
def execDmul (f : V3) (s : State) : Res := s.f64Op2 f [0] (Fp.mul f64 false)
/-- DDIV (R107): one operation of each unit (R147). -/
def execDdiv (f : V3) (s : State) : Res := s.f64Op2 f [0, 1] (Fp.div f64 false)
/-- DMIN (R43, R107). -/
def execDmin (f : V3) (s : State) : Res := s.f64Op2 f [] (minMax f64 false false true)
/-- DMAX (R43, R107). -/
def execDmax (f : V3) (s : State) : Res := s.f64Op2 f [] (minMax f64 false true true)
/-- DSQRT (R107). -/
def execDsqrt (f : V3) (s : State) : Res :=
  s.laneD (vnames f.a 2) (markNames f.ka false (vnames f.a 2) []) f.g f.gn f.d [0, 1]
    (fun w i => Fp.sqrt f64 false (w.vpair f.a i).toNat) (fun w => w.vpairPois f.a)
/-- DFMA (R109). -/
def execDfma (f : V4) (s : State) : Res :=
  s.laneD (vnames f.a 2 ++ vnames f.b 2 ++ vnames f.c 2) [] 7#3 false f.d [0, 1]
    (fun w i => Fp.fma f64 false (w.vpair f.a i).toNat (w.vpair f.b i).toNat (w.vpair f.c i).toNat)
    (fun w => w.vpairPois f.a ||| w.vpairPois f.b ||| w.vpairPois f.c)

/-! ### Packed FP16 and BF16 (R110) -/

/-- Both elements of a word, each on its own, with the OR of their flags. -/
def packed2 (op : Nat → Nat → Nat × Flags) (a b : Nat) : Nat × Flags :=
  let lo := op (a % 65536) (b % 65536)
  let hi := op (a / 65536) (b / 65536)
  (hi.1 * 65536 + lo.1, lo.2 ||| hi.2)
def packed3 (op : Nat → Nat → Nat → Nat × Flags) (a b c : Nat) : Nat × Flags :=
  let lo := op (a % 65536) (b % 65536) (c % 65536)
  let hi := op (a / 65536) (b / 65536) (c / 65536)
  (hi.1 * 65536 + lo.1, lo.2 ||| hi.2)

def State.packedFma (s : State) (f : V4) (g : Fmt) : Res :=
  s.laneF (vname f.a ++ vname f.b ++ vname f.c) [] 7#3 false f.d
    (fun w i => packed3 (Fp.fma g w.ftz) (w.vsrc f.a f.lit i).toNat (w.vsrc f.b f.lit i).toNat (w.vsrc f.c f.lit i).toNat)
    (fun w => w.vsrcPois f.a ||| w.vsrcPois f.b ||| w.vsrcPois f.c)

/-- HADD2 (R110). -/
def execHadd2 (f : V3) (s : State) : Res := s.f32Op2 f (fun z => packed2 (Fp.add f16 z))
/-- HMUL2 (R110). -/
def execHmul2 (f : V3) (s : State) : Res := s.f32Op2 f (fun z => packed2 (Fp.mul f16 z))
/-- HFMA2 (R110). -/
def execHfma2 (f : V4) (s : State) : Res := s.packedFma f f16
/-- BADD2 (R110). -/
def execBadd2 (f : V3) (s : State) : Res := s.f32Op2 f (fun z => packed2 (Fp.add bf16 z))
/-- BMUL2 (R110). -/
def execBmul2 (f : V3) (s : State) : Res := s.f32Op2 f (fun z => packed2 (Fp.mul bf16 z))
/-- BFMA2 (R110). -/
def execBfma2 (f : V4) (s : State) : Res := s.packedFma f bf16

/-- A VX instruction of two single sources with a result of flags. -/
def State.vxF (s : State) (f : VX) (op : Wave → Word → Word → Nat × Flags) (useB : Bool) : Res :=
  let b := if useB then vname f.b else []
  s.laneF (vname f.a ++ b) [] 7#3 false f.d (fun w i => op w (w.vsrc f.a f.lit i) (w.vsrc f.b f.lit i))
    (fun w => w.vsrcPois f.a ||| (if useB then w.vsrcPois f.b else 0))

/-- HMNX2 (R110). -/
def execHmnx2 (f : VX) (s : State) : Res :=
  let g := if f.fn.getLsbD 2 then bf16 else f16
  s.vxF f (fun w a b => packed2 (minMax g w.ftz (f.fn.getLsbD 0) (!f.fn.getLsbD 1)) a.toNat b.toNat) true

/-! ### Compares, signs, functions, conversions (R111 to R118) -/

/-- FCMP (R111). -/
def execFcmp (f : VC) (s : State) : Res :=
  let marks := markNames f.ka f.kb (vname f.a) (vname f.b)
  match s.laneBegin (vname f.a ++ vname f.b) f.g f.gn [] marks with
  | .stop s => .next s
  | .go s e =>
    let r := fun i => fcompare f32 s.cur.ftz f.cc.toNat (s.cur.vsrc f.a f.lit i).toNat (s.cur.vsrc f.b f.lit i).toNat
    let p := s.cur.vsrcPois f.a ||| s.cur.vsrcPois f.b
    s.laneDone marks (fun _ w => (w.mapLanes e (fun i l => l.setP f.pd (r i).1 (p.getLsbD i.val))).raise (laneFlags e (fun i => (r i).2)))

/-- DCMP (R111). -/
def execDcmp (f : VC) (s : State) : Res :=
  let marks := markNames f.ka f.kb (vnames f.a 2) (vnames f.b 2)
  match s.laneBegin (vnames f.a 2 ++ vnames f.b 2) f.g f.gn [] marks with
  | .stop s => .next s
  | .go s e =>
    let r := fun i => fcompare f64 false f.cc.toNat (s.cur.vpair f.a i).toNat (s.cur.vpair f.b i).toNat
    let p := s.cur.vpairPois f.a ||| s.cur.vpairPois f.b
    s.laneDone marks (fun _ w => (w.mapLanes e (fun i l => l.setP f.pd (r i).1 (p.getLsbD i.val))).raise (laneFlags e (fun i => (r i).2)))

/-- The sign operations (R112). -/
def fsgnOp (fn : Nat) (a b : Word) : Word :=
  let rest := a &&& 0x7FFFFFFF
  match fn with
  | 0 => rest
  | 1 => a ^^^ 0x80000000
  | 2 => rest ||| (b &&& 0x80000000)
  | _ => a ^^^ (b &&& 0x80000000)

/-- FSGN (R112): copies bits, raises no flag. -/
def execFsgn (f : VX) (s : State) : Res := s.vxF f (fun _ a b => ((fsgnOp f.fn.toNat a b).toNat, 0)) (2 ≤ f.fn.toNat)

/-- FSFU (R113, R114). -/
def execFsfu (f : VX) (s : State) : Res := s.vxF f (fun w a _ => sfu f.fn.toNat w.ftz a.toNat) false

/-- The rounding code in force: code 5 is FPC.RM as it stands at issue (R36, R105). -/
def Wave.rmOf (w : Wave) (code : BitVec 3) : Nat := if code = 5#3 then w.rm else code.toNat
def vxRm (f : VX) : BitVec 3 := f.fn.extractLsb' 0 3
def vxKind (f : VX) : Nat := (f.fn.extractLsb' 3 3).toNat

/-- FRND (R115). -/
def execFrnd (f : VX) (s : State) : Res := s.vxF f (fun w a _ => rint f32 w.ftz (w.rmOf (vxRm f)) a.toNat) false

/-- DSFU (R116): one operation of the adder, .SCALE one of the multiplier too (R147). -/
def execDsfu (f : VX) (s : State) : Res :=
  if (vxKind f) = 0 then
    s.laneD (vnames f.a 2) [] 7#3 false f.d [1] (fun w i => rint f64 false (w.rmOf (vxRm f)) (w.vpair f.a i).toNat)
      (fun w => w.vpairPois f.a)
  else if (vxKind f) = 1 then
    match s.laneBegin (vnames f.a 2) 7#3 false (vname f.d) [] with
    | .stop s => .next s
    | .go s e =>
      let r := fun i => getExp (s.cur.vpair f.a i).toNat
      let t := s.laneEnd [] (fun pool w =>
        (w.putV pool f.d e (fun i => (r i).1) (s.cur.vpairPois f.a)).raise (laneFlags e (fun i => (r i).2)))
      .next (t.residue 1 1 e (vname f.d))
  else
    s.laneD (vnames f.a 2 ++ vname f.b) [] 7#3 false f.d [0, 1]
      (fun w i => Fp.scale (w.rmOf (vxRm f)) (w.vpair f.a i).toNat (w.vsrc f.b f.lit i).toInt)
      (fun w => w.vpairPois f.a ||| w.vsrcPois f.b)

/-- CVT (R117): B is the type code, 8 × destination + source. -/
def execCvt (f : VX) (s : State) : Res :=
  let dst := f.b.toNat / 8
  let src := f.b.toNat % 8
  let wideS := typeWide src
  let reads := if wideS then vnames f.a 2 else vname f.a
  let arg := fun (w : Wave) (i : Fin 32) => if wideS then w.vpair f.a i else (w.vsrc f.a f.lit i).setWidth 64
  let half := src = 2 || src = 3
  let val := fun (w : Wave) (i : Fin 32) =>
    let x := arg w i
    let r := Fp.cvt dst src (w.rmOf (vxRm f)) w.ftz (if half then x &&& 0xFFFF else x)
    (r.1.toNat, r.2)
  let pois := fun (w : Wave) => if wideS then w.vpairPois f.a else w.vsrcPois f.a
  if typeWide dst then s.laneD reads [] 7#3 false f.d [] val pois else s.laneF reads [] 7#3 false f.d val pois

/-- The standard format of an NCVT kind (R118). -/
def ncvtFmt (kind : Nat) : Fmt := match kind / 2 with
  | 0 => f32
  | 1 => f16
  | _ => bf16

/-- NCVT on one lane's words. -/
def ncvtOp (kind rm : Nat) (ftz : Bool) (a fw : Word) : Nat × Flags :=
  let g := ncvtFmt kind
  let pat := if kind < 2 then a.toNat else a.toNat % 65536
  if kind % 2 = 0 then
    Narrow.encode fw (Fp.decode g ftz pat)
  else deliver g rm ftz (Narrow.decode fw (a.toNat % 2 ^ Narrow.width fw))

/-- NCVT (R118): an invalid format word in any lane of the path raises ILLEGAL_OPERAND with those lanes (R106). -/
def execNcvt (f : VX) (s : State) : Res :=
  let w := s.cur
  let bad := s.sel.mask &&& maskOf (fun i => !Narrow.valid (w.vsrc f.b f.lit i))
  if bad ≠ 0 then .next (s.trapHere causeIllegalOperand bad 0)
  else s.vxF f (fun w a b => ncvtOp (vxKind f) (w.rmOf (vxRm f)) w.ftz a b) true

/-! ### WRED, WSCAN, WARGX (R56, R58, R130, R131) -/

/-- A position of the tree: ID, or a value with its flags. -/
abbrev TreeCell := Option DWord × Flags

/-- One combine: ID leaves the other side as it is. -/
def comb (op : DWord → DWord → DWord × Flags) (a b : TreeCell) : TreeCell :=
  match a.1, b.1 with
  | none, _ => b
  | _, none => a
  | some x, some y => let r := op x y; (some r.1, r.2)

/-- The value at lane i after the tree's rounds over the cells given, with every flag raised on the way. -/
def treeRound (op : DWord → DWord → DWord × Flags) (m : Nat) (x : List TreeCell) : List TreeCell × Flags :=
  let y := (List.range 32).map (fun i =>
    let j := i ^^^ m
    comb op ((x[min i j]?).getD (none, 0)) ((x[max i j]?).getD (none, 0)))
  (y, y.foldl (fun acc c => acc ||| c.2) 0)

/-- The tree of R56 over 32 cells. -/
def tree (op : DWord → DWord → DWord × Flags) (x : List (Option DWord)) : List (Option DWord) × Flags :=
  [16, 8, 4, 2, 1].foldl (fun acc m =>
    let r := treeRound op m (acc.1.map (fun v => (v, 0)))
    (r.1.map Prod.fst, acc.2 ||| r.2)) (x, 0)

/-- The operation of a WRED or WSCAN code on its type (R130). -/
def redOp (op ty : Nat) (ftz : Bool) (a b : DWord) : DWord × Flags :=
  if 2 ≤ ty then
    let f := if ty = 2 then f32 else f64
    let z := ftz && ty = 2
    let r := match op with
      | 0 => Fp.add f z a.toNat b.toNat
      | 1 => Fp.mul f z a.toNat b.toNat
      | 2 => minMax f z false true a.toNat b.toNat
      | _ => minMax f z true true a.toNat b.toNat
    (BitVec.ofNat 64 r.1, r.2)
  else
    let x := loWord a
    let y := loWord b
    let r : Word := match op, ty with
      | 0, _ => x + y
      | 1, _ => x * y
      | 2, 0 => Int32.smin x y
      | 2, _ => Int32.umin x y
      | 3, 0 => Int32.smax x y
      | 3, _ => Int32.umax x y
      | 4, _ => x &&& y
      | 5, _ => x ||| y
      | _, _ => x ^^^ y
    (r.setWidth 64, 0)

/-- The empty value of an operation (R130). -/
def redEmpty (op ty : Nat) : DWord :=
  match ty, op with
  | 2, 1 => 0x3F800000
  | 2, 2 => 0x7F800000
  | 2, 3 => 0xFF800000
  | 3, 1 => 0x3FF0000000000000
  | 3, 2 => 0x7FF0000000000000
  | 3, 3 => 0xFFF0000000000000
  | _, 1 => 1
  | 0, 2 => 0x7FFFFFFF
  | 0, 3 => 0x80000000
  | 1, 2 => 0xFFFFFFFF
  | _, 4 => 0xFFFFFFFF
  | _, _ => 0

def redKind (f : VX) : Nat := (f.fn.extractLsb' 3 3).toNat
def redType (f : VX) : Nat := (f.fn.extractLsb' 1 2).toNat

/-- The value a lane contributes. -/
def Wave.redValue (w : Wave) (f : VX) (i : Fin 32) : DWord :=
  if (redType f) = 3 then w.vpair f.a i else (w.vsrc f.a f.lit i).setWidth 64
def Wave.redPois (w : Wave) (f : VX) : LaneMask := if (redType f) = 3 then w.vpairPois f.a else w.vsrcPois f.a

/-- The tree over the lanes of a mask; a result still ID takes the empty value. -/
def Wave.reduce (w : Wave) (f : VX) (m : LaneMask) (i : Fin 32) : DWord × Flags :=
  let t := tree (redOp (redKind f) (redType f) w.ftz) ((List.finRange 32).map (fun j => if m.getLsbD j.val then some (w.redValue f j) else none))
  ((((t.1[i.val]?).getD none).getD (redEmpty (redKind f) (redType f))), t.2)

/-- The lanes that a prefix of lane i combines. -/
def prefixOf (m : LaneMask) (excl : Bool) (i : Fin 32) : LaneMask := m &&& (if excl then below i else below i ||| (1#32 <<< i.val))

/-- The write of WRED and WSCAN, with a lane's inputs as a mask. -/
def State.wreduce (s : State) (f : VX) (inputs : Fin 32 → LaneMask) : Res :=
  let val := fun (w : Wave) (i : Fin 32) => let r := w.reduce f (inputs i) i; (r.1.toNat, r.2)
  let pois := fun (w : Wave) => poisWhere inputs (w.redPois f)
  if (redType f) = 3 then s.laneD (vnames f.a 2) [] 7#3 false f.d [] val pois else s.laneF (vname f.a) [] 7#3 false f.d val pois

/-- WRED (R130). -/
def execWred (f : VX) (s : State) : Res := s.wreduce f (fun _ => s.sel.mask)
/-- WSCAN (R130): lane i combines the participants below it, and itself unless .EXCL. -/
def execWscan (f : VX) (s : State) : Res := s.wreduce f (prefixOf s.sel.mask (f.fn.getLsbD 0))

/-- One participant of WARGX: lane, value, index. -/
structure ArgIn where
  lane : Nat
  val : Word
  idx : Word
  deriving DecidableEq, Repr

/-- NaN test of a WARGX type. -/
def argNan (ty : Nat) (v : Word) : Bool :=
  match ty with
  | 0 => (Fp.decode f16 false v.toNat).isNan
  | 1 => (Fp.decode f32 false v.toNat).isNan
  | _ => false

/-- a ranks strictly above b for MAX, below it for MIN (R58). -/
def argBetter (ty : Nat) (mini : Bool) (a b : Word) : Bool :=
  if argNan ty b then !argNan ty a
  else if argNan ty a then false
  else
    let gt := fun (x y : Word) => match ty with
      | 0 => Fp.ranksBelow (Fp.decode f16 false y.toNat) (Fp.decode f16 false x.toNat)
      | 1 => Fp.ranksBelow (Fp.decode f32 false y.toNat) (Fp.decode f32 false x.toNat)
      | 2 => decide (y.toInt < x.toInt)
      | _ => decide (y.toNat < x.toNat)
    if mini then gt b a else gt a b

/-- The winner (R58, R131): best value, then lowest index, then lowest lane. -/
def argWinner (ty : Nat) (mini : Bool) : List ArgIn → Option ArgIn
  | [] => none
  | a :: t => some (t.foldl (fun best x =>
      if argBetter ty mini x.val best.val then x
      else if argBetter ty mini best.val x.val then best
      else if x.idx.toNat < best.idx.toNat then x else best) a)

/-- WARGX (R131). -/
def execWargx (f : VX) (s : State) : Res :=
  let ty := (redType f)
  let mini := f.fn.getLsbD 0
  let res := fun (w : Wave) =>
    let l := (maskLanes s.sel.mask).map (fun i =>
      (⟨i.val, if ty = 0 then (w.vsrc f.a f.lit i) &&& 0xFFFF else w.vsrc f.a f.lit i, w.vsrc f.b f.lit i⟩ : ArgIn))
    match argWinner ty mini l with
    | none => (0#32, 0#32)
    | some a => (if argNan ty a.val then (if ty = 0 then 0x7E00 else 0x7FC00000) else a.val, a.idx)
  s.lanePair (vname f.a ++ vname f.b) [] 7#3 false f.d (fun w _ => pairOf (res w).1 (res w).2)
    (fun w => if (w.vsrcPois f.a ||| w.vsrcPois f.b) &&& s.sel.mask = 0 then 0 else allLanes)

/-! ### Uniform floating point (R140) -/

/-- UFADD and UFMUL. -/
def State.uFloat (s : State) (f : U3) (op : Bool → Nat → Nat → Nat × Flags) : Res :=
  s.uniGuard f.qg f.qn (s.uniDone (fun w =>
    let r := op w.ftz (w.sreg f.a f.lit).toNat (w.sreg f.b f.lit).toNat
    (w.setS f.d (BitVec.ofNat 32 r.1) (w.sregPois f.a || w.sregPois f.b)).raise r.2))

/-- UFADD (R140). -/
def execUfadd (f : U3) (s : State) : Res := s.uFloat f (Fp.add f32)
/-- UFMUL (R140). -/
def execUfmul (f : U3) (s : State) : Res := s.uFloat f (Fp.mul f32)

/-- UCVT (R75, R140): destination and source types by code, rounding to nearest even. (Log 13: DEDUCED.) -/
def execUcvt (f : UI) (s : State) : Res :=
  let (dst, src) := match f.imm.toNat % 4 with
    | 0 => (1, 4)
    | 1 => (1, 5)
    | 2 => (4, 1)
    | _ => (5, 1)
  s.uniDone (fun w =>
    let r := Fp.cvt dst src 0 w.ftz ((w.sreg f.a 0).setWidth 64)
    (w.setS f.d (loWord r.1) (w.sregPois f.a)).raise r.2)

end Sys2Proof.Machine
end

