-- ==== Sys2Proof/Machine/Tiles.lean ====
section
/-! DEFINITION. Canonical tiles and the copy engine (spec/10_tiles_and_matrices.md R206 to R218), the clove cache (R219). -/

namespace Sys2Proof.Machine

/-! ### Shape records (R206 to R208) -/

namespace Shape
def base (b : List Byte) : Nat := bytesDWord b 0x00 % 2 ^ 56
def fmt (b : List Byte) : Word := bytesWord b 0x08
def typ (b : List Byte) : Nat := ((bytesWord b 0x0C).extractLsb' 8 3).toNat
def tid (b : List Byte) : Nat := (bytesWord b 0x0C).toNat % 256
def dim (b : List Byte) (i : Nat) : Nat := (bytesWord b (0x10 + 4 * i)).toNat
def stride (b : List Byte) (i : Nat) : Nat := (bytesWord b (0x1C + 4 * i)).toNat
def tscale (b : List Byte) : Word := bytesWord b 0x2C
def sbase (b : List Byte) : Nat := bytesDWord b 0x30 % 2 ^ 56
def sstride (b : List Byte) : Nat := (bytesWord b 0x38).toNat
def kcount (b : List Byte) : Nat := ((bytesWord b 0x3C).extractLsb' 8 8).toNat
def kind (b : List Byte) : Nat := (bytesWord b 0x3C).toNat % 4
/-- Flattened rows. -/
def rows (b : List Byte) : Nat := dim b 1 * dim b 2 * dim b 3
end Shape

/-- The width of a tile's elements in bits: 64, 32, 16, or 8 and 4 for narrow formats of width 5 to 8 and 2 to 4 (R210). -/
def elemBits (typ narrow : Nat) : Nat := match typ with
  | 0 => 64
  | 1 => 32
  | 2 => 16
  | 3 => 16
  | _ => if narrow ≤ 4 then 4 else 8

/-- R207. -/
def Shape.valid (b : List Byte) : Bool :=
  let t := Shape.typ b
  let f := Shape.fmt b
  bytesDWord b 0x00 < 2 ^ 56 && (bytesWord b 0x0C).extractLsb' 11 21 = 0 && bytesDWord b 0x30 < 2 ^ 56
    && (bytesWord b 0x3C).extractLsb' 16 16 = 0 && (bytesWord b 0x3C).extractLsb' 2 6 = 0
    && t ≤ 4 && (if t = 4 then Narrow.valid f else f = 0)
    && (List.range 4).all (fun i => Shape.dim b i ≠ 0)
    && Shape.kind b ≠ 3 && ((Shape.kind b = 2) = (Shape.kcount b = 0))
    && (t ≠ 4 || 4 < Narrow.width f || [1, 2, 3].all (fun i => Shape.stride b i % 2 = 0))
    && (t ≠ 4 || !Narrow.scl f || (Shape.sbase b ≠ 0 && Shape.sstride b ≠ 0))
    && Shape.base b % (if t = 4 then 1 else elemBits t 0 / 8) = 0

/-- Element index of (r, k) (R208). -/
def Shape.elem (b : List Byte) (r k : Nat) : Nat :=
  r % Shape.dim b 1 * Shape.stride b 1 + r / Shape.dim b 1 % Shape.dim b 2 * Shape.stride b 2
    + r / (Shape.dim b 1 * Shape.dim b 2) * Shape.stride b 3 + k
def Shape.inBounds (b : List Byte) (r k : Nat) : Bool := r < Shape.rows b && k < Shape.dim b 0

/-! ### Tiles (R209, R210) -/

namespace TileHdr
def fmt (b : List Byte) : Word := bytesWord b 0x00
def word1 (b : List Byte) : Word := bytesWord b 0x04
def klen (b : List Byte) : Nat := ((word1 b).extractLsb' 16 16).toNat
def gath (b : List Byte) : Bool := (word1 b).getLsbD 14
def kind (b : List Byte) : Nat := ((word1 b).extractLsb' 12 2).toNat
def typ (b : List Byte) : Nat := ((word1 b).extractLsb' 8 3).toNat
def tid (b : List Byte) : Nat := (word1 b).toNat % 256
def k0 (b : List Byte) : Nat := (bytesWord b 0x08).toNat
def row0 (b : List Byte) : Nat := (bytesWord b 0x0C).toNat
def tscale (b : List Byte) : Word := bytesWord b 0x10
def sstride (b : List Byte) : Nat := (bytesWord b 0x14).toNat
def sbase (b : List Byte) : Nat := bytesDWord b 0x18
/-- A reserved field is not zero. -/
def reserved (b : List Byte) : Bool := (word1 b).getLsbD 15 || (word1 b).getLsbD 11 || 2 ^ 56 ≤ sbase b
def mk (fmt : Word) (klen : Nat) (gath : Bool) (kind typ tid : Nat) (k0 row0 tscale : Word) (sstride sbase : Nat) : List Byte :=
  wordLe fmt ++ leBytes 4 (klen * 65536 + (if gath then 16384 else 0) + kind * 4096 + typ * 256 + tid) ++ wordLe k0 ++ wordLe row0
    ++ wordLe tscale ++ leBytes 4 sstride ++ leBytes 8 sbase
end TileHdr

/-- The first address of a tile's data. -/
def dataStart (h : Nat) : Nat := (h + 32 + 255) / 256 * 256
/-- RSTRIDE: the stride of rows of so many elements. -/
def rstride (klen bits : Nat) : Nat := (klen * bits + 255) / 256 * 32
/-- Rows or columns of a tile by kind and type. -/
def tileRows (kind typ : Nat) : Nat := if kind = 1 then (if typ = 0 then 8 else 16) else 32
/-- T: the span of a tile from its header. -/
def tileSpanBytes (h kind typ klen bits : Nat) : Nat := dataStart h - h + tileRows kind typ * rstride klen bits

/-- Bits of a byte that elements of a format use (R49). -/
def elemMask (typ : Nat) (fmt : Word) : Byte :=
  if typ ≠ 4 then 0xFF
  else
    let w := Narrow.width fmt
    if w ≤ 4 then BitVec.ofNat 8 ((2 ^ w - 1) * 17) else BitVec.ofNat 8 (2 ^ w - 1)

/-- The bytes of a row's in-bounds run from K0: first virtual address, bytes, elements; none when the row has none (R208). -/
def Shape.run (b : List Byte) (bits k0 klen r : Nat) : Option (Nat × Nat × Nat) :=
  if Shape.inBounds b r k0 then
    let n := min klen (Shape.dim b 0 - k0)
    some (va56 (Shape.base b + Shape.elem b r k0 * bits / 8), (n * bits + 7) / 8, n)
  else none

/-! ### Copy commands at issue (R211, R212) -/

/-- The team at a member of the issuing crew is there or has been: the crew's size (R264). -/
def State.crewSize (s : State) (t : Nat) : Nat := (s.crew (s.team t).crew).size

/-- An armed byte-counting object (R212, R215). -/
def Team.kind2At (x : Team) (a : Nat) : Bool := x.isArmed a && x.kindAt a = 2

def State.copyChecks (s : State) (f : UC) (mcast : Bool) : List (Option TrapReq) :=
  let w := s.cur
  let t := s.curTeam
  let path := s.sel.mask
  let a1 := w.sreg (f.a + 1) 0
  let c := w.sreg f.c 0
  let bar := (w.sreg f.fn 0).toNat
  let named := bar ≠ 0xFFFFFFFF
  let h := c.toNat % 2 ^ 19
  let rec_ := (w.spair f.a).toNat % 2 ^ 56
  let mm := c.extractLsb' 24 4
  let own := !mcast || mm.getLsbD t.member
  let resv := if mcast then c &&& 0xF0F80000 else c &&& 0xFFF80000
  let members := 2 ^ s.crewSize w.team - 1
  let at_ := BitVec.ofNat 64 h
  [ s.check (mcast && s.regionOpen w.team) causeRgnViolation path 0,
    s.check (w.spairPois f.a || w.spairPois f.b || w.sregPois f.c || w.sregPois f.fn) causePoison path 0,
    s.check (a1.extractLsb' 24 8 ≠ 0 || resv ≠ 0 || (mcast && (mm = 0 || members < mm.toNat))) causeIllegalOperand path 0,
    s.check (h % 32 ≠ 0) causeMisalign path at_,
    s.check (named && bar % 16 ≠ 0) causeMisalign path (BitVec.ofNat 64 bar),
    s.check (rec_ % 64 ≠ 0) causeMisalign path (BitVec.ofNat 64 rec_),
    s.check (own && t.spSize < h + 32) causeBounds path at_,
    s.check (own && named && t.spSize < bar + 16) causeBounds path (BitVec.ofNat 64 bar),
    s.check (own && named && !t.kind2At bar) causeIllegalOperand path 0 ]

/-- A copy command: one operation of class CP. -/
def State.copyCommand (s : State) (f : UC) (op : BitVec 8) : Res :=
  let w := s.cur
  let c := w.sreg f.c 0
  s.guarded (s.copyChecks f (op = 0xBA#8))
    (s.issueOp .cp (.copy ⟨op, (w.spair f.a).toNat % 2 ^ 56, w.sreg f.b 0, w.sreg (f.b + 1) 0, c.toNat % 2 ^ 19,
      if op = 0xBA#8 then c.extractLsb' 24 4 else 0, w.sreg f.fn 0⟩ none [] none)).advance

/-- TLOAD (R211). -/
def execTload (f : UC) (s : State) : Res := s.copyCommand f 0xB7#8
/-- TSTORE (R211). -/
def execTstore (f : UC) (s : State) : Res := s.copyCommand f 0xB8#8
/-- TGATH (R211). -/
def execTgath (f : UC) (s : State) : Res := s.copyCommand f 0xB9#8
/-- TMCAST (R211). -/
def execTmcast (f : UC) (s : State) : Res := s.copyCommand f 0xBA#8

/-! ### What a copy reads (R213, R234) -/

/-- The lines of some ranges, translated. -/
def State.engineLines (s : State) (ctx : Nat) (ranges : List (Nat × Nat)) : List LineX :=
  ((ranges.flatMap (fun r => (List.range r.2).map (fun i => lineAddr (va56 (r.1 + i))))).dedup).map (fun v => ⟨v, some (s.translate ctx v .read)⟩)

/-- An engine asks for bytes on behalf of an operation: through the L1 as a load does, or as .BYPASS loads do (R186, R213); they are given with what
they are for. The operation keeps what it has asked for. -/
def State.engineAsk (s : State) (by_ : NetAgent) (k : WaveKey) (op : Nat) (bypass : Bool) (asked : List ((Nat × Nat) × LaneAcc))
    (mk : List LaneAcc → OpKind) : State :=
  let w := s.wave k
  let ranges := asked.map Prod.fst
  let vas := fun (r : Nat × Nat) => (List.range r.2).map (fun i => va56 (r.1 + i))
  match s.struckHeld w.team (ranges.flatMap vas) with
  | some va => s.heldStruck w.team va
  | none =>
    let ls := s.engineLines w.ctx ranges
    let accs := asked.map (fun r => { r.2 with bytes := (vas r.1).map (s.findByte k ls bypass) })
    let s := ranges.foldl (fun (s : State) r => s.markRange w.ctx r.1 r.2 .read) s
    let s := s.modOp (k, op) (fun o => { o with kind := mk accs })
    s.sendReads by_ k op ls bypass false accs

/-- The bytes that have come for an access. -/
def LaneAcc.bytesGot (a : LaneAcc) : List MByte := a.bytes.map (fun b => b.got.getD ⟨0, false⟩)

/-- What a list of ranges comes to when an engine reaches them: the first that does not go through decides. -/
def State.reachAll (s : State) (ctx : Nat) (l : List (Nat × Nat)) (acc : Access) : Reach :=
  match l.find? (fun r => s.engineReach ctx r.1 r.2 acc ≠ .ok) with
  | some r => s.engineReach ctx r.1 r.2 acc
  | none => .ok

/-- The cause of a failed access (R217, R360). -/
def State.failCause (s : State) (ctx va : Nat) (acc : Access) : Nat := match s.translate ctx va acc with
  | .fault c _ _ => c
  | _ => causePageFault

/-- An operation of a wave fails (R196, R217): its cause awaits the covering WAIT; TINFO is its PC. -/
def State.failOp (s : State) (k : WaveKey) (o : Op) (cause : Nat) (lanes : LaneMask) (addr : Nat) : State :=
  s.modWave k (fun w => w.finish o.id (some ⟨cause, lanes, BitVec.ofNat 64 addr, o.pc, false⟩))

/-- Reach ranges on behalf of an operation: ask for a page, wait, fail the operation, or go on. -/
def State.reachFor (s : State) (k : WaveKey) (o : Op) (l : List (Nat × Nat)) (acc : Access) (go : State → State) : State :=
  let ctx := (s.wave k).ctx
  match s.reachAll ctx l acc with
  | .ok => go s
  | .ask va => s.askPage ctx va acc.code
  | .later => s
  | .fail va => (s.failOp k o (s.failCause ctx va acc) o.lanes va).dropFault ctx va

/-! ### The clove cache (R219) -/

/-- Entries the 64 KiB of a clove cache hold. -/
def cloveCap : Nat := 32768
def CoreSt.scale (c : CoreSt) (ctx tid row blk : Nat) : Option Clove :=
  c.clove.find? (fun x => x.ctx = ctx ∧ x.tid = tid ∧ x.row = row ∧ x.blk = blk)
def CoreSt.putScale (c : CoreSt) (x : Clove) : CoreSt :=
  { c with clove := (x :: c.clove.filter (fun y => !(y.ctx = x.ctx ∧ y.tid = x.tid ∧ y.row = x.row ∧ y.blk = x.blk))).take cloveCap }
/-- Bytes of a block scale. -/
def scaleBytes (fmt : Word) : Nat := if Narrow.scf fmt = 0 then 1 else 2
/-- The blocks that a run of elements touches. -/
def blocksOf (fmt : Word) (k n : Nat) : List Nat :=
  if n = 0 then [] else (List.range ((k + n - 1) / Narrow.blk fmt - k / Narrow.blk fmt + 1)).map (fun i => k / Narrow.blk fmt + i)
def scaleVa (sbase sstride : Nat) (fmt : Word) (row blk : Nat) : Nat := va56 (sbase + row * sstride + blk * scaleBytes fmt)
/-- What a scale is asked for as: its tensor, its row and its block. -/
def scaleAcc (tid row blk : Nat) : LaneAcc := ⟨1000, [], cleanBytes (leBytes 4 tid), some (BitVec.ofNat 64 (row * 2 ^ 32 + blk)), false⟩
/-- The scales that have come. -/
def scalesGot (ctx : Nat) (accs : List LaneAcc) : List Clove :=
  (accs.filter (fun a => a.lane = 1000)).map (fun a =>
    ⟨ctx, bytesNat a.data, (a.old.getD 0).toNat / 2 ^ 32, (a.old.getD 0).toNat % 2 ^ 32, BitVec.ofNat 32 (bytesNat a.bytesGot), a.bytesGot.any MByte.pois⟩)

/-! ### The transfer (R213) -/

/-- A copy with its shape record read. -/
structure CopyJob where
  k : WaveKey
  o : Op
  c : CopyOp
  b : List Byte

def CopyJob.nbits (j : CopyJob) : Nat := elemBits (Shape.typ j.b) (Narrow.width (Shape.fmt j.b))
def CopyJob.klen (j : CopyJob) : Nat := if Shape.kind j.b = 2 then (if Shape.typ j.b = 0 then 8 else 16) else 8 * Shape.kcount j.b
def CopyJob.nrows (j : CopyJob) : Nat := tileRows (Shape.kind j.b) (Shape.typ j.b)
def CopyJob.span (j : CopyJob) : Nat := tileSpanBytes j.c.header (Shape.kind j.b) (Shape.typ j.b) j.klen j.nbits
def CopyJob.rstride (j : CopyJob) : Nat := Machine.rstride j.klen j.nbits
def CopyJob.gath (j : CopyJob) : Bool := j.c.op = 0xB9#8
/-- The flattened rows of the tile's rows, each with the poison of its index (R213). -/
def CopyJob.rows (j : CopyJob) (t : Team) : List (Nat × Bool) :=
  (List.range j.nrows).map (fun i =>
    if j.gath then ((t.spWord (j.c.row0.toNat + 4 * i)).toNat, t.wordPois (j.c.row0.toNat + 4 * i)) else (j.c.row0.toNat + i, false))
def CopyJob.run (j : CopyJob) (r : Nat) : Option (Nat × Nat × Nat) := Shape.run j.b j.nbits j.c.k0.toNat j.klen r

/-- Steps 2 to 5 of R213: the cause of the first that fails; a reserved field of the header that TSTORE reads must be zero (R8, R209). -/
def CopyJob.refused (j : CopyJob) (t : Team) : Option Nat :=
  let typ := Shape.typ j.b
  let h := j.c.header
  let l := j.c.row0.toNat
  let hdr := cellTake t.sp h 32
  if j.c.op ≠ 0xBA#8 && t.spSize < h + j.span then some causeBounds
  else if j.c.k0.toNat % (if typ ≤ 1 then 8 else 16) ≠ 0 then some causeIllegalOperand
  else if j.gath && l % 4 ≠ 0 then some causeMisalign
  else if j.gath && t.spSize < l + 4 * j.nrows then some causeBounds
  else if j.c.op = 0xB8#8 && (TileHdr.reserved hdr || TileHdr.kind hdr ≠ Shape.kind j.b || TileHdr.typ hdr ≠ typ || (typ = 4 && TileHdr.fmt hdr ≠ Shape.fmt j.b)) then
    some causeIllegalOperand
  else none

/-- What a row of the tile is asked for as: which of the tile it is, its row of the tensor, the poison of its index. -/
def rowAcc (i : Nat) (r : Nat × Bool) : LaneAcc := ⟨i, [], [], some (BitVec.ofNat 64 r.1), r.2⟩
/-- One row of the tile as the tensor gives it: in-bounds elements, code 0 elsewhere, padding zero. -/
def CopyJob.row (j : CopyJob) (accs : List LaneAcc) (i : Nat) : List MByte :=
  let pad := fun (l : List MByte) => l ++ List.replicate (j.rstride - l.length) (⟨0, false⟩ : MByte)
  match accs.find? (fun a => a.lane = i) with
  | none => pad []
  | some a =>
    let odd := (j.run (a.old.getD 0).toNat).any (fun x => x.2.2 % 2 = 1)
    let mask := elemMask (Shape.typ j.b) (Shape.fmt j.b)
    pad (a.bytesGot.zipIdx.map (fun m =>
      let v := m.1.val &&& mask
      ⟨if j.nbits = 4 && odd && m.2 + 1 = a.bytes.length then v &&& 0x0F else v, m.1.pois || a.oldPois⟩))

/-- The scales that a loaded tile brings: of every K-block touched and every row in bounds. -/
def CopyJob.scaleTags (j : CopyJob) (t : Team) : List (Nat × Nat × Nat) :=
  let f := Shape.fmt j.b
  if Shape.typ j.b = 4 && Narrow.scl f then
    ((j.rows t).filter (fun r => r.1 < Shape.rows j.b)).flatMap (fun r =>
      (blocksOf f j.c.k0.toNat j.klen).map (fun b => (r.1, b, scaleVa (Shape.sbase j.b) (Shape.sstride j.b) f r.1 b)))
  else []

def CopyJob.hdr (j : CopyJob) : List Byte :=
  TileHdr.mk (Shape.fmt j.b) j.klen j.gath (Shape.kind j.b) (Shape.typ j.b) (Shape.tid j.b) j.c.k0 j.c.row0 (Shape.tscale j.b)
    (Shape.sstride j.b) (bytesDWord j.b 0x30)

/-- The tile lands in a team's scratchpad: header and data, the gap untouched; its scales enter the core's clove cache. -/
def State.landTile (s : State) (team header : Nat) (m : Moved) : State :=
  let core := (s.team team).core
  let s := s.modTeam team (fun t => (t.putBytes header (cleanBytes m.hdr)).putBytes m.start m.data)
  s.modCore core (fun c => m.scales.foldl CoreSt.putScale c)

/-- The copy goes on with its record read. -/
def CopyJob.kind (j : CopyJob) (accs : List LaneAcc) (m : Option Moved) : OpKind := .copy j.c (some j.b) accs m
/-- The bytes that a load's transfer is about: those of its rows, and its scales. -/
def CopyJob.asks (j : CopyJob) (t : Team) : List ((Nat × Nat) × LaneAcc) :=
  (j.rows t).zipIdx.filterMap (fun r => (j.run r.1.1).map (fun x => ((x.1, x.2.1), rowAcc r.2 r.1)))
    ++ (j.scaleTags t).map (fun x => ((x.2.2, scaleBytes (Shape.fmt j.b)), scaleAcc (Shape.tid j.b) x.1 x.2.1))

/-- A load's transfer ends with every byte there: the tile lands, or waits for the members of a TMCAST. -/
def State.loadTile (s : State) (j : CopyJob) (accs : List LaneAcc) : State :=
  let w := s.wave j.k
  let t := s.team w.team
  let m : Moved := ⟨j.span, dataStart j.c.header, j.hdr, (List.range j.nrows).flatMap (j.row accs), scalesGot w.ctx accs, 0, 0⟩
  if j.c.op = 0xBA#8 then s.modWave j.k (fun x => x.setOp { j.o with kind := j.kind [] (some m) })
  else match t.armedAt j.c.header j.span with
    | some _ => s.failOp j.k j.o causeBarClobber j.o.lanes j.c.header
    | none =>
      (s.landTile w.team j.c.header m).modWave j.k (fun x => x.setOp { j.o with kind := j.kind [] (some { m with data := [], scales := [] }) })

/-- The bytes that a store writes: tile bytes by virtual address, and those of which it writes only the low nibble. -/
def State.tileWrites (s : State) (j : CopyJob) : List (Nat × MByte × Bool) :=
  let t := s.team (s.wave j.k).team
  let mask := elemMask (Shape.typ j.b) (Shape.fmt j.b)
  (List.range j.nrows).flatMap (fun i => match j.run (j.c.row0.toNat + i) with
    | none => []
    | some (va, n, cnt) =>
      (t.spBytes (dataStart j.c.header + i * j.rstride) n).zipIdx.map (fun m =>
        (va56 (va + m.2), ⟨m.1.val &&& mask, m.1.pois⟩, decide (j.nbits = 4 ∧ cnt % 2 = 1 ∧ m.2 + 1 = n))))

/-- A byte as the wave's team would read it now: over its home, the dirty bytes of the context and the held bytes of the team (R234). -/
def State.heldOver (s : State) (k : WaveKey) (va pa : Nat) : MByte :=
  match s.l1Byte k.core (s.wave k).ctx (s.wave k).team va with
  | some b => if b.dirty then ⟨b.val, b.pois⟩ else s.homeByte pa
  | none => s.homeByte pa

/-- A store's transfer: line by line as .BYPASS stores, or held while a region is open (R213, R233). -/
def State.storeTile (s : State) (j : CopyJob) : State :=
  let w := s.wave j.k
  let bs := s.tileWrites j
  let core := j.k.core
  let open_ := s.regionOpen w.team
  let s := ((bs.map (fun b => lineAddr b.1)).dedup).foldl (fun (s : State) v =>
    let s := s.markRange w.ctx v 1 .write
    match s.translate w.ctx v .write with
    | .ok pa e _ =>
      let pline := lineAddr pa
      let mine := bs.filter (fun b => lineAddr b.1 = v)
      let low := (mine.filter (fun b => b.2.2)).map (fun b => pline + b.1 % 128)
      let writes := mine.map (fun b => (pline + b.1 % 128, b.2.1))
      if open_ then
        let s := s.hurry core pline
        s.l1Write core w.ctx v pline (some e) ((nibbleBytes low (fun a => s.heldOver j.k (v + a % 128) a) writes).map (fun b => (b.1 % 128, b.2))) w false
      else (s.writeBack core w.ctx v true).send (.port core) j.k j.o.id w.ctx v pline (.write writes low) [] false
    | _ => s) s
  s.modOp (j.k, j.o.id) (fun o => { o with kind := j.kind [] (some ⟨j.span, dataStart j.c.header, [], [], [], 0, 0⟩) })

/-- A copy with its record read (R213), a TSTORE's tile over an armed object failing before any write (R216): a cause found in the scratchpad
gives h (R217). A load asks for its bytes. (Log 40: DEDUCED.) -/
def State.copyWithRecord (s : State) (j : CopyJob) : State :=
  let w := s.wave j.k
  let t := s.team w.team
  match j.refused t with
  | some c => s.failOp j.k j.o c j.o.lanes j.c.header
  | none =>
    if j.c.op = 0xB8#8 then
      if (t.armedAt j.c.header j.span).isSome then s.failOp j.k j.o causeBarClobber j.o.lanes j.c.header
      else s.reachFor j.k j.o ((j.rows t).filterMap (fun r => (j.run r.1).map (fun x => (x.1, x.2.1)))) .write (fun s => s.storeTile j)
    else
      let asks := j.asks t
      s.reachFor j.k j.o (asks.map Prod.fst) .read (fun s =>
        if asks.isEmpty then s.loadTile j [] else s.engineAsk (.port j.k.core) j.k j.o.id true asks (fun accs => j.kind accs none))

/-- The shape record has come (R213 step 1). -/
def State.takeRecord (s : State) (k : WaveKey) (o : Op) (c : CopyOp) (bs : List MByte) : State :=
  if bs.any MByte.pois then s.failOp k o causePoison o.lanes c.record
  else
    let b := bs.map MByte.val
    if !Shape.valid b then s.failOp k o causeIllegalOperand o.lanes c.record
    else s.modWave k (fun x => x.setOp { o with kind := .copy c (some b) [] none })

/-- COPY_TRANSFER (R213, R217): the record is asked for and read through the L1 and checked, then the tile is; each part once its requests have been
answered, the command failing where one has. (Log 40: DEDUCED.) -/
def execCopyTransfer (w : WaveKey) (op : Nat) (s : State) : Res :=
  match (s.wave w).op op with
  | none => .next s
  | some o =>
    match o.kind with
    | .copy c rec_ accs none =>
      if o.done || !s.replied w op then .next s
      else match o.fail, rec_ with
        | some f, _ => .next (s.modWave w (fun x => x.finish op (some f)))
        | none, some b => .next (if accs.isEmpty then s.copyWithRecord ⟨w, o, c, b⟩ else s.loadTile ⟨w, o, c, b⟩ accs)
        | none, none => .next (match accs with
          | a :: _ => s.takeRecord w o c a.bytesGot
          | [] => s.reachFor w o [(c.record, 64)] .read (fun s =>
            s.engineAsk (.port w.core) w op false [((c.record, 64), rowAcc 0 (0, false))] (fun accs => .copy c none accs none)))
    | _ => .next s

/-! ### Arrival and members (R215, R216) -/

/-- The arrival at a team's barrier object; an object disarmed since receives none. -/
def State.copyArrive (s : State) (team : Nat) (barrier : Word) (n : Nat) : State :=
  if barrier = 0xFFFFFFFF || !(s.team team).kind2At barrier.toNat then s else s.arriveBarrier team barrier.toNat n none

/-- The members named and not yet done. -/
def Moved.left (m : Moved) (c : CopyOp) : BitVec 4 := c.members &&& ~~~m.finished

/-- COPY_ARRIVAL (R216): the arrival, and the copy is counted off; a TMCAST once every member is done, with MCAST_PARTIAL for failed ones. -/
def execCopyArrival (w : WaveKey) (op : Nat) (s : State) : Res :=
  match (s.wave w).op op with
  | none => .next s
  | some o =>
    match o.kind with
    | .copy c _ _ (some m) =>
      if o.done || m.left c ≠ 0 || !s.replied w op then .next s
      else if o.fail.isSome then .next (s.modWave w (fun x => x.finish op o.fail))
      else if m.failed ≠ 0 then .next (s.failOp w o causeMcastPartial (m.failed.setWidth 32) c.header)
      else
        let s := if c.op = 0xBA#8 then s else s.copyArrive (s.wave w).team c.barrier m.span
        .next (s.modWave w (fun x => x.finish op none))
    | _ => .next s

/-- A member of the crew cannot take the tile (R215). -/
def State.memberFails (s : State) (t : Option Nat) (c : CopyOp) (m : Moved) : Bool :=
  match t with
  | none => true
  | some i =>
    let x := s.team i
    let bar := c.barrier.toNat
    !x.resident || x.spSize < c.header + m.span || (x.armedAt c.header m.span).isSome
      || (c.barrier ≠ 0xFFFFFFFF && (x.spSize < bar + 16 || !x.kind2At bar))

/-- TMCAST_MEMBER_DELIVERY (R215): one member is written, with its arrival, or fails. -/
def execTmcastMemberDelivery (w : WaveKey) (op member : Nat) (linkDead : Bool) (s : State) : Res :=
  let x := s.wave w
  match x.op op with
  | none => .next s
  | some o =>
    match o.kind with
    | .copy c rec_ accs (some m) =>
      if o.done || !(m.left c).getLsbD member then .next s
      else
        let bit := 1#4 <<< member
        let t := s.memberTeam (s.team x.team).crew member
        let fails := linkDead || s.memberFails t c m
        let m' : Moved := { m with finished := m.finished ||| bit, failed := if fails then m.failed ||| bit else m.failed }
        let s := s.modWave w (fun y => y.setOp { o with kind := .copy c rec_ accs (some m') })
        .next (match fails, t with
          | false, some i => (s.landTile i c.header m).copyArrive i c.barrier m.span
          | _, _ => s)
    | _ => .next s

end Sys2Proof.Machine
end

