-- ==== Sys2Proof/Machine/Matrix.lean ====
section
/-! DEFINITION. The matrix array (spec/10_tiles_and_matrices.md R220 to R226, spec/02_numbers.md R50 to R55) and ACCST (R227 to R229). -/

namespace Sys2Proof.Machine

open Fp

/-! ### Shapes (R220) -/

/-- One instruction of the family: type, columns, K per step of B and of A, group, narrow widths. -/
structure MmaSpec where
  typ : Nat
  n : Nat
  kt : Nat
  ktA : Nat
  grp : Nat
  lo : Nat
  hi : Nat

def mmaSpec (op : BitVec 8) : MmaSpec := match op.toNat with
  | 0x74 => ⟨0, 8, 8, 8, 1, 0, 0⟩
  | 0x75 => ⟨1, 16, 8, 8, 4, 0, 0⟩
  | 0x76 => ⟨2, 16, 32, 32, 16, 0, 0⟩
  | 0x77 => ⟨3, 16, 32, 32, 16, 0, 0⟩
  | 0x78 => ⟨4, 16, 64, 64, 16, 5, 8⟩
  | 0x79 => ⟨4, 16, 128, 128, 16, 2, 4⟩
  | _ => ⟨4, 16, 128, 64, 16, 5, 8⟩

def MmaSpec.bits (m : MmaSpec) : Nat := elemBits m.typ m.hi
/-- Groups of one element, or steps of an MMAD chain (R225). -/
def MmaSpec.groups (m : MmaSpec) : Nat := m.kt / m.grp
def MmaSpec.sparse (m : MmaSpec) : Bool := m.kt ≠ m.ktA

/-- MSTRIDE (R226). -/
def metaStride (klen : Nat) : Nat := ((klen + 3) / 4 + 31) / 32 * 32

/-! ### Issue (R221, R222) -/

def Team.header (x : Team) (h : Nat) : List Byte := cellTake x.sp h 32
def Team.headerPois (x : Team) (h : Nat) : Bool := (List.range 8).any (fun i => x.wordPois (h + 4 * i))

/-- The bounds check of one operand: its header and the data of its step. -/
def MmaSpec.outside (m : MmaSpec) (x : Team) (h j kind kt : Nat) : Bool :=
  x.spSize < h + 32
    || x.spSize < dataStart h + (tileRows kind m.typ - 1) * rstride (TileHdr.klen (x.header h)) m.bits + ((j + 1) * kt * m.bits + 7) / 8
/-- Check 5 on one operand's header. -/
def MmaSpec.badHeader (m : MmaSpec) (b : List Byte) (kind : Nat) : Bool :=
  let f := TileHdr.fmt b
  TileHdr.kind b ≠ kind || TileHdr.typ b ≠ m.typ || TileHdr.reserved b || (kind = 1 && TileHdr.gath b)
    || (if m.typ = 4 then !Narrow.valid f || Narrow.width f < m.lo || m.hi < Narrow.width f else f ≠ 0)

/-- The checks of R222 in its order. A check on a header gives the header's address; one on a poisoned s[SA], s[SB] or s[FN], for which the rule
names no header, gives 0, and one on the metadata address gives that address. (Log 71: DESIGN CHOICE.) -/
def State.mmaChecks (s : State) (f : VT) (m : MmaSpec) : List (Option TrapReq) :=
  let w := s.cur
  let t := s.curTeam
  let path := s.sel.mask
  let va := w.sreg f.sa 0
  let vb := w.sreg f.sb 0
  let hA := va.toNat % 2 ^ 19
  let hB := vb.toNat % 2 ^ 19
  let jA := va.toNat / 2 ^ 20
  let jB := vb.toNat / 2 ^ 20
  let md := (w.sreg f.fn 0).toNat
  let a := BitVec.ofNat 64 hA
  let b := BitVec.ofNat 64 hB
  let d := BitVec.ofNat 64 md
  let bA := t.header hA
  let bB := t.header hB
  [ s.check (va.getLsbD 19) causeIllegalOperand path a,
    s.check (vb.getLsbD 19) causeIllegalOperand path b,
    s.check (w.sregPois f.sa || w.sregPois f.sb || (m.sparse && w.sregPois f.fn)) causePoison path 0,
    s.check (hA + 32 ≤ t.spSize && t.headerPois hA) causePoison path a,
    s.check (hB + 32 ≤ t.spSize && t.headerPois hB) causePoison path b,
    s.check (hA % 32 ≠ 0) causeMisalign path a,
    s.check (hB % 32 ≠ 0) causeMisalign path b,
    s.check (m.sparse && md % 256 ≠ 0) causeMisalign path d,
    s.check (m.outside t hA jA 0 m.ktA) causeBounds path a,
    s.check (m.outside t hB jB 1 m.kt) causeBounds path b,
    s.check (m.sparse && t.spSize < md + 31 * metaStride (TileHdr.klen bA) + 16 * jA + 16) causeBounds path d,
    s.check (m.badHeader bA 0) causeIllegalOperand path a,
    s.check (m.badHeader bB 1) causeIllegalOperand path b,
    s.check (TileHdr.klen bA < (jA + 1) * m.ktA) causeBounds path a,
    s.check (TileHdr.klen bB < (jB + 1) * m.kt) causeBounds path b ]

/-- A tile operation at issue (R222, R223): its headers are read, its accumulator names allocated; an injected residue error finds its
element by column, then group, in the row that ERRINJ names then (R147, R225). -/
def State.mma (s : State) (f : VT) (op : BitVec 8) : Res :=
  let m := mmaSpec op
  let names := vnames f.d 16
  match s.laneBegin [] 7#3 false names [] with
  | .stop s => .next s
  | .go s e =>
    match firstTrap (s.mmaChecks f m) with
    | some t => .next (s.trap s.sel.key t)
    | none =>
      let (s, aborted) := s.readParity names e
      if aborted then .next s
      else
        let w := s.cur
        let t := s.curTeam
        let va := (w.sreg f.sa 0).toNat
        let vb := (w.sreg f.sb 0).toNat
        let (w', hit) := if e.getLsbD w.injLane.val then w.inject 2 (m.n * m.groups) else (w, none)
        let pool := s.pool s.sel.key.core
        let s := s.setWave s.sel.key (names.foldl (fun x n => x.allocV pool n) w')
        .next (s.issueOp .tl (.tile ⟨op, f.d.toNat, t.header (va % 2 ^ 19), t.header (vb % 2 ^ 19), va % 2 ^ 19, vb % 2 ^ 19,
          va / 2 ^ 20, vb / 2 ^ 20, (w.sreg f.fn 0).toNat, hit.map (fun i => (i / m.groups, w.injLane.val))⟩ false [])).advance

/-- MMAD (R220). -/
def execMmad (f : VT) (s : State) : Res := s.mma f 0x74#8
/-- MMAS (R220). -/
def execMmas (f : VT) (s : State) : Res := s.mma f 0x75#8
/-- MMAH (R220). -/
def execMmah (f : VT) (s : State) : Res := s.mma f 0x76#8
/-- MMAB (R220). -/
def execMmab (f : VT) (s : State) : Res := s.mma f 0x77#8
/-- MMAN (R220). -/
def execMman (f : VT) (s : State) : Res := s.mma f 0x78#8
/-- MMAQ (R220). -/
def execMmaq (f : VT) (s : State) : Res := s.mma f 0x79#8
/-- MMASP (R220). -/
def execMmasp (f : VT) (s : State) : Res := s.mma f 0x7A#8

/-! ### Elements -/

/-- Element k of a row at a scratchpad address: its code and poison (R49). -/
def Team.elem (x : Team) (a bits k : Nat) : Nat × Bool :=
  if bits = 4 then
    let b := (cellGet x.sp (a + k / 2)).toNat
    (if k % 2 = 0 then b % 16 else b / 16, x.wordPois (a + k / 2))
  else
    let n := bits / 8
    (leNat (cellTake x.sp (a + k * n) n), x.wordPois (a + k * n) || x.wordPois (a + k * n + n - 1))

/-- The value of a code of a tile type. -/
def elemVal (typ : Nat) (fmt : Word) (c : Nat) : Val := match typ with
  | 0 => Fp.decode f64 false c
  | 1 => Fp.decode f32 false c
  | 2 => Fp.decode f16 false c
  | 3 => Fp.decode bf16 false c
  | _ => Narrow.decode fmt c
/-- The value of a block scale (R51). -/
def scaleVal (fmt : Word) (c : Nat) : Val := match Narrow.scf fmt with
  | 0 => Narrow.decode Narrow.e5m3 c
  | 1 => Fp.decode f16 false c
  | _ => Fp.decode bf16 false c

/-- One tile of an operation. -/
structure Side where
  hdr : List Byte
  addr : Nat
  step : Nat
  kt : Nat

def TileOp.a (t : TileOp) : Side := ⟨t.hdrA, t.addrA, t.stepA, (mmaSpec t.op).ktA⟩
def TileOp.b (t : TileOp) : Side := ⟨t.hdrB, t.addrB, t.stepB, (mmaSpec t.op).kt⟩
/-- The elements of the step in row or column i. -/
def Side.elems (d : Side) (m : MmaSpec) (x : Team) (i : Nat) : List (Nat × Bool) :=
  let a := dataStart d.addr + i * rstride (TileHdr.klen d.hdr) m.bits
  (List.range d.kt).map (fun k => x.elem a m.bits (d.step * d.kt + k))
/-- The flattened row of row or column i, with the poison of its list entry (R223). -/
def Side.row (d : Side) (x : Team) (i : Nat) : Nat × Bool :=
  if TileHdr.gath d.hdr then ((x.spWord (TileHdr.row0 d.hdr + 4 * i)).toNat, x.wordPois (TileHdr.row0 d.hdr + 4 * i))
  else (TileHdr.row0 d.hdr + i, false)
/-- The block-scale fields say that the tile has scales. -/
def Side.scaled (d : Side) : Bool := TileHdr.typ d.hdr = 4 && Narrow.scl (TileHdr.fmt d.hdr)
/-- The block of element k of the step: a sparse A counts its logical groups (R226). -/
def Side.blk (d : Side) (sparse : Bool) (k : Nat) : Nat :=
  (TileHdr.k0 d.hdr + d.step * d.kt + k) * (if sparse then 2 else 1) / Narrow.blk (TileHdr.fmt d.hdr)
/-- The scales that a side needs for some rows: row, block, address (R219). -/
def Side.needs (d : Side) (sparse : Bool) (rows : List Nat) : List (Nat × Nat × Nat) :=
  if d.scaled then
    let lo := d.blk sparse 0
    let hi := d.blk sparse (d.kt - 1)
    rows.flatMap (fun r => (List.range (hi - lo + 1)).map (fun i =>
      (r, lo + i, scaleVa (TileHdr.sbase d.hdr) (TileHdr.sstride d.hdr) (TileHdr.fmt d.hdr) r (lo + i))))
  else []

/-- The scales an operation needs that the clove cache lacks: tensor, format, row, block, address. -/
def State.missingScales (s : State) (k : WaveKey) (o : Op) (t : TileOp) : List (Nat × Word × Nat × Nat × Nat) :=
  let m := mmaSpec t.op
  let w := s.wave k
  let x := s.team w.team
  let c := s.core k.core
  let of := fun (d : Side) (l : List (Nat × Nat × Nat)) =>
    (l.filter (fun y => (c.scale w.ctx (TileHdr.tid d.hdr) y.1 y.2.1).isNone)).map (fun y => (TileHdr.tid d.hdr, TileHdr.fmt d.hdr, y))
  of t.a (t.a.needs m.sparse ((maskLanes o.lanes).map (fun i => (t.a.row x i.val).1)))
    ++ of t.b (t.b.needs false ((List.range m.n).map (fun n => (t.b.row x n).1)))

/-- A scale as an element finds it: its value and poison; 1 where the tile has none. -/
def State.scaleOf (s : State) (k : WaveKey) (d : Side) (x : Team) (sparse : Bool) (i e : Nat) : Val × Bool :=
  if d.scaled then
    let r := d.row x i
    match (s.core k.core).scale (s.wave k).ctx (TileHdr.tid d.hdr) r.1 (d.blk sparse e) with
    | some c => (scaleVal (TileHdr.fmt d.hdr) c.val.toNat, c.pois || r.2)
    | none => (.num false 1 0 false, false)
  else (.num false 1 0 false, false)

/-! ### Sparse expansion (R226) -/

/-- The metadata nibble of logical group g of row i: its address, i0, i1, poison. -/
def TileOp.nibble (t : TileOp) (x : Team) (i g : Nat) : Nat × Nat × Nat × Bool :=
  let gg := 32 * t.stepA + g
  let a := t.metaAddr + i * metaStride (TileHdr.klen t.hdrA) + gg / 2
  let b := (cellGet x.sp a).toNat
  let n := if gg % 2 = 0 then b % 16 else b / 16
  (a, n % 4, n / 4, x.wordPois a)

/-- The address of the first invalid nibble among the rows of the path. -/
def TileOp.badNibble (t : TileOp) (x : Team) (lanes : LaneMask) : Option Nat :=
  if (mmaSpec t.op).sparse then
    (maskLanes lanes).findSome? (fun i => (List.range 32).findSome? (fun g =>
      let n := t.nibble x i.val g
      if n.2.1 < n.2.2.1 then none else some n.1))
  else none

/-- The terms of A in row i: logical position in the step, stored element. -/
def TileOp.terms (t : TileOp) (x : Team) (i : Nat) : List (Nat × Nat) :=
  let m := mmaSpec t.op
  if m.sparse then
    (List.range 32).flatMap (fun g =>
      let n := t.nibble x i g
      [(4 * g + n.2.1, 2 * g), (4 * g + n.2.2.1, 2 * g + 1)])
  else (List.range m.kt).map (fun k => (k, k))
def TileOp.metaPois (t : TileOp) (x : Team) (i : Nat) : Bool :=
  (mmaSpec t.op).sparse && (List.range 32).any (fun g => (t.nibble x i g).2.2.2)

/-! ### The sums (R54, R55) -/

/-- The exact sum of products. -/
def exactSum : List (Val × Val) → Option Val
  | [] => none
  | p :: l => match exactSum l with
    | none => some (mulVal p.1 p.2).1
    | some v => some (addVal (mulVal p.1 p.2).1 v).1

/-- One K-group in a format: acc + round(sum × f). -/
def groupStep (y : Fmt) (acc : Nat) (ps : List (Val × Val)) (f : Val) : Nat :=
  match exactSum ps with
  | none => acc
  | some v => (Fp.add y false acc (deliver y 0 false (mulVal v f).1).1).1

/-- One accumulator element of MMAS to MMASP: its new word and its poison from the inputs. -/
def State.mmaElem (s : State) (k : WaveKey) (t : TileOp) (x : Team) (i n : Nat) (av bv : List Val) (acc : Nat) : Nat × Bool :=
  let m := mmaSpec t.op
  let ts := (mulVal (Fp.decode f32 false (TileHdr.tscale t.hdrA).toNat) (Fp.decode f32 false (TileHdr.tscale t.hdrB).toNat)).1
  let terms := t.terms x i
  (List.range m.groups).foldl (fun (r : Nat × Bool) g =>
    let mine := terms.filter (fun p => p.1 / m.grp = g)
    let sa := s.scaleOf k t.a x m.sparse i ((mine.head?.map Prod.snd).getD 0)
    let sb := s.scaleOf k t.b x false n (g * m.grp)
    let f := (mulVal ts (mulVal sa.1 sb.1).1).1
    let ps := mine.map (fun p => ((av[p.2]?).getD (.num false 0 0 false), (bv[p.1]?).getD (.num false 0 0 false)))
    (groupStep f32 r.1 ps f, r.2 || sa.2 || sb.2)) (acc, false)

/-- One accumulator element of MMAD. -/
def mmadElem (a b : List Nat) (acc : Nat) : Nat := (a.zip b).foldl (fun c p => (Fp.fma f64 false p.1 p.2 c).1) acc

/-- A wave with every row it has, those of a swapped wave from the swap granule or the swap area (R169). -/
def State.rowsView (s : State) (k : WaveKey) : Wave :=
  let w := s.wave k
  { w with rows := w.rows ++ s.swappedRows k }

/-- The results of one row: for each column its value and poison. -/
def State.mmaRow (s : State) (k : WaveKey) (t : TileOp) (i : Fin 32) (cols : List (List (Nat × Bool))) : List (Nat × Bool) :=
  let m := mmaSpec t.op
  let w := s.rowsView k
  let x := s.team w.team
  let a := t.a.elems m x i.val
  let rowPois := a.any Prod.snd || t.metaPois x i.val
  let hit := fun (n : Nat) => t.hit = some (n, i.val)
  let fa := TileHdr.fmt t.hdrA
  let fb := TileHdr.fmt t.hdrB
  let av := a.map (fun e => elemVal m.typ fa e.1)
  cols.zipIdx.map (fun c =>
    let n := c.2
    let colPois := c.1.any Prod.snd
    if m.typ = 0 then
      let acc := (pairOf (w.vword (t.acc + 2 * n) i) (w.vword (t.acc + 2 * n + 1) i)).toNat
      let p := (w.vpois (t.acc + 2 * n)).getLsbD i.val || (w.vpois (t.acc + 2 * n + 1)).getLsbD i.val
      (mmadElem (a.map Prod.fst) (c.1.map Prod.fst) acc, p || rowPois || colPois || hit n)
    else
      let r := s.mmaElem k t x i.val n av (c.1.map (fun e => elemVal m.typ fb e.1)) (w.vword (t.acc + n) i).toNat
      (r.1, r.2 || (w.vpois (t.acc + n)).getLsbD i.val || rowPois || colPois || hit n))

/-- The accumulator words written: register j of the sixteen, per lane. -/
def accWord (typ : Nat) (row : List (Nat × Bool)) (j : Nat) : Word × Bool :=
  if typ = 0 then
    let e := (row[j / 2]?).getD (0, false)
    (BitVec.ofNat 32 (if j % 2 = 0 then e.1 else e.1 / 2 ^ 32), e.2)
  else
    let e := (row[j]?).getD (0, false)
    (BitVec.ofNat 32 e.1, e.2)

/-- The results of an operation go to its lanes that are still live. -/
def State.mmaWrite (s : State) (k : WaveKey) (o : Op) (t : TileOp) : State :=
  let m := mmaSpec t.op
  let x := s.team (s.wave k).team
  let cols := (List.range m.n).map (fun n => t.b.elems m x n)
  let rows : List (Nat × List (Nat × Bool)) := (maskLanes o.lanes).map (fun i => (i.val, s.mmaRow k t i cols))
  let live := o.lanes &&& (s.wave k).live
  (List.range 16).foldl (fun (s : State) j =>
    s.lateV k (t.acc + j) live (fun i => (accWord m.typ ((assocGet rows i.val).getD []) j).1)
      (maskOf (fun i => (accWord m.typ ((assocGet rows i.val).getD []) j).2))) s

/-! ### ACCST (R227 to R229) -/

/-- The parts of a command word. -/
def accFp64 (c : Word) : Bool := c.getLsbD 6
def accOtype (c : Word) : Nat := (c.extractLsb' 4 2).toNat
def accOsc (c : Word) : Bool := c.getLsbD 2
def accAct (c : Word) : Bool := c.getLsbD 1
def accBias (c : Word) : Bool := c.getLsbD 0
/-- The type of the C tile. -/
def accType (c : Word) : Nat := if accFp64 c then 0 else match accOtype c with
  | 0 => 1
  | 1 => 3
  | 2 => 2
  | _ => 4

def isFinite32 (x : Word) : Bool := x.extractLsb' 23 8 ≠ 0xFF#8

/-- The checks of R228 in its order; TADDR of the first three rows is 0. (Log 71: DESIGN CHOICE.) -/
def State.accstChecks (s : State) (f : VT) : List (Option TrapReq) :=
  let w := s.cur
  let t := s.curTeam
  let path := s.sel.mask
  let sa := w.sreg f.sa 0
  let cmd := w.sreg f.sb 0
  let da := (w.sreg (f.sb + 1) 0).toNat
  let din := da % 32 = 0 && da + 32 ≤ t.spSize
  let b := if din then cellTake t.sp da 32 else []
  let h := sa.toNat % 2 ^ 19
  let narrow := !accFp64 cmd && accOtype cmd = 3
  let typ := accType cmd
  let n := if accFp64 cmd then 8 else 16
  let fmt := bytesWord b 0x14
  let span := tileSpanBytes h 2 typ n (elemBits typ (Narrow.width fmt))
  let biasA := (bytesWord b 0).toNat
  let tabA := (bytesWord b 4).toNat
  let lo := bytesWord b 8
  let hi := bytesWord b 12
  let at_ := BitVec.ofNat 64 h
  [ s.check (sa.extractLsb' 19 13 ≠ 0 || cmd.extractLsb' 7 25 ≠ 0 || cmd.getLsbD 3
      || (accFp64 cmd && (accAct cmd || accOsc cmd || accOtype cmd ≠ 0))
      || (din && (bytesWord b 0x18 ≠ 0 || bytesWord b 0x1C ≠ 0))) causeIllegalOperand path 0,
    s.check (din && ((accAct cmd && (!isFinite32 lo || !isFinite32 hi || (fcompare f32 false 5 lo.toNat hi.toNat).1))
      || (narrow && (!Narrow.valid fmt || Narrow.scl fmt)))) causeIllegalOperand path 0,
    s.check (w.sregPois f.sa || w.spairPois f.sb) causePoison path 0,
    s.check (h % 32 ≠ 0) causeMisalign path at_,
    s.check (da % 32 ≠ 0) causeMisalign path (BitVec.ofNat 64 da),
    s.check (accBias cmd && biasA % 16 ≠ 0) causeMisalign path (BitVec.ofNat 64 biasA),
    s.check (accAct cmd && tabA % 16 ≠ 0) causeMisalign path (BitVec.ofNat 64 tabA),
    s.check (!din) causeBounds path (BitVec.ofNat 64 da),
    s.check (t.spSize < h + span) causeBounds path at_,
    s.check (accBias cmd && t.spSize < biasA + 64) causeBounds path (BitVec.ofNat 64 biasA),
    s.check (accAct cmd && t.spSize < tabA + 256) causeBounds path (BitVec.ofNat 64 tabA),
    s.check (t.armedAt h span).isSome causeBarClobber path (BitVec.ofNat 64 ((t.armedAt h span).getD 0)) ]

/-- floor(64 (x − lo) / (hi − lo)) clamped to 0 to 63, exact. -/
def segment (x lo hi : Val) : Nat :=
  match x, lo, hi with
  | .inf n, _, _ => if n then 0 else 63
  | .num nx mx ex _, .num nl ml el _, .num nh mh eh _ =>
    let e := min ex (min el eh)
    let at_ := fun (n : Bool) (m : Nat) (k : Int) => signedInt n (m * 2 ^ (k - e).toNat)
    let q := 64 * (at_ nx mx ex - at_ nl ml el) / (at_ nh mh eh - at_ nl ml el)
    (max 0 (min 63 q)).toNat
  | _, _, _ => 0

/-- act(x) of R229: slope × x + intercept with one rounding; the segment it used. -/
def actOf (x lo hi : Word) (table : Nat → Word) : Nat × Nat :=
  let v := Fp.decode f32 false x.toNat
  if v.isNan then (f32.nanCode, 0)
  else
    let sg := segment v (Fp.decode f32 false lo.toNat) (Fp.decode f32 false hi.toNat)
    let tw := table sg
    let sl := Fp.decode f16 false (tw.toNat % 65536)
    let ic := Fp.decode f16 false (tw.toNat / 65536)
    ((deliver f32 0 false (fmaVal sl v ic).1).1, sg)

/-- Byte i of a list of bytes, clean zero beyond it. -/
def byteAt (l : List MByte) (i : Nat) : MByte := (l[i]?).getD ⟨0, false⟩
/-- The word at a place of a list of bytes, and whether some of its bytes are poisoned. -/
def wordIn (l : List MByte) (i : Nat) : Word × Bool :=
  let bs := (List.range 4).map (fun j => byteAt l (i + j))
  (BitVec.ofNat 32 (bytesNat bs), bs.any MByte.pois)

/-- One output of an FP32 accumulator word: bias, table, scale, conversion. Poison reaches it from the entries it used. -/
def AccLate.out (a : AccLate) (n : Nat) (x : Word) (pois : Bool) : Nat × Bool :=
  let b := a.desc
  let bias := wordIn a.bias (4 * n)
  let (y, p) := if accBias a.cmd then (BitVec.ofNat 32 (Fp.add f32 false x.toNat bias.1.toNat).1, pois || bias.2) else (x, pois)
  let (y, p) := if accAct a.cmd then
      let r := actOf y (bytesWord b 8) (bytesWord b 12) (fun i => (wordIn a.table (4 * i)).1)
      (BitVec.ofNat 32 r.1, p || (!(Fp.decode f32 false y.toNat).isNan && (wordIn a.table (4 * r.2)).2)) else (y, p)
  let y := if accOsc a.cmd then BitVec.ofNat 32 (Fp.mul f32 false y.toNat (bytesWord b 0x10).toNat).1 else y
  (match accOtype a.cmd with
    | 0 => y.toNat
    | 1 => (toFloat bf16 false 0 (Fp.decode f32 false y.toNat)).1
    | 2 => (toFloat f16 false 0 (Fp.decode f32 false y.toNat)).1
    | _ => (Narrow.encode (bytesWord b 0x14) (Fp.decode f32 false y.toNat)).1, p)

/-- Codes packed into the bytes of a row, the rest of its stride zero (R49, R210). -/
def packRow (bits stride : Nat) (l : List (Nat × Bool)) : List MByte :=
  let bs : List MByte :=
    if bits = 4 then (List.range ((l.length + 1) / 2)).map (fun i =>
      let a := (l[2 * i]?).getD (0, false)
      let b := (l[2 * i + 1]?).getD (0, false)
      ⟨BitVec.ofNat 8 (a.1 % 16 + b.1 % 16 * 16), a.2 || b.2⟩)
    else l.flatMap (fun e => (leBytes (bits / 8) e.1).map (fun v => ⟨v, e.2⟩))
  bs ++ List.replicate (stride - bs.length) ⟨0, false⟩

/-- The poison of the descriptor's fields in use reaches every output (R229). -/
def descPois (t : Team) (cmd : Word) (da : Nat) : Bool :=
  (accBias cmd && t.wordPois da) || (accAct cmd && (t.wordPois (da + 4) || t.wordPois (da + 8) || t.wordPois (da + 12)))
    || (accOsc cmd && t.wordPois (da + 16)) || (!accFp64 cmd && accOtype cmd = 3 && t.wordPois (da + 20))

/-- The outputs of one lane of a wave. -/
def AccLate.row (a : AccLate) (w : Wave) (i : Fin 32) : List (Nat × Bool) :=
  if accFp64 a.cmd then
    (List.range 8).map (fun n =>
      let lo := a.acc + 2 * n
      let x := (pairOf (w.vword lo i) (w.vword (lo + 1) i)).toNat
      let p := a.descPois || (w.vpois lo).getLsbD i.val || (w.vpois (lo + 1)).getLsbD i.val
      let y := wordIn a.bias (8 * n)
      let z := wordIn a.bias (8 * n + 4)
      if accBias a.cmd then ((Fp.add f64 false x (pairOf y.1 z.1).toNat).1, p || y.2 || z.2) else (x, p))
  else
    (List.range 16).map (fun n =>
      let r := a.out n (w.vword (a.acc + n) i) ((w.vpois (a.acc + n)).getLsbD i.val)
      (r.1, r.2 || a.descPois))

/-- The bytes of the C tile: the header, and the rows of the path's lanes from the accumulators of a wave (R229). -/
def AccLate.writes (a : AccLate) (w : Wave) (lanes : LaneMask) : List (Nat × List MByte) :=
  let typ := accType a.cmd
  let n := if accFp64 a.cmd then 8 else 16
  let fmt : Word := if typ = 4 then bytesWord a.desc 0x14 else 0
  let bits := elemBits typ (Narrow.width fmt)
  let stride := rstride n bits
  (a.header, cleanBytes (TileHdr.mk fmt n false 2 typ 0 0 0 0x3F800000 0 0))
    :: (maskLanes lanes).map (fun i => (dataStart a.header + i.val * stride, packRow bits stride (a.row w i)))

/-- An accumulator name of an ACCST belongs to an earlier operation of the wave that is still to be completed (R224, R229). -/
def Wave.accPending (w : Wave) (before acc : Nat) : Bool :=
  w.ops.any (fun o => o.id < before && !o.done && (match o.kind with
    | .tile t _ _ => t.acc < acc + 16 && acc < t.acc + 16
    | _ => false))

/-- The ACCSTs of a wave whose accumulators are now there take them (R229). -/
def State.settleAcc (s : State) (k : WaveKey) : State :=
  let w := s.rowsView k
  s.modWave k (fun x => { x with ops := x.ops.map (fun o => match o.kind with
    | .accst ⟨_, some a⟩ => if o.done || w.accPending o.id a.acc then o else { o with kind := .accst ⟨a.writes w o.lanes, none⟩ }
    | _ => o) })

/-- ACCST (R227, R228): its command, descriptor, bias and table are read at issue; it counts in TL, and its accumulators are read once the
earlier operations on their names are complete (R229). -/
def execAccst (f : VT) (s : State) : Res :=
  match s.laneBegin (vnames f.d 16) 7#3 false [] [] with
  | .stop s => .next s
  | .go s _ =>
    match firstTrap (s.accstChecks f) with
    | some t => .next (s.trap s.sel.key t)
    | none =>
      let w := s.cur
      let t := s.curTeam
      let cmd := w.sreg f.sb 0
      let da := (w.sreg (f.sb + 1) 0).toNat
      let h := (w.sreg f.sa 0).toNat % 2 ^ 19
      let b := cellTake t.sp da 32
      let late : AccLate := ⟨f.d.toNat, cmd, b, descPois t cmd da, t.spBytes (bytesWord b 0).toNat 64, t.spBytes (bytesWord b 4).toNat 256, h⟩
      .next ((s.issueOp .tl (.accst ⟨[], some late⟩)).settleAcc s.sel.key).advance

/-- ACCST_COMPLETE (R229): every byte of the C tile is written. -/
def execAccstComplete (w : WaveKey) (op : Nat) (s : State) : Res :=
  match (s.wave w).op op with
  | none => .next s
  | some o =>
    match o.kind with
    | .accst a =>
      if o.done || a.late.isSome then .next s
      else
        let s := s.modTeam (s.wave w).team (fun t => a.writes.foldl (fun t x => t.putBytes x.1 x.2) t)
        .next (s.modWave w (fun x => x.finish op none))
    | _ => .next s

/-! ### Events of the array (R219, R224, R225) -/

/-- The tile operation of a wave. -/
def Wave.tileOp (w : Wave) (id : Nat) : Option (Op × TileOp × Bool) :=
  (w.op id).bind (fun o => match o.kind with
    | .tile t st _ => if o.done then none else some (o, t, st)
    | _ => none)

def CoreSt.freeArray (c : CoreSt) (k : WaveKey) (id : Nat) : CoreSt := { c with array := c.array.filter (fun a => a ≠ (k, id)) }

/-- An operation that has ended leaves the array, and lets an ACCST of its accumulators go on (R229). -/
def State.tileEnds (s : State) (k : WaveKey) (op : Nat) : State :=
  if s.hasWave k && ((s.wave k).tileOp op).isNone then (s.modCore k.core (fun c => c.freeArray k op)).settleAcc k else s

/-- CLOVE_MISS_READ (R219, R225): the scales that an operation lacks are asked for, and enter the clove cache when they have come; a failed read
fails the operation. -/
def execCloveMissRead (w : WaveKey) (op : Nat) (s : State) : Res :=
  match (s.wave w).tileOp op with
  | none => .next s
  | some (o, t, started) =>
    if !s.replied w op then .next s
    else if o.fail.isSome then .next ((s.modWave w (fun x => x.finish op o.fail)).tileEnds w op)
    else if !o.kind.accs.isEmpty then
      .next ((s.modCore w.core (fun c => (scalesGot (s.wave w).ctx o.kind.accs).foldl CoreSt.putScale c)).modWave w (fun x =>
        x.setOp { o with kind := .tile t started [] }))
    else
      let asks := (s.missingScales w o t).map (fun y => ((y.2.2.2.2, scaleBytes y.2.1), scaleAcc y.1 y.2.2.1 y.2.2.2.1))
      if asks.isEmpty then .next s
      else .next ((s.reachFor w o (asks.map Prod.fst) .read (fun s =>
        s.engineAsk (.core w.core) w op true asks (fun accs => .tile t started accs))).tileEnds w op)

/-- TILE_OP_START (R224): the array is free, the wave's earlier tile operations have started, and the scales are there. (Log 39: DEDUCED.) -/
def execTileOpStart (w : WaveKey) (op : Nat) (s : State) : Res :=
  match (s.wave w).tileOp op with
  | some (o, t, false) =>
    let earlier := (s.wave w).ops.any (fun p => p.id < op && !p.done && (match p.kind with
      | .tile _ st _ => !st
      | _ => false))
    if (s.core w.core).array.isEmpty && !earlier && (s.missingScales w o t).isEmpty then
      .next ((s.modWave w (fun x => x.setOp { o with kind := .tile t true o.kind.accs })).modCore w.core (fun c => { c with array := c.array ++ [(w, op)] }))
    else .next s
  | _ => .next s

/-- TILE_OP_COMPLETE (R224 to R226): an invalid nibble fails the operation; an injected residue error aborts an open region, and poisons
its element otherwise. (Log 39: DEDUCED.) -/
def execTileOpComplete (w : WaveKey) (op : Nat) (s : State) : Res :=
  match (s.wave w).tileOp op with
  | some (o, t, true) =>
    if !(s.missingScales w o t).isEmpty then .next s
    else
      let x := s.wave w
      let s := s.modCore w.core (fun c => c.freeArray w op)
      match t.badNibble (s.team x.team) o.lanes with
      | some a => .next ((s.failOp w o causeIllegalOperand o.lanes a).settleAcc w)
      | none =>
        let go := fun (s : State) => ((s.mmaWrite w o t).modWave w (fun y => y.finish op none)).settleAcc w
        match t.hit with
        | some h => .next (s.detected w 2 h.2 go)
        | none => .next (go s)
  | _ => .next s

end Sys2Proof.Machine
end

