-- ==== Sys2Proof/Machine/Stacks.lean ====
section
/-! DEFINITION. The memory stacks (spec/19_memory_stacks.md): errors, scrubbing and row retirement (R405 to R408), and near-memory
products (R409 to R413). -/

namespace Sys2Proof.Machine

open Fp

/-! ### Sectors, banks and rows (R404 to R407) -/

/-- The physical address of a stack address: the inverse of R404. -/
def State.paOfStack (s : State) (st a : Nat) : Nat :=
  let i := (64 - s.localGib) * gib
  if a < i then
    let g := a / 4096
    g * 65536 + ((st ^^^ (g % 16)) ^^^ (g / 16 % 16)) * 4096 + a % 4096
  else localBase st + (a - i)

/-- Bank and row of a stack address (R405). -/
def bankOf (a : Nat) : Nat := a / 2048 % 64
def rowOf (a : Nat) : Nat := a / 131072


/-- HBM_SCRUB (R406): a sector of a stack, 32 bytes at 32 × sector, is found with an error. A correctable one is corrected and counted;
an uncorrectable one is poisoned, counted and logged. -/
def execHbmScrub (stack sector : Nat) (correctable : Bool) (s : State) : Res :=
  let a := 32 * sector
  if stack < 16 && a < 64 * gib then
    let x := s.stack stack
    let x := { x with errs := x.errs ++ [(bankOf a, rowOf a, s.clock, !correctable)] }
    if correctable then .next (s.setStack stack { x with hbmce := satInc x.hbmce })
    else
      let pa := s.paOfStack stack a
      let s := s.setStack stack { x with hbmue := satInc x.hbmue }
      let s := { s with poisoned := insertSorted s.poisoned (pa / 32) }
      .next (s.logRec 0x0003 true (diePlace (stack / 2)) false 0 [10, 0, BitVec.ofNat 32 pa, BitVec.ofNat 32 (pa / 2 ^ 32), 0])
  else .next s

/-- One day in arithmetic clocks. -/
def dayClocks : Nat := 24 * hourClocks

/-- A row to retire: one uncorrectable error, or two corrected ones within 24 hours (R407). -/
def Stack.rowFaulty (x : Stack) (bank row : Nat) : Bool :=
  let l := x.errs.filter (fun e => e.1 = bank ∧ e.2.1 = row)
  let ce := (l.filter (fun e => !e.2.2.2)).map (fun e => e.2.2.1)
  l.any (fun e => e.2.2.2) || (ce.zip (ce.drop 1)).any (fun p => p.2 ≤ p.1 + dayClocks)

/-- Spares of a bank in use. -/
def Stack.used (x : Stack) (bank : Nat) : List Nat := (assocGet x.spares bank).getD []
/-- Banks with fewer than 4 spare rows left. -/
def Stack.lowBanks (x : Stack) : Nat := ((List.range 64).filter (fun b => 28 < (x.used b).length)).length

/-- BANK_ROW_RETIREMENT (R407): the row moves to a spare, no value and no poison changed; without a spare it stays, its frames to be
withdrawn once freed. -/
def execBankRowRetirement (stack bank row : Nat) (s : State) : Res :=
  let x := s.stack stack
  if stack < 16 && x.rowFaulty bank row then
    let loc : Word := BitVec.ofNat 32 (stack * 2 ^ 25 + bank * 2 ^ 19 + row)
    let x := { x with errs := x.errs.filter (fun e => !(e.1 = bank ∧ e.2.1 = row)) }
    if (x.used bank).length < 32 then
      let x := { x with spares := assocSet x.spares bank (x.used bank ++ [row]) }
      let x := { x with rowret := satInc x.rowret, sparelow := BitVec.ofNat 32 x.lowBanks }
      .next ((s.setStack stack x).logRec 0x0004 true (diePlace (stack / 2)) false 0 [4, loc])
    else
      let x := { x with withdrawn := if x.withdrawn.contains (bank, row) then x.withdrawn else x.withdrawn ++ [(bank, row)] }
      .next ((s.setStack stack x).logRec 0x0004 true (diePlace (stack / 2)) false 0 [5, loc])
  else .next s

/-! ### NMV (R409 to R413) -/

namespace NmvDesc
def wbase (b : List Byte) : Nat := bytesDWord b 0
def fmt (b : List Byte) : Word := bytesWord b 8
def m (b : List Byte) : Nat := (bytesWord b 0x0C).toNat
def k (b : List Byte) : Nat := (bytesWord b 0x10).toNat
def tscale (b : List Byte) : Word := bytesWord b 0x14
def soff (b : List Byte) : Nat := bytesDWord b 0x18
end NmvDesc

/-- W and y types of FN (R75). -/
def nmvW (fn : BitVec 6) : Nat := fn.toNat % 4
def nmvY64 (fn : BitVec 6) : Bool := fn.getLsbD 2
/-- Bits of an element of W. -/
def nmvBits (fn : BitVec 6) (b : List Byte) : Nat := match nmvW fn with
  | 0 => 64
  | 1 => 16
  | _ => elemBits 4 (Narrow.width (NmvDesc.fmt b))
def nmvXBytes (fn : BitVec 6) (b : List Byte) : Nat := NmvDesc.k b * (if nmvW fn = 0 then 8 else 4)
def nmvYBytes (fn : BitVec 6) (b : List Byte) : Nat := NmvDesc.m b * (if nmvY64 fn then 8 else 4)
def nmvScaled (fn : BitVec 6) (b : List Byte) : Bool := nmvW fn = 2 && Narrow.scl (NmvDesc.fmt b)

/-- Check 6 of R411. -/
def nmvIllegal (fn : BitVec 6) (b : List Byte) (desc x y : Nat) : Bool :=
  let f := NmvDesc.fmt b
  let yb := nmvYBytes fn b
  let meets := fun (p n : Nat) => p < y + yb && y < p + n
  2 ^ 56 ≤ NmvDesc.wbase b || NmvDesc.m b = 0 || 65536 < NmvDesc.m b || NmvDesc.k b = 0 || 2 ^ 24 < NmvDesc.k b
    || NmvDesc.wbase b % 131072 ≠ 0 || (if nmvW fn = 2 then !Narrow.valid f || 8 < Narrow.width f else f ≠ 0)
    || (nmvScaled fn b && NmvDesc.soff b % scaleBytes f ≠ 0) || meets x (nmvXBytes fn b) || meets desc 32

/-- NMV (R410, R411). -/
def execNmv (f : UC) (s : State) : Res :=
  let w := s.cur
  let t := s.curTeam
  let path := s.sel.mask
  let da := (w.sreg f.a 0).toNat
  let xa := (w.sreg f.b 0).toNat
  let ya := (w.sreg f.c 0).toNat
  let din := da + 32 ≤ t.spSize
  let b := cellTake t.sp da 32
  let at_ := fun (a : Nat) => BitVec.ofNat 64 a
  let armed := t.armedAt ya (nmvYBytes f.fn b)
  s.guarded
    [ s.check (w.sregPois f.a || w.sregPois f.b || w.sregPois f.c) causePoison path 0,
      s.check (da % 32 = 0 && din && t.headerPois da) causePoison path (at_ da),
      s.check (da % 32 ≠ 0) causeMisalign path (at_ da),
      s.check (xa % 8 ≠ 0) causeMisalign path (at_ xa),
      s.check (ya % 8 ≠ 0) causeMisalign path (at_ ya),
      s.check (!din) causeBounds path (at_ da),
      s.check (t.spSize < xa + nmvXBytes f.fn b) causeBounds path (at_ xa),
      s.check (t.spSize < ya + nmvYBytes f.fn b) causeBounds path (at_ ya),
      s.check (nmvIllegal f.fn b da xa ya) causeIllegalOperand path 0,
      s.check armed.isSome causeBarClobber path (at_ (armed.getD 0)) ]
    (s.issueOp .nm (.nmv b xa ya f.fn)).advance

/-- RB of R409. -/
def nmvRowBytes (fn : BitVec 6) (b : List Byte) : Nat := (NmvDesc.k b * nmvBits fn b + 16383) / 16384 * 2048
/-- The virtual address of the byte that holds element (i, k). -/
def nmvAddr (fn : BitVec 6) (b : List Byte) (i k : Nat) : Nat :=
  let eb := k * nmvBits fn b / 8
  va56 (NmvDesc.wbase b + i / 64 * 64 * nmvRowBytes fn b + eb / 2048 * 131072 + i % 64 * 2048 + eb % 2048)
/-- Scale blocks of a row. -/
def nmvBlocks (b : List Byte) : Nat := (NmvDesc.k b + Narrow.blk (NmvDesc.fmt b) - 1) / Narrow.blk (NmvDesc.fmt b)
def nmvScaleAddr (b : List Byte) (i blk : Nat) : Nat :=
  va56 (NmvDesc.wbase b + NmvDesc.soff b + (i * nmvBlocks b + blk) * scaleBytes (NmvDesc.fmt b))

def mib64 : Nat := 2 ^ 26
/-- The 64 MiB pages of a range. -/
def pages64 (a n : Nat) : List Nat :=
  if n = 0 then [] else (List.range ((a + n - 1) / mib64 - a / mib64 + 1)).map (fun i => va56 ((a / mib64 + i) * mib64))
/-- The pages that W and its scales touch. -/
def nmvPages (fn : BitVec 6) (b : List Byte) : List Nat :=
  pages64 (NmvDesc.wbase b) ((NmvDesc.m b + 63) / 64 * (nmvRowBytes fn b / 2048) * 131072)
    ++ (if nmvScaled fn b then pages64 (NmvDesc.wbase b + NmvDesc.soff b) (NmvDesc.m b * nmvBlocks b * scaleBytes (NmvDesc.fmt b)) else [])

/-- The stack of a page as R409 wants it: a 64 MiB leaf with HOME = 10; a discarded page has none to check (R364). -/
def State.nmvStack (s : State) (ctx va : Nat) : Option (Option Nat) :=
  match s.walk ctx va with
  | .leaf _ e l => if l = 1 && Pte.home e = 2 then (if Pte.state e = 1 then some none else some (some (s.stackOf (Pte.frame e)))) else none
  | _ => none

/-- The first page that breaks R409. (Log 45: DEDUCED.) -/
def State.nmvBadPage (s : State) (ctx : Nat) (pages : List Nat) : Option Nat :=
  let one := pages.findSome? (fun p => (s.nmvStack ctx p).join)
  pages.find? (fun p => match s.nmvStack ctx p with
    | none => true
    | some none => false
    | some (some st) => one ≠ some st)

/-- Element (i, k) of W: its code and poison. -/
def State.nmvElem (s : State) (ctx : Nat) (fn : BitVec 6) (b : List Byte) (i k : Nat) : Nat × Bool :=
  let n := nmvBits fn b
  let bs := s.vaBytes ctx (nmvAddr fn b i k) (if n = 4 then 1 else n / 8)
  let v := bytesNat bs
  (if n = 4 then (if k % 2 = 0 then v % 16 else v / 16) else v, bs.any MByte.pois)

/-- Element k of x: its pattern and poison. -/
def nmvX (t : Team) (x : Nat) (fp64 : Bool) (k : Nat) : Nat × Bool :=
  let n := if fp64 then 8 else 4
  let bs := t.spBytes (x + n * k) n
  (bytesNat bs, bs.any MByte.pois)

/-- One y element (R412) with its poison. -/
def State.nmvY (s : State) (ctx : Nat) (t : Team) (fn : BitVec 6) (b : List Byte) (x i : Nat) : Nat × Bool :=
  let n := NmvDesc.k b
  let wi := (List.range n).map (fun k => s.nmvElem ctx fn b i k)
  let xs := (List.range n).map (fun k => nmvX t x (nmvW fn = 0) k)
  let pois := wi.any Prod.snd || xs.any Prod.snd
  let y := if nmvY64 fn then f64 else f32
  if nmvW fn = 0 then
    let c := (wi.zip xs).foldl (fun c p => (Fp.fma f64 false p.1.1 p.2.1 c).1) 0
    (if nmvY64 fn then c else (toFloat f32 false 0 (Fp.decode f64 false c)).1, pois)
  else
    let f := NmvDesc.fmt b
    let val := fun (c : Nat) => if nmvW fn = 1 then Fp.decode bf16 false c else Narrow.decode f c
    (List.range ((n + 15) / 16)).foldl (fun (r : Nat × Bool) g =>
      let bs := if nmvScaled fn b then s.vaBytes ctx (nmvScaleAddr b i (16 * g / Narrow.blk f)) (scaleBytes f) else []
      let sc := if nmvScaled fn b then scaleVal f (bytesNat bs) else .num false 1 0 false
      let ps := ((wi.zip xs).drop (16 * g)).take 16
      (groupStep y r.1 (ps.map (fun p => (val p.1.1, Fp.decode f32 false p.2.1))) (mulVal (Fp.decode f32 false (NmvDesc.tscale b).toNat) sc).1,
        r.2 || bs.any MByte.pois)) (0, pois)

/-- NMV_COMPLETE (R411 to R413): pages checked and serviced, every y element written, counted off. (Log 45: DEDUCED.) -/
def execNmvComplete (w : WaveKey) (op : Nat) (s : State) : Res :=
  let x := s.wave w
  match x.op op with
  | none => .next s
  | some o =>
    match o.kind with
    | .nmv b xa ya fn =>
      if o.done then .next s
      else
        let pages := nmvPages fn b
        .next (s.reachFor w o (pages.map (fun p => (p, 1))) .read (fun s =>
          match s.nmvBadPage x.ctx pages with
          | some p => s.failOp w o causeIllegalOperand o.lanes p
          | none =>
            let t := s.team x.team
            let n := if nmvY64 fn then 8 else 4
            let out := (List.range (NmvDesc.m b)).flatMap (fun i =>
              let r := s.nmvY x.ctx t fn b xa i
              (leBytes n r.1).map (fun v => (⟨v, r.2⟩ : MByte)))
            let s := pages.foldl (fun (s : State) p => s.markRange x.ctx p 1 .read) s
            (s.modTeam x.team (fun t => t.putBytes ya out)).modWave w (fun y => y.finish op none)))
    | _ => .next s

end Sys2Proof.Machine
end

