-- ==== Sys2Proof/Machine/Dies.lean ====
section
/-! DEFINITION. The die network's deadlock recovery and the die-to-die links (spec/14_the_die.md R281 to R287). Which head waits for which output,
and since when, the packets that the model follows show; for the raster exchange, which it does not follow (log 73), the events tell. -/

namespace Sys2Proof.Machine

/-! ### Inputs and their transit slots -/

def NetInput.key (x : NetInput) : Nat × Nat × Nat := (x.router, x.port, x.cls)
def Die.input (d : Die) (k : Nat × Nat × Nat) : NetInput :=
  (d.inputs.find? (fun x => x.key = k)).getD ⟨k.1, k.2.1, k.2.2, none, none, false⟩
def Die.setInput (d : Die) (x : NetInput) : Die := { d with inputs := d.inputs.filter (fun y => y.key ≠ x.key) ++ [x] }
/-- An input of the package: its router's number tells its die. -/
def State.input (s : State) (k : Nat × Nat × Nat) : NetInput := (s.die (k.1 / 16)).input k
def State.setInput (s : State) (x : NetInput) : State := s.modDie (x.router / 16) (fun d => d.setInput x)
def Die.count (d : Die) (f : DieCounters → DieCounters) : Die := { d with counters := f d.counters }
/-- A probe is dropped at an input (R298). -/
def State.probeLost (s : State) (k : Nat × Nat × Nat) : State :=
  s.modDie (k.1 / 16) (fun d => d.count (fun c => { c with dlklost := satInc c.dlklost }))

/-- The inputs of R278 that recovery covers: those of the die-to-die links only while some link is dead (R287). -/
def State.covers (s : State) (k : Nat × Nat × Nat) : Bool :=
  k.1 < 128 && k.2.2 < 3 && (k.2.1 < 7 || (k.2.1 = 7 && s.linksBroken && [3, 12, 4, 11].contains (k.1 % 16)))
/-- The packet at the head of an input. -/
def State.headOf (s : State) (k : Nat × Nat × Nat) : Option Request :=
  s.net.find? (fun q => q.spot = .input k.1 k.2.1 && q.cls = k.2.2 && s.atHead q)
/-- The covered input that the head of an input waits to enter, if it has not moved for so many network clocks. -/
def State.blockedTo (s : State) (k : Nat × Nat × Nat) (clocks : Nat) (told : Option (Nat × Nat)) : Option (Nat × Nat × Nat) :=
  let out := if k.2.2 = 2 then told
    else (s.headOf k).bind (fun q => if q.movedAt + Config.networkClocks clocks ≤ s.clock then (s.wants q).bind Spot.place else none)
  (out.map (fun o => (o.1, o.2, k.2.2))).filter s.covers

/-! ### Probes (R281) -/

/-- A probe enters an input; where another stands already it is dropped. -/
def State.passProbe (s : State) (die : Nat) (p : Probe) : State :=
  if s.dies.any (fun d => d.2.probes.any (fun q => q.at_ = p.at_)) then s.probeLost p.at_
  else s.modDie die (fun d => { d with probes := d.probes ++ [p] })

/-- DEADLOCK_PROBE_SEND (R281): an input blocked for 4,096 network clocks, and for as many since its last probe, sends one. -/
def execDeadlockProbeSend (die router port cls outRouter outPort : Nat) (s : State) : Res :=
  let k := (router, port, cls)
  let x := s.input k
  match s.blockedTo k 4096 (some (outRouter, outPort)) with
  | none => .next s
  | some o =>
    if die = router / 16 && s.covers k && x.probedAt.all (fun t => t + Config.networkClocks 4096 ≤ s.clock) then
      let (id, s) := s.fresh
      .next ((s.setInput { x with probedAt := some s.clock, out := some (o.1, o.2.1) }).passProbe die ⟨id, k, o⟩)
    else .next s

/-- PROBE_FORWARD (R281): dropped where the head has moved; passed on otherwise; back at its origin it confirms a cycle, and a token
starts (R282). -/
def execProbeForward (die probe : Nat) (head : Option (Nat × Nat)) (s : State) : Res :=
  match (s.die die).probes.find? (fun p => p.id = probe) with
  | none => .next s
  | some p =>
    let s := s.modDie die (fun d => { d with probes := d.probes.filter (fun q => q.id ≠ probe) })
    match s.blockedTo p.at_ 256 head with
    | none => .next (s.probeLost p.at_)
    | some o =>
      let s := s.setInput { s.input p.at_ with out := some (o.1, o.2.1) }
      if o = p.origin then
        let (id, s) := s.fresh
        .next (s.modDie die (fun d => { d with tokens := d.tokens ++ [⟨id, p.origin, [], false⟩] }))
      else .next (s.passProbe die { p with at_ := o })

/-! ### Recovery (R282, R283) -/

def Die.token (d : Die) (id : Nat) : Option Token := d.tokens.find? (fun t => t.id = id)
/-- The transit slot of an input is reserved, or a packet still stands in it. -/
def State.slotTaken (s : State) (k : Nat × Nat × Nat) : Bool :=
  (s.input k).slot || s.net.any (fun q => q.spot = .slot k.1 k.2.1 && q.cls = k.2.2)
/-- A recovery is abandoned: its reservations end, and its origin probes again after another 4,096 network clocks. -/
def State.abandonToken (s : State) (die : Nat) (t : Token) : State :=
  let s := t.visited.foldl (fun (s : State) k => s.setInput { s.input k with slot := false }) s
  let s := s.setInput { s.input t.origin with probedAt := some s.clock }
  s.modDie die (fun d => { d with tokens := d.tokens.filter (fun x => x.id ≠ t.id) })

/-- RECOVERY_TOKEN (R282): the token reaches the next router of the cycle, which reserves the transit slot of the input that it comes in
by, or refuses it when that slot is taken; where the cycle is gone the recovery is abandoned too (log 46: DEDUCED). -/
def execRecoveryToken (die token : Nat) (s : State) : Res :=
  match (s.die die).token token with
  | none => .next s
  | some t =>
    if t.closed then .next s
    else
      let at_ := (t.visited.getLast?).getD t.origin
      match s.blockedTo at_ 0 (s.input at_).out with
      | none => .next (s.abandonToken die t)
      | some k =>
        if s.slotTaken k then .next (s.abandonToken die t)
        else
          let s := s.setInput { s.input k with slot := true }
          let t' : Token := { t with visited := t.visited ++ [k], closed := k = t.origin }
          .next (s.modDie die (fun d => { d with tokens := d.tokens.map (fun x => if x.id = token then t' else x) }))

/-- RECOVERY_SHIFT (R282, R283): every blocked head of the cycle moves one hop, into the reserved slots, in one step, and counts it. A head that
has moved on meanwhile leaves its reserved slot empty. (Log 46: DEDUCED.) -/
def execRecoveryShift (die token : Nat) (s : State) : Res :=
  match (s.die die).token token with
  | none => .next s
  | some t =>
    if t.closed then
      let heads := (List.zip (t.origin :: t.visited) t.visited).filterMap (fun c =>
        (s.headOf c.1).bind (fun q => if s.wants q = some (.input c.2.1 c.2.2.1) then some (q, c.2) else none))
      let s := heads.foldl (fun (s : State) h => s.place { h.1 with recoveries := min 2 (h.1.recoveries + 1) } (.slot h.2.1 h.2.2.1)) s
      let s := t.visited.foldl (fun (s : State) k =>
        s.modDie (k.1 / 16) (fun d => { d with inputs := d.inputs.filter (fun x => x.key ≠ k) })) s
      .next (s.modDie die (fun d =>
        ({ d with tokens := d.tokens.filter (fun x => x.id ≠ token) } : Die).count (fun c => { c with dlkrec := satInc c.dlkrec })))
    else .next s

/-! ### Links (R287, R298) -/

/-- LINK_REPLAY (R287, R298). -/
def execLinkReplay (die link : Nat) (s : State) : Res :=
  if 4 ≤ link || !s.linkAlive die link then .next s
  else .next (s.modDie die (fun d => d.count (fun c => { c with lnkreplay := satInc c.lnkreplay })))

/-- The input at the end of a die's link. -/
def linkInput (die link : Nat) : Nat × Nat := (16 * die + linkRouter link, 7)
/-- A die's link to a neighbour works no more, at this end of it. -/
def State.cutLink (s : State) (die link : Nat) : State :=
  s.modDie die (fun d => { d with deadLinks := insertSorted d.deadLinks link })

/-- LINK_DEAD (R287, R298): the link is dead for good, at both its ends; its death is counted and logged on the die that names it. The packets on
it, which stand in the buffers at its ends, are lost (log 73: DESIGN CHOICE); their requests end by time. -/
def execLinkDead (die link : Nat) (s : State) : Res :=
  if 4 ≤ link || !s.linkAlive die link then .next s
  else
    let other := neighbour die link
    let on := fun (q : Request) => q.spot = .input (linkInput die link).1 7 || q.spot = .input (linkInput other (linkBack link)).1 7
    let s := (s.net.filter on).foldl (fun (s : State) q => if q.dead then (s.dropReq q.id).forget q else s.setReq { q with spot := .lost }) s
    let s := ((s.cutLink die link).cutLink other (linkBack link)).modDie die (fun d => d.count (fun c => { c with lnkdead := satInc c.lnkdead }))
    .next (s.logRec 0x0006 true (diePlace die) false 0 [BitVec.ofNat 32 die, BitVec.ofNat 32 link])

end Sys2Proof.Machine
end

