-- ==== Sys2Proof/Machine/Pages.lean ====
section
/-! DEFINITION. The firmware's side of memory (spec/17_addresses_and_translation.md): frames and the spoil queue (R369), page tables and
MAP (R351 to R353, R449), invalidation (R367), migration (R365), and the service of page faults (R363). Where the firmware places a
frame or a table is its own choice: the lowest place that fits (log 4: DESIGN CHOICE). -/

namespace Sys2Proof.Machine

/-! ### Answers to the host (R420 to R425) -/

/-- The status codes of R423. -/
def stOk : Nat := 0
def stBadVer : Nat := 1
def stBadOp : Nat := 2
def stBadLen : Nat := 3
def stBadHdr : Nat := 4
def stBadSeq : Nat := 5
def stBadCtx : Nat := 6
def stNoRes : Nat := 7
def stInvalid : Nat := 8
def stFull : Nat := 9
def stDenied : Nat := 10

/-- The header of the response to a command (R421). -/
def respHdr (h : Hdr) (status : Nat) (len : Nat) : Hdr :=
  { h with resv := 0, event := false, resp := true, length := BitVec.ofNat 32 len, status := BitVec.ofNat 32 status, resv2 := 0 }

/-- One message goes out on the queue pair its header names; with both ports gone it is lost (R442). -/
def State.sendHost (s : State) (m : HostMsg) : State := if s.hostPorts = 0 then s else { s with outbox := s.outbox ++ [m] }

/-- The one response to a performed command: stored in its session, and sent (R422, R425). (Log 6: DESIGN CHOICE.) -/
def State.respond (s : State) (h : Hdr) (status : Nat) (payload : List Byte) : State :=
  let m : HostMsg := ⟨respHdr h status payload.length, payload⟩
  let s := { s with sessions := s.sessions.map (fun (p : Word × Session) => if p.1 = h.session then (p.1, { p.2 with stored := some m }) else p) }
  s.sendHost m

/-! ### Frames (R369, R407; log 4: DESIGN CHOICE) -/

def alignUp (a n : Nat) : Nat := (a + n - 1) / n * n

/-- The stretches of the physical space that rows withdrawn from their banks hold (R407). -/
def State.withdrawnRanges (s : State) : List (Nat × Nat) :=
  s.hbm.flatMap (fun (p : Nat × Stack) => p.2.withdrawn.map (fun (w : Nat × Nat) => (s.paOfStack p.1 (w.2 * 131072 + w.1 * 2048), 2048)))

/-- What a new frame may not overlap: frames in use, freed frames not yet quiescent, withdrawn rows. -/
def State.obstacles (s : State) : List (Nat × Nat) :=
  s.frames.map (fun f => (f.1, f.2.1)) ++ s.spoil.map (fun f => (f.1, f.2.1)) ++ s.invalidations.flatMap (fun i => i.frees)
    ++ s.withdrawnRanges

/-- The lowest aligned place in [lo, hi) that overlaps nothing of a list. (Log 4: DESIGN CHOICE.) -/
def findRoom (obs : List (Nat × Nat)) (lo hi n align : Nat) : Option Nat :=
  ((alignUp lo align :: obs.map (fun o => alignUp (o.1 + o.2) align)).filter (fun c =>
    lo ≤ c && c + n ≤ hi && obs.all (fun o => !overlaps c n o.1 o.2))).foldl
      (fun best c => match best with
        | none => some c
        | some b => some (min b c)) none

/-- The range that a HOME (R353) allocates from. -/
def State.homeRange (s : State) (home stack : Nat) : Option (Nat × Nat) :=
  match home with
  | 0 => some (0, s.interleavedEnd)
  | 3 => none
  | _ => if stack < 16 then some (localBase stack, localBase stack + s.localGib * gib) else none

/-- Take a range for a context. -/
def State.takeRange (s : State) (base n ctx : Nat) : State := { s with frames := s.frames ++ [(base, n, ctx)] }

/-- A new range in a window. (Log 4: DESIGN CHOICE.) -/
def State.allocRange (s : State) (home stack n align ctx : Nat) : Option (Nat × State) :=
  match s.homeRange home stack with
  | none => none
  | some (lo, hi) => (findRoom s.obstacles lo hi n align).map (fun b => (b, s.takeRange b n ctx))

/-- So many leaves of a size, in one run where one fits, else each on its own. -/
def State.allocEach (s : State) (home stack size ctx : Nat) : Nat → Option (List Nat × State)
  | 0 => some ([], s)
  | n + 1 => match s.allocRange home stack size size ctx with
    | none => none
    | some (b, s) => (s.allocEach home stack size ctx n).map (fun r => (b :: r.1, r.2))
def State.allocLeaves (s : State) (home stack size count ctx : Nat) : Option (List Nat × State) :=
  match s.allocRange home stack (size * count) size ctx with
  | some (b, s) => some ((List.range count).map (fun i => b + i * size), s)
  | none => s.allocEach home stack size ctx count

/-- Freed ranges wait for the report of the invalidation begun last. -/
def State.freeLater (s : State) (l : List (Nat × Nat)) : State :=
  { s with invalidations := match s.invalidations.getLast? with
      | none => s.invalidations
      | some i => s.invalidations.dropLast ++ [{ i with frees := i.frees ++ l }] }

/-- A context gives up a range it refers to: what no other reference covers is freed. -/
def State.releaseRange (s : State) (ctx base n : Nat) : State :=
  match s.frames.find? (fun f => f.2.2 = ctx ∧ f.1 ≤ base ∧ base + n ≤ f.1 + f.2.1) with
  | none => s
  | some f =>
    let left : List (Nat × Nat × Nat) :=
      (s.frames.erase f) ++ (rangeLess1 [(f.1, f.2.1)] base n).map (fun r => (r.1, r.2, ctx))
    ({ s with frames := left } : State).freeLater (rangeLess [(base, n)] (left.map (fun g => (g.1, g.2.1))))

/-- Zeros are written to a range (R369). -/
def State.zeroRange (s : State) (base n : Nat) : State :=
  { s with mem := s.mem.filter (fun c => !(base ≤ c.1 && c.1 < base + n))
           poisoned := s.poisoned.filter (fun p => !(base ≤ 32 * p && 32 * p < base + n)) }

/-! ### Page tables (R351 to R353, R449) -/

/-- A new table, all entries invalid. -/
def State.allocTable (s : State) (ctx : Nat) : Option (Nat × State) :=
  let got := match s.allocRange 0 0 65536 65536 ctx with
    | some x => some x
    | none => (List.range 16).findSome? (fun st => s.allocRange 1 st 65536 65536 ctx)
  got.map (fun x =>
    let c := x.2.context ctx
    (x.1, (x.2.zeroRange x.1 8192).setContext ctx { c with tables := c.tables ++ [x.1] }))

/-- Everything that an entry of a level maps is given up: its frame, or its table and all below it. -/
def State.dropEntry (ctx : Nat) : Nat → BitVec 64 → State → State
  | n, e, s =>
    if !Pte.valid e then s
    else if Pte.leaf e then (if Pte.state e = 1 then s else s.releaseRange ctx (Pte.frame e) (pageSize n))
    else match n with
      | 0 => s
      | m + 1 =>
        let tbl := Pte.frame e
        let s := (List.range 1024).foldl (fun s i => State.dropEntry ctx m (s.entryAt (tbl + 8 * i)) s) s
        let c := s.context ctx
        (s.setContext ctx { c with tables := c.tables.filter (· ≠ tbl) }).releaseRange ctx tbl 65536

/-- A leaf of level n + 1 becomes a table of 1,024 leaves of level n with the same bits and the same frames (R449). -/
def State.splitLeaf (s : State) (ctx ea n : Nat) (e : BitVec 64) : Option (Nat × State) :=
  (s.allocTable ctx).map (fun x =>
    let s := (List.range 1024).foldl (fun (s : State) i =>
      s.putEntry (x.1 + 8 * i) (if Pte.state e = 1 then e else e + BitVec.ofNat 64 (i * pageSize n))) x.2
    (x.1, s.putEntry ea (Pte.table x.1)))

/-- Write one entry of a level, or remove what stands there; larger leaves on the way are split (R449). -/
def State.setLeaf (ctx va target : Nat) (e : Option (BitVec 64)) : Nat → Nat → State → Option State
  | 0, _, _ => none
  | n + 1, tbl, s =>
    let ea := tbl + 8 * (va / pageSize n % 1024)
    let old := s.entryAt ea
    if n = target then some ((State.dropEntry ctx n old s).putEntry ea (e.getD 0))
    else if !Pte.valid old then
      match e with
      | none => some s
      | some _ => (s.allocTable ctx).bind (fun x => State.setLeaf ctx va target e n x.1 (x.2.putEntry ea (Pte.table x.1)))
    else if Pte.leaf old then
      (s.splitLeaf ctx ea (n - 1) old).bind (fun x => State.setLeaf ctx va target e n x.1 x.2)
    else State.setLeaf ctx va target e n (Pte.frame old) s

/-- Write the entries of a range. -/
def State.setLeaves (ctx va level : Nat) (s : State) (es : List (Option (BitVec 64))) : Option State :=
  es.zipIdx.foldl (fun (acc : Option State) x =>
    acc.bind (fun s => State.setLeaf ctx (va + x.2 * pageSize level) level x.1 4 (s.context ctx).ptbase s)) (some s)

/-! ### Invalidation (R367) -/

def inRange (va base n : Nat) : Bool := base ≤ va && va < base + n

/-- Every L1 writes the dirty bytes of the range home and drops its lines; held lines stay with their teams. -/
def State.dropRange (s : State) (ctx va n : Nat) : State :=
  s.cores.foldl (fun (s : State) p =>
    (p.2.l1.filter (fun l => l.ctx = ctx && l.held.isNone && inRange l.vline (lineAddr va) (n + va % 128))).foldl
      (fun (s : State) l => s.writeBack p.1 ctx l.vline true) s) s

/-- The teams with held lines or journal entries in the range. -/
def State.heldIn (s : State) (ctx va n : Nat) : List Nat :=
  ((s.teams.filter (fun t => t.2.ctx = ctx && t.2.resident && (
      ((s.core t.2.core).l1.any (fun l => l.held = some t.1 && inRange l.vline (lineAddr va) (n + va % 128)))
        || (match t.2.region with
            | none => false
            | some r => r.journal.any (fun j => inRange j.1 va n))))).map Prod.fst)

/-- An invalidation begins: the lines go home, and the crews of teams that hold lines of the range are pre-empted. -/
def State.beginInvalidation (s : State) (ctx va n : Nat) : State :=
  let teams := s.heldIn ctx va n
  let s := s.dropRange ctx va n
  let s := teams.foldl (fun (s : State) t => s.preemptCrew (s.team t).crew .invalidation) s
  { s with invalidations := s.invalidations.map (fun i => if i.ctx = ctx && i.va = va && i.size = n then { i with teams := teams } else i) }

/-- Nothing holds an invalidation up any longer: its teams have left their cores and no request with the old translation, nor what their lines wrote home, is under way. -/
def State.invalidated (s : State) (i : Invalidation) : Bool :=
  i.teams.all (fun t => !((s.team t).resident && (s.team t).preempt.isSome))
    && s.net.all (fun r => !(r.ctx = i.ctx && (r.id < i.upTo || !r.owners.isEmpty) && inRange r.vline (lineAddr i.va) (i.size + i.va % 128)))

/-- The report (R367): lines filled meanwhile are dropped, every die's remote-data epoch advances, the frames enter the spoil queue, and
a waiting MAP is answered. -/
def State.reportInvalidation (s : State) (i : Invalidation) : State :=
  let s := s.dropRange i.ctx i.va i.size
  let s := (List.range Config.dies).foldl (fun (s : State) d => s.invalidateRdc d) s
  let s := { s with
    invalidations := s.invalidations.erase i
    spoil := s.spoil ++ i.frees.map (fun f => (f.1, f.2, s.quiescence)) }
  match i.hdr with
  | none => s
  | some h => s.respond h stOk []

/-- INVALIDATION_COMPLETE (R367): the first invalidation of the context that nothing holds up is reported. -/
def execInvalidationComplete (ctx : Nat) (s : State) : Res :=
  match s.invalidations.find? (fun i => i.ctx = ctx && s.invalidated i) with
  | none => .next s
  | some i => .next (s.reportInvalidation i)

/-! ### MAP (R422, R449) -/

/-- The range that changes, with the whole of any larger leaf of which it covers a part (R449). (Log 49: DEDUCED.) -/
def State.widen (s : State) (ctx va n level : Nat) : Nat × Nat :=
  let lo := match s.walk ctx va with
    | .leaf _ _ l => if level < l then va / pageSize l * pageSize l else va
    | _ => va
  let hi := match s.walk ctx (va + n - 1) with
    | .leaf _ _ l => if level < l then (va + n - 1) / pageSize l * pageSize l + pageSize l else va + n
    | _ => va + n
  (lo, hi - lo)

/-- MAP's arguments are legal (R354, R449). (Log 49: DEDUCED.) -/
def State.mapLegal (s : State) (p : MapArgs) : Bool :=
  p.leafLevel ≤ 2 && 0 < p.size && p.va % pageSize p.leafLevel = 0 && p.size % pageSize p.leafLevel = 0 && p.va + p.size ≤ 2 ^ 56
    && (p.unmap || (
      p.state ≠ 3#2 && p.mtype ≠ 3#2 && p.stack < 16
        && (p.state = 1#2 || (match p.place with
            | none => p.home ≠ 3#2
            | some a => a % pageSize p.leafLevel = 0 && s.homeAgrees p.home.toNat a p.size))))

/-- The frames of a MAP: none for a discarded page, those the host places, or new ones. -/
def State.mapFrames (s : State) (ctx : Nat) (p : MapArgs) : Option (List Nat × State) :=
  let sz := pageSize p.leafLevel
  let n := p.size / sz
  if p.unmap || p.state = 1#2 then some (List.replicate n 0, s)
  else match p.place with
    | some a =>
      let gone := s.spoil.map (fun f => (f.1, f.2.1)) ++ s.invalidations.flatMap (fun i => i.frees) ++ s.withdrawnRanges
      if p.home ≠ 3#2 && gone.any (fun o => overlaps a p.size o.1 o.2) then none
      else some ((List.range n).map (fun i => a + i * sz), if p.home = 3#2 then s else s.takeRange a p.size ctx)
    | none => s.allocLeaves p.home.toNat p.stack sz n ctx

/-- The entries of the range change and its invalidation begins; without frames for pages or tables nothing changes. -/
def State.mapPages (s : State) (ctx : Nat) (p : MapArgs) (hdr : Option Hdr) : Nat × State :=
  if !s.mapLegal p then (stInvalid, s)
  else
    let (lo, n) := s.widen ctx p.va p.size p.leafLevel
    let s' := { s with invalidations := s.invalidations ++ [(⟨ctx, lo, n, s.nextId, [], [], hdr⟩ : Invalidation)] }
    let done := (s'.mapFrames ctx p).bind (fun x =>
      State.setLeaves ctx p.va p.leafLevel x.2 (x.1.map (fun a =>
        if p.unmap then none else some (Pte.mk a p.r p.w p.x p.home p.mtype p.state p.psn))))
    match done with
    | none => (stNoRes, s)
    | some t => (stOk, t.beginInvalidation ctx lo n)

/-! ### Quiescence (R369) -/

/-- An access begun before Q took its value is still under way. -/
def State.oldAccess (s : State) : Bool :=
  s.net.any (fun r => r.born < s.quiesceAt)
    || s.waves.any (fun p => p.2.ops.any (fun o => !o.done && o.born < s.quiesceAt)
        || p.2.waits.any (fun w => match w.why with
          | .migrating since _ _ _ _ _ _ => since < s.quiesceAt
          | _ => false))

/-- QUIESCENCE_ADVANCE (R369): Q advances once every access begun before it took its value has ended; frames freed two values ago are
zeroed and leave the queue. -/
def execQuiescenceAdvance (s : State) : Res :=
  if s.oldAccess then .next s
  else
    let q := s.quiescence + 1
    let out := s.spoil.filter (fun f => f.2.2 + 2 ≤ q)
    let s := out.foldl (fun (s : State) f => s.zeroRange f.1 f.2.1) s
    .next { s with quiescence := q, quiesceAt := s.clock, spoil := s.spoil.filter (fun f => !(f.2.2 + 2 ≤ q)) }

/-! ### Migration (R365) -/

/-- Move the contents and the poison of a page. -/
def State.copyFrame (s : State) (src dst n : Nat) : State :=
  let cells := s.mem.filter (fun c => src ≤ c.1 && c.1 < src + n)
  let pois := s.poisoned.filter (fun p => src ≤ 32 * p && 32 * p < src + n)
  let s := s.zeroRange dst n
  { s with mem := cells.foldl (fun m c => cellSet m (dst + (c.1 - src)) c.2) s.mem
           poisoned := pois.foldl (fun l p => insertSorted l ((dst + (32 * p - src)) / 32)) s.poisoned }

def Pte.withState (e : BitVec 64) (st : Nat) : BitVec 64 := (e &&& ~~~0xC00#64) ||| BitVec.ofNat 64 (st * 1024)
def Pte.withFrame (e : BitVec 64) (f : Nat) : BitVec 64 := (e &&& ~~~0xFFFFFFFFF0000#64) ||| BitVec.ofNat 64 f

/-- PAGE_MIGRATION (R365): the first time, a die-local page that is to move to the other stack of its die is marked migrating and
invalidated; the second time, once that is reported, it is copied and its new entry written as normal. -/
def execPageMigration (ctx va toStack : Nat) (s : State) : Res :=
  match s.migrations.find? (fun m => m.ctx = ctx ∧ m.va ≤ va ∧ va < m.va + m.size) with
  | some m =>
    if s.invalidations.any (fun i => i.ctx = ctx && i.va = m.va && i.hdr.isNone) then .next s
    else
      let s := { s with migrations := s.migrations.erase m
                        faults := s.faults.filter (fun f => !(f.migratingSince.isSome && f.ctx = m.ctx && m.va ≤ f.va && f.va < m.va + m.size)) }
      let e := s.entryAt m.entry
      if !(Pte.valid e && Pte.leaf e && Pte.state e = 2 && Pte.frame e = m.source) then .next s
      else
        let s := (s.copyFrame m.source m.target m.size).putEntry m.entry (Pte.withFrame (Pte.withState e 0) m.target)
        let s := { s with invalidations := s.invalidations ++ [(⟨ctx, m.va, m.size, s.nextId, [], [], none⟩ : Invalidation)] }
        .next ((s.releaseRange ctx m.source m.size).beginInvalidation ctx m.va m.size)
  | none =>
    match s.walk ctx va with
    | .leaf ea e l =>
      let src := Pte.frame e
      match s.window src with
      | .local_ st =>
        if Pte.home e = 1 && Pte.state e = 0 && toStack < 16 && toStack / 2 = st / 2 && toStack ≠ st then
          match s.allocRange 1 toStack (pageSize l) (pageSize l) ctx with
          | none => .next s
          | some (dst, s) =>
            let base := va / pageSize l * pageSize l
            let s := s.putEntry ea (Pte.withState e 2)
            let s := { s with
              migrations := s.migrations ++ [(⟨ctx, base, ea, pageSize l, src, dst⟩ : Migration)]
              invalidations := s.invalidations ++ [(⟨ctx, base, pageSize l, s.nextId, [], [], none⟩ : Invalidation)] }
            .next (s.beginInvalidation ctx base (pageSize l))
        else .next s
      | _ => .next s
    | _ => .next s

/-- The accesses of R360 by their codes. -/
def accessOf (code : Nat) : Access := match code with
  | 0 => .read
  | 1 => .write
  | 2 => .atomic
  | _ => .fetch

/-- The first wait for a migrating page in a wave that satisfies a test. -/
def Wave.migratingWait (w : Wave) (ok : Nat → Nat → Bool) : Option Wait :=
  w.waits.find? (fun x => match x.why with
    | .migrating since nextAt _ _ _ _ _ => ok since nextAt
    | _ => false)

/-- MIGRATION_RETRY (R365): the translation is tried again; still refused, it backs off twice as long, up to 16 µs. -/
def execMigrationRetry (w : WaveKey) (s : State) : Res :=
  let x := s.wave w
  match x.migratingWait (fun _ nextAt => nextAt ≤ s.clock) with
  | none => .next s
  | some wt =>
    match wt.why with
    | .migrating since _ back va level access fails =>
      match s.translate x.ctx va (accessOf access) with
      | .migrating _ =>
        let b := min (2 * back) (16 * Config.clocksPerUs)
        let wt' : Wait := { wt with why := .migrating since (s.clock + b) b va level access fails }
        .next (s.setWave w { x with waits := x.waits.map (fun y => if y = wt then wt' else y) })
      | _ => .next (s.setWave w (x.releaseWait wt))
    | _ => .next s

/-- MIGRATION_TIMEOUT (R365, R360 reason 7): still refused after 2 ms. -/
def execMigrationTimeout (w : WaveKey) (s : State) : Res :=
  let x := s.wave w
  match x.migratingWait (fun since _ => since + 2000 * Config.clocksPerUs ≤ s.clock) with
  | none => .next s
  | some wt =>
    match wt.why with
    | .migrating _ _ _ va _ access fails =>
      let s := s.setWave w (x.releaseWait wt)
      match s.translate x.ctx va (accessOf access) with
      | .migrating l => .next (s.trap w ⟨causePageFault, false, wt.pc, fails, BitVec.ofNat 64 va, xlatInfo 7 l (accessOf access)⟩)
      | _ => .next s
    | _ => .next s

/-! ### Page service (R363, R370) -/

/-- The package controller maps a page as the host answers, or refuses it: whether it is mapped now. -/
def State.servicePage (s : State) (ctx : Nat) (a : PageAnswer) : Bool × State :=
  match a with
  | .refused => (false, s)
  | .mapped m =>
    match s.mapPages ctx m none with
    | (0, t) => (true, t)
    | _ => (false, s)

/-- SCOUT_BATCH_SERVICED (R363): every page of the batch is mapped or refused, and the wave issues the faulting instruction again; only
a refusal of the faulting page, the first collected, is remembered for it. -/
def execScoutBatchServiced (w : WaveKey) (answers : List PageAnswer) (s : State) : Res :=
  let x := s.wave w
  match x.waits.find? (fun y => match y.why with
    | .page l => l.any (fun p => p.2 ≠ 3)
    | _ => false) with
  | none => .next s
  | some wt =>
    match wt.why with
    | .page asked =>
      let t := asked.zipIdx.foldl (fun (acc : State) p => (acc.servicePage x.ctx ((answers[p.2]?).getD .refused)).2) s
      let first := ((asked.head?).map Prod.fst).getD 0
      let refused := match t.walk x.ctx (first * 65536) with
        | .none _ => true
        | _ => false
      .next (t.modWave w (fun y =>
        let y := y.releaseWait wt
        if refused then { y with refused := y.refused ++ [first] } else y))
    | _ => .next s

/-- FETCH_FAULT (R360, R370): the fetch of the path at a PC does not get through: it traps, waits for its page, or waits for a migration.
Scout mode is not used. (Log 10: DEDUCED.) -/
def execFetchFault (w : WaveKey) (pc : Word) (s : State) : Res :=
  let x := s.wave w
  let m := x.laneMask (fun l => l.free && l.pc == pc)
  if m = 0 then .next s
  else
    let bad := match s.fetchXlat x.ctx pc with
      | .ok _ _ _ => pc + 4
      | _ => pc
    let va := (s.context x.ctx).codeVa bad
    let wait := fun (why : WaitWhy) (s : State) =>
      s.modWave w (fun y => { y.blockAs m .waiting with waits := y.waits ++ [⟨m, pc, pc, s.clock, 0, why⟩] })
    match s.fetch x.ctx pc with
    | .fail (.fault c r l) => .next (s.trap w ⟨c, false, pc, m, BitVec.ofNat 64 va, xlatInfo r l .fetch⟩)
    | .fail (.noPage l) =>
      if x.refused.contains (va / 65536) then
        .next ((s.setWave w { x with refused := [] }).trap w ⟨causePageFault, false, pc, m, BitVec.ofNat 64 va, xlatInfo 0 l .fetch⟩)
      else .next (wait (.page [(va / 65536, 3)]) (s.askPage x.ctx va 3))
    | .fail (.migrating l) => .next (wait (.migrating s.clock (s.clock + 384) 384 va l 3 m) s)
    | _ => .next s

/-- Fetches that wait for a page go on; a refusal is remembered. -/
def State.wakeFetches (s : State) (ctx page : Nat) (ok : Bool) : State :=
  { s with waves := s.waves.map (fun (p : WaveKey × Wave) =>
      if p.2.ctx ≠ ctx then p
      else
        let mine := p.2.waits.filter (fun y => y.why = .page [(page, 3)])
        if mine.isEmpty then p
        else
          let y := mine.foldl Wave.releaseWait p.2
          (p.1, if ok then y else ({ y with refused := y.refused ++ [page] } : Wave))) }

/-- PAGE_FAULT_SERVICED (R363, R370, R217, R451, R452): the page that an agent asked for is mapped, or its refusal stands until the agent
meets it. -/
def execPageFaultServiced (fault : Nat) (answer : PageAnswer) (s : State) : Res :=
  match s.faults.find? (fun f => f.id = fault ∧ f.answered = none ∧ f.migratingSince = none) with
  | none => .next s
  | some f =>
    let t := (s.servicePage f.ctx answer).2
    let ok := match t.walk f.ctx f.va with
      | .none _ => false
      | _ => true
    let fs : List PageFault :=
      if ok || f.access = 3 then t.faults.filter (fun g => g.id ≠ fault)
      else t.faults.map (fun (g : PageFault) => if g.id = fault then { g with answered := some false } else g)
    let t : State := { t with faults := fs }
    .next (if f.access = 3 then t.wakeFetches f.ctx (f.va / 65536) ok else t)

end Sys2Proof.Machine
end

