-- ==== Sys2Proof/Machine/Scout.lean ====
section
/-! DEFINITION. Scout mode (spec/17_addresses_and_translation.md R361, R362): a wave that met a page with no valid entry runs ahead,
collects the pages that its loads will need, and returns to the faulting instruction. Nothing of the run but the pages and their A bits
leaves the wave, and the wave itself goes back to where it stood. run is the meaning of an instruction. -/

namespace Sys2Proof.Machine

/-! ### Rolling back -/

/-- The end of a run: the wave stands at the faulting instruction again, the faulting path waiting for the batch (R361). -/
def State.scoutEnd (s : State) (k : WaveKey) (sc : Scout) : State :=
  let w := sc.saved.blockAs sc.path .waiting
  ({ s with scouts := assocErase s.scouts k } : State).setWave k
    { w with waits := w.waits ++ [⟨sc.path, sc.pc, sc.pc, s.clock, 0, .page sc.pages⟩] }

/-- A path of the run goes no further (R362). -/
def State.scoutStop (s : State) (k : WaveKey) (m : LaneMask) : State := s.modWave k (fun w => w.blockAs m .waiting)

/-! ### Unknown values (R362) -/

/-- Lanes of a list that are unknown for some of the names. -/
def unkLanes {α : Type} [DecidableEq α] (l : List (α × LaneMask)) (names : List α) : LaneMask :=
  names.foldl (fun m n => m ||| ((assocGet l n).getD 0)) 0

/-- The lanes of a path for which an instruction reads an unknown value; an unknown uniform value is unknown for all of them. -/
def Scout.reads (sc : Scout) (u : Usage) (path : LaneMask) : LaneMask :=
  let whole := u.sr.any (fun f => f.toNat < 62 && sc.unkS.getLsbD f.toNat) || u.qr.any (fun q => q ≠ 7#3 && sc.unkQ.getLsbD q.toNat)
    || (match u.br with
        | some b => sc.unkB.getLsbD b.toNat
        | none => false)
  if whole then path
  else path &&& (unkLanes sc.unkV u.vr ||| unkLanes sc.unkP ((u.pr.filter (· ≠ 7#3)).map BitVec.toNat))

def setUnk (l : List (Nat × LaneMask)) (n : Nat) (known unknown : LaneMask) : List (Nat × LaneMask) :=
  assocSet l n ((((assocGet l n).getD 0) &&& ~~~known) ||| unknown)

/-- What an instruction writes becomes unknown in some lanes of its path and known in others; a uniform result follows the whole path. -/
def Scout.writes (sc : Scout) (u : Usage) (known unknown : LaneMask) : Scout :=
  let bad := unknown ≠ 0
  { sc with
    unkV := u.vw.foldl (fun l n => setUnk l n known unknown) sc.unkV
    unkP := (u.pw.filter (· ≠ 7#3)).foldl (fun l p => setUnk l p.toNat known unknown) sc.unkP
    unkS := (u.sw.filter (fun f => f.toNat < 62)).foldl (fun m f =>
      let bit : BitVec 62 := 1#62 <<< f.toNat
      if bad then m ||| bit else m &&& ~~~bit) sc.unkS
    unkQ := (u.qw.filter (· ≠ 7#3)).foldl (fun m q =>
      let bit : BitVec 7 := 1#7 <<< q.toNat
      if bad then m ||| bit else m &&& ~~~bit) sc.unkQ }

/-! ### What each instruction does in scout mode (R361, R362) -/

inductive ScoutDo where
  | execute
  | branch
  | load
  | suppress
  | stop
  | finish
  deriving DecidableEq, Repr

/-- Register instructions, scratchpad loads among them, execute; the sets of R362 are suppressed; what would trap or end the thread
stops its path; wave-wide and waiting instructions end the run. -/
def scoutDo (op : Nat) : ScoutDo :=
  if isWaveWide op || op = 0xAA || op = 0xAB then .finish
  else if (0x4E ≤ op && op ≤ 0x52) || (0xA0 ≤ op && op ≤ 0xA4) then .branch
  else if op = 0x53 || op = 0x54 || op = 0x55 || op = 0xC8 || op = 0xC9 then .stop
  else if (0x5D ≤ op && op ≤ 0x63) || op = 0x69 || op = 0xC7 then .load
  else if op ≤ 0x5C || (0x6D ≤ op && op ≤ 0x6F) || (0x80 ≤ op && op ≤ 0x9F) || (0xA5 ≤ op && op ≤ 0xA7) then .execute
  else .suppress

/-- The access of a load in scout mode: its checks, its lanes and bytes, whether it bypasses the L1. -/
def State.scoutAccess (s : State) (i : Instr) : Option (List (Option TrapReq) × List (Fin 32 × List Nat) × Bool) :=
  let vm := fun (f : VM) (width : Nat) =>
    some (s.accessChecks f.a f.br f.imm.toNat width .read, s.accessLanes f.a f.br f.imm.toNat width, decide (f.ch = 2#2))
  match i with
  | .ldb f => vm f 1
  | .ldbu f => vm f 1
  | .ldh f => vm f 2
  | .ldhu f => vm f 2
  | .ldw f => vm f 4
  | .ldd f => vm f 8
  | .ldq f => vm f 16
  | .ldaq f =>
    let n := if f.sz then 8 else 4
    some (s.accessChecks f.a f.br f.imm.toNat n .read, s.accessLanes f.a f.br f.imm.toNat n, decide (2 ≤ f.sc.toNat))
  | .recld f =>
    let w := s.cur
    let a := va56 ((w.spair f.a).toNat % 2 ^ 56 + 16 * f.imm.toNat)
    some ([s.check (w.spairPois f.a) causePoison s.sel.mask 0, s.check (a % 16 ≠ 0) causeMisalign s.sel.mask 0],
      [(((lowestLane s.sel.mask).getD 0), (List.range 16).map (fun j => va56 (a + j)))], false)
  | _ => none

/-- A load's lines are translated: pages with no entry are collected, good ones marked; a line that would trap stops the path. -/
def State.scoutLines (s : State) (sc : Scout) (lanes : List (Fin 32 × List Nat)) (bypass : Bool) : State × Scout × Bool :=
  let k := s.sel.key
  let w := s.cur
  let vas := lanes.flatMap Prod.snd
  (linesOf lanes).foldl (fun (acc : State × Scout × Bool) v =>
    let (s, sc, ok) := acc
    if !ok || !s.needsXlat k.core w.ctx w.team .read bypass v vas then acc
    else match s.translate w.ctx v .read with
      | .ok _ _ ea => (s.markAD ea false, sc, true)
      | .noPage _ =>
        (s, if sc.pages.any (fun p => p.1 = v / 65536) || 32 ≤ sc.pages.length then sc else { sc with pages := sc.pages ++ [(v / 65536, 0)] }, true)
      | .migrating _ => (s, sc, true)
      | .fault _ _ _ => (s, sc, false)) (s, sc, true)

/-- The names that would need a fresh row, and whether the pool still has the rows (R361). -/
def State.scoutRows (s : State) (k : WaveKey) (sc : Scout) (names : List Nat) : Bool :=
  let copied := (sc.fresh.filter (fun n => (sc.saved.row n).isSome)).length
  copied + (names.dedup.filter (fun n => !sc.fresh.contains n)).length ≤ s.rowsFree k.core

/-- One instruction of the run, at the selected path. known: every lane of the path that read known values. (Log 26: DEDUCED.) -/
def State.scoutInstr (s : State) (k : WaveKey) (sc : Scout) (i : Instr) (run : Instr → State → Res) : State :=
  let m := s.sel.mask
  let op := opOf s.sel.word
  let u := usage i
  let unk := sc.reads u m
  let keep := fun (s : State) (sc : Scout) => { s with scouts := assocSet s.scouts k sc }
  let skip := keep s.advance (sc.writes u 0 m)
  let meaning := fun (sc : Scout) =>
    match run i s with
    | .next t =>
      if !t.hasWave k || (t.wave k).uid ≠ (s.wave k).uid || ((t.wave k).handler && !(s.wave k).handler) then keep (s.scoutStop k m) sc
      else if (t.wave k).growStall then s.scoutEnd k sc
      else keep (s.setWave k (t.wave k)) sc
    | _ => keep (s.scoutStop k m) sc
  match scoutDo op with
  | .finish => s.scoutEnd k sc
  | .stop => keep (s.scoutStop k m) sc
  | .suppress => skip
  | .branch =>
    if unk ≠ 0 then keep (s.scoutStop k m) sc
    else if !s.scoutRows k sc u.vw then s.scoutEnd k sc
    else meaning { sc.writes u m 0 with fresh := (sc.fresh ++ u.vw).dedup }
  | .load =>
    if unk ≠ 0 then skip
    else match s.scoutAccess i with
      | none => skip
      | some (checks, lanes, bypass) =>
        if (firstTrap checks).isSome then keep (s.scoutStop k m) sc
        else
          let (s', sc', ok) := s.scoutLines sc lanes bypass
          if !ok then keep (s'.scoutStop k m) sc'
          else
            let sc' := sc'.writes u 0 m
            keep s'.advance (match i with
              | .recld f => { sc' with unkB := sc'.unkB ||| (1#16 <<< (f.d.toNat % 16)) }
              | _ => sc')
  | .execute =>
    let guarded := unkLanes sc.unkP ((u.pr.filter (· ≠ 7#3)).map BitVec.toNat) &&& m ≠ 0
    if unk ≠ 0 && (isUniform s.sel.word || guarded || op = 0x5C || (0x6D ≤ op && op ≤ 0x6F)) then skip
    else if !s.scoutRows k sc u.vw then s.scoutEnd k sc
    else
      let known := if u.pr.all (· = 7#3) && u.qr.all (· = 7#3) then m &&& ~~~unk else 0
      meaning { sc.writes u known unk with fresh := (sc.fresh ++ u.vw).dedup }

/-- One move of a scouting wave (R361): its path chosen by R22 executes under R362, or the run ends. The slot that has issued it less recently
goes first. (Log 26: DEDUCED.) -/
def State.scoutMove (s : State) (k : WaveKey) (sc : Scout) (run : Instr → State → Res) : State :=
  if !s.hasWave k then { s with scouts := assocErase s.scouts k }
  else if 512 ≤ sc.count || 32 ≤ sc.pages.length then s.scoutEnd k sc
  else
    let w := s.wave k
    let ready := (s.waveCands k w).filter (fun c => !c.yields && w.ready c.got)
    let kind := decide (w.lastUni < w.lastLane)
    let mine := if ready.any (fun c => c.uniform = kind) then ready.filter (fun c => c.uniform = kind) else ready
    if (w.pathsOf (w.laneMask Lane.free)).any (fun p => (s.fetch w.ctx p.1).wide) then s.scoutEnd k sc
    else match choosePath w mine with
      | none => s.scoutEnd k sc
      | some c =>
        match c.got with
        | .instr i _ _ =>
          ((s.prepare (c.sel k (if c.uniform then .uniform else .lane) (joinMasks ready &&& ~~~c.mask))).fetchMark w.ctx c.pc).scoutInstr k
            { sc with count := sc.count + 1 } i run
        | _ => s.scoutStop k c.mask

end Sys2Proof.Machine
end

