-- ==== Sys2Proof/Machine/Pixel.lean ====
section
/-! DEFINITION. Pixel waves and the blend unit (spec/18_package_rasteriser.md R392 to R400): the four pixel instructions, ordered
sections, the launch of pixel waves and the application of fragments. -/

namespace Sys2Proof.Machine

/-! ### Passes and tiles in the state -/

/-- Change the open pass of a queue. -/
def State.modOpen (s : State) (ctx qid : Nat) (f : Pass → Pass) : State :=
  match s.openPass ctx qid with
  | none => s
  | some p =>
    let before := s.passes.takeWhile (fun q => !(q.ctx = ctx && q.qid = qid))
    { s with passes := before ++ [f p] ++ s.passes.drop (before.length + 1) }

def Pass.tile (p : Pass) (tx ty : Nat) : Option TileSt := p.tiles.find? (fun t => t.tx = tx ∧ t.ty = ty)
/-- A tile that no entry has reached yet. -/
def TileSt.fresh (tx ty : Nat) : TileSt := ⟨tx, ty, [], [], 0, 0, .idle, false, none, false, [], []⟩
def Pass.setTile (p : Pass) (t : TileSt) : Pass :=
  if p.tiles.any (fun x => x.tx = t.tx ∧ x.ty = t.ty) then
    { p with tiles := p.tiles.map (fun x => if x.tx = t.tx ∧ x.ty = t.ty then t else x) }
  else { p with tiles := p.tiles ++ [t] }
def State.setTile (s : State) (ctx qid : Nat) (t : TileSt) : State := s.modOpen ctx qid (fun p => p.setTile t)
def State.tile (s : State) (ctx qid tx ty : Nat) : Option TileSt := (s.openPass ctx qid).bind (fun p => p.tile tx ty)

/-- The queue accepts poisoned pixel data (R302, R403). -/
def State.pxpois (s : State) (ctx qid : Nat) : Bool := ((assocGet (s.context ctx).queues qid).map Queue.pxpois).getD false

/-- A pixel as a log record names it: y and x (R445; log 43: DEDUCED). -/
def pixelWord (x y : Nat) : Word := BitVec.ofNat 32 (y * 65536 + x)

/-- A PXPOIS record (R403, R445): queue, pixel, target, 8 standing for depth. (Log 43: DEDUCED.) -/
def State.logPxpois (s : State) (ctx core qid x y tgt : Nat) : State :=
  s.logRec 0x000B false (placeWord ctx core) false 0 [BitVec.ofNat 32 qid, pixelWord x y, BitVec.ofNat 32 tgt]

/-! ### Fragments -/

/-- The lanes of a mask that hold fragments. -/
def Wave.fragLanes (w : Wave) (m : LaneMask) (ok : Frag → Bool) : LaneMask :=
  match w.pixel with
  | none => 0
  | some p => m &&& p.frags.foldl (fun acc f => if ok f then acc ||| (1#32 <<< f.lane) else acc) 0

/-- The checks common to the pixel instructions, before every other (R236, R394): no open region, unless the guard is false in every lane of
e; a pixel wave. -/
def State.pixelChecks (s : State) (e : LaneMask) : List (Option TrapReq) :=
  [ s.check (e ≠ 0 && s.regionOpen s.cur.team) causeRgnViolation s.sel.mask 0,
    s.check s.cur.pixel.isNone causeIllegalOperand s.sel.mask 0 ]

/-! ### PXEXP (R395, R403) -/

/-- Whether a fragment may not export: its target has no format, depth has no target, or it has exported the same before. -/
def exportRefused (p : List Byte) (colour depth : Bool) (t : Nat) (f : Frag) : Bool :=
  (colour && (PassRec.fmt p t = 0 || f.colours.any (fun c => c.1 = t))) || (depth && (PassRec.dbase p = 0 || f.depth.isSome))

/-- The pass record of the wave's pass. -/
def State.curPass (s : State) : List Byte :=
  match s.cur.pixel with
  | none => []
  | some p => ((s.openPass p.ctx p.queue).map Pass.rec_).getD []

/-- The exports of the lanes of m, their poison cleared and logged. (Log 48: DEDUCED.) -/
def State.exportFrags (s : State) (f : VX) (m pz pzd : LaneMask) (colour depth : Bool) (t : Nat) : State :=
  let w := s.cur
  match w.pixel with
  | none => s
  | some p =>
    let s := p.frags.foldl (fun (s : State) g =>
      let s := if m.getLsbD g.lane && pz.getLsbD g.lane then s.logPxpois w.ctx s.sel.key.core p.queue g.x g.y t else s
      if m.getLsbD g.lane && pzd.getLsbD g.lane then s.logPxpois w.ctx s.sel.key.core p.queue g.x g.y 8 else s) s
    let word := fun (n lane : Nat) => if h : lane < 32 then w.vword n ⟨lane, h⟩ else 0
    s.modCur (fun w => w.mapFrags m (fun g => { g with
      colours := if colour then g.colours ++ [(t, (List.range 4).map (fun j => word (f.a.toNat + j) g.lane))] else g.colours
      depth := if depth then some (word f.b.toNat g.lane) else g.depth }))

/-- PXEXP (R395, R403): colour, depth or both, kept until the fragment ends. (Log 47: DEDUCED.) -/
def execPxexp (f : VX) (s : State) : Res :=
  let colour := !f.fn.getLsbD 4
  let depth := f.fn.getLsbD 3
  let t := (f.fn.extractLsb' 0 3).toNat
  let names := (if colour then vnames f.a 4 else []) ++ (if depth then vname f.b else [])
  match firstTrap (s.pixelChecks s.sel.mask) with
  | some x => .next (s.trap s.sel.key x)
  | none =>
    match s.laneBegin names 7#3 false [] [] with
    | .stop s => .next s
    | .go s _ =>
      let w := s.cur
      let m := w.fragLanes s.sel.mask (fun g => !g.killed)
      let bad := w.fragLanes m (exportRefused s.curPass colour depth t)
      let pz := if colour then (vnames f.a 4).foldl (fun acc n => acc ||| w.vpois n) 0 &&& m else 0
      let pzd := if depth then w.vpois f.b.toNat &&& m else 0
      let accept := (w.pixel.map (fun p => s.pxpois p.ctx p.queue)).getD false
      s.guarded [ s.check (bad ≠ 0) causeIllegalOperand bad 0,
                  s.check (!accept && (pz ||| pzd) ≠ 0) causePoison (pz ||| pzd) 0 ]
        (s.exportFrags f m pz pzd colour depth t).advance

/-! ### PXKILL (R396) -/

/-- PXKILL (R396): the fragments of the guard-true lanes end with no export, and their threads exit; a helper just exits. (Log 47: DEDUCED.) -/
def execPxkill (f : V3) (s : State) : Res :=
  match firstTrap (s.pixelChecks (s.cur.guardLanes s.sel.mask f.g f.gn)) with
  | some x => .next (s.trap s.sel.key x)
  | none =>
    match s.laneBegin [] f.g f.gn [] [] with
    | .stop s => .next s
    | .go s e =>
      .next ((s.modCur (fun w => w.mapFrags e (fun g => { g with killed := true, colours := [], depth := none }))).endThreads e)

/-! ### PXLOCK and PXREL (R397, R398) -/

/-- A fragment of lower sequence at the same pixel has neither released its section nor ended. -/
def State.sectionBarred (s : State) (p : PixelWave) (f : Frag) : Bool :=
  (s.pixelWaves p.ctx p.queue).any (fun w => w.pixel.any (fun q => q.frags.any (fun g =>
    g.x = f.x && g.y = f.y && g.seq < f.seq && ((!g.released && !w.fragEnded g) || w.fragHolds g))))

/-- Every fragment of the lanes of m that can acquire its section now does; each acquisition is an acquire at die scope, after the
wave's earlier loads. -/
def State.acquireSections (s : State) (k : WaveKey) (m : LaneMask) : State :=
  let w := s.wave k
  match w.pixel with
  | none => s
  | some p =>
    if !w.earlierDone s.nextId [.ld] then s
    else
      let can := w.fragLanes m (fun f => !f.locked && !f.killed && !s.sectionBarred p f)
      if can = 0 then s
      else
        (s.modWave k (fun w => w.mapFrags can (fun f => { f with locked := true, lockedAt := s.clock }))).acquire k.core 3 (fun c => c = w.ctx)

/-- The lanes of m whose fragments still have to acquire their section. -/
def Wave.sectionDue (w : Wave) (m : LaneMask) : LaneMask := w.fragLanes m (fun f => !f.locked && !w.fragEnded f)

/-- PXLOCK (R397): the path waits in place until every guard-true fragment of it holds its section. -/
def execPxlock (f : V3) (s : State) : Res :=
  match firstTrap (s.pixelChecks (s.cur.guardLanes s.sel.mask f.g f.gn)) with
  | some x => .next (s.trap s.sel.key x)
  | none =>
    match s.laneBegin [] f.g f.gn [] [] with
    | .stop s => .next s
    | .go s e =>
      let due := s.cur.sectionDue e
      let t := s.acquireSections s.sel.key due
      .next (if t.cur.sectionDue due = 0 then t.advance else t.waitFor (.pixelSection due))

/-- SECTION_ACQUIRE (R397): a waiting path's fragments acquire what they can; with all acquired the path moves on. -/
def execSectionAcquire (w : WaveKey) (pc : Word) (s : State) : Res :=
  match (s.wave w).waits.find? (fun y => y.pc = pc && (match y.why with
    | .pixelSection _ => true
    | _ => false)) with
  | none => .next s
  | some wt =>
    match wt.why with
    | .pixelSection m =>
      let t := s.acquireSections w m
      .next (if (t.wave w).sectionDue m = 0 then t.modWave w (fun y => y.endWait wt) else t)
    | _ => .next s

/-- PXREL (R397): a release at die scope, and then the sections of the guard-true fragments that hold one are released. -/
def execPxrel (f : V3) (s : State) : Res :=
  match firstTrap (s.pixelChecks (s.cur.guardLanes s.sel.mask f.g f.gn)) with
  | some x => .next (s.trap s.sel.key x)
  | none =>
    match s.laneBegin [] f.g f.gn [] [] with
    | .stop s => .next s
    | .go s e =>
      let m := s.cur.fragLanes e (fun g => g.locked && !g.released)
      .next (if m = 0 then s.advance else (s.pushFence (.pixelRelease m) 3).advance)

/-! ### The launch of pixel waves (R392) -/

/-- What the raster unit puts in one lane: its pixel, the covered samples, b1, b2 and the depth at the centre. -/
structure PxLane where
  lane : Nat
  x : Nat
  y : Nat
  samples : List (Nat × Word)
  b1 : Word
  b2 : Word
  z : Word
  deriving DecidableEq, Repr

/-- The lanes of up to eight quads. -/
def pxLanes (p b : List Byte) (t : Tri) (quads : List (Nat × Nat)) : List PxLane :=
  quads.zipIdx.flatMap (fun q => (quadPixels q.1).zipIdx.map (fun c =>
    let px := sixteenth (16 * c.1.1 + 8)
    let py := sixteenth (16 * c.1.2 + 8)
    let (_, e1, e2) := t.edges px py
    ⟨4 * q.2 + c.2, c.1.1, c.1.2, pixelSamples p b t c.1.1 c.1.2, roundRatio e1 t.area.natAbs 0, roundRatio e2 t.area.natAbs 0,
      depthAt b t px py⟩))

/-- A register row of a pixel wave at launch. -/
def pxRow (l : List PxLane) (live : LaneMask) (f : PxLane → Word) : Row :=
  ⟨Vector.ofFn (fun i => ((l.find? (fun x => x.lane = i.val)).map f).getD 0), 0, 0, live, 0⟩

/-- The mask of covered samples of a pixel. -/
def sampleMask (l : List (Nat × Word)) : Word := BitVec.ofNat 32 ((l.map (fun x => 2 ^ x.1)).sum)

/-- A pixel wave at launch (R392): lanes with no quad are absent, uncovered pixels are helpers. (Log 18: DEDUCED.) -/
def pixelWave (uid team ctx qid : Nat) (pass : Pass) (t : TileSt) (prim : Prim) (l : List PxLane) (recs : List (BitVec 128)) (tvec : Word) : Wave :=
  let p := pass.rec_
  let live := l.foldl (fun m x => m ||| (1#32 <<< x.lane)) 0#32
  let args := PassRec.pixArgs p
  let at_ := PrimRec.attr prim.bytes
  let w := Wave.launch uid ctx team 0 (PassRec.pixEntry p) 0 (BitVec.ofNat 32 args) (BitVec.ofNat 32 (args / 2 ^ 32)) recs tvec
  let w := { w with lanes := Vector.ofFn (fun i => if live.getLsbD i.val then w.lanes[i] else Lane.absent) }
  let w := (w.setS 3 (BitVec.ofNat 32 at_) false).setS 4 (BitVec.ofNat 32 (at_ / 2 ^ 32)) false
  let w := (w.setS 5 (BitVec.ofNat 32 prim.seq) false).setS 6 (BitVec.ofNat 32 (prim.seq / 2 ^ 32 % 65536)) false
  { w with
    rows := [(0, ⟨Vector.ofFn (fun i => BitVec.ofNat 32 i.val), 0, 0, live, 0⟩),
             (1, pxRow l live (fun x => BitVec.ofNat 32 (x.y * 65536 + x.x))),
             (2, pxRow l live (fun x => sampleMask x.samples)),
             (3, pxRow l live PxLane.b1), (4, pxRow l live PxLane.b2), (5, pxRow l live PxLane.z)]
    pixel := some ⟨ctx, qid, t.tx, t.ty, pass.recAddr, args, (l.filter (fun x => !x.samples.isEmpty)).map (fun x =>
      ⟨x.lane, x.x, x.y, prim.seq, x.samples.map (fun m => (sampleNo p t x.x x.y m.1, m.2)), false, false, false, 0, [], none⟩)⟩ }

/-- The entry being rendered has given all its quads. -/
def TileSt.nextEntry (t : TileSt) : TileSt := { t with work := t.work.drop 1, quads := 0 }

/-- PIXEL_WAVE_LAUNCH (R392): up to eight more quads of the entry being rendered start on the core that holds the tile's buffer, as a
team of one wave; an entry with no quad left gives way to the next. -/
def execPixelWaveLaunch (ctx qid tx ty : Nat) (s : State) : Res :=
  match s.openPass ctx qid with
  | none => .next s
  | some pass =>
    match pass.tile tx ty with
    | none => .next s
    | some t =>
      match t.core, t.work with
      | some core, prim :: _ =>
        let left := (tileQuads pass.rec_ prim.bytes tx ty).drop t.quads
        match left, triOf prim.bytes with
        | [], _ => .next (s.setTile ctx qid t.nextEntry)
        | _, none => .next (s.setTile ctx qid t.nextEntry)
        | _, some tri =>
          let (team, s) := s.fresh
          let (crew, s) := s.fresh
          let (task, s) := s.fresh
          let (uid, s) := s.fresh
          if !s.admits core 1 0 (.team team) crew then .next s
          else
            let quads := left.take 8
            let recs := s.records ctx (va56 ((s.context ctx).codeBase + PassRec.pixRtab pass.rec_))
            let w := pixelWave uid team ctx qid pass t prim (pxLanes pass.rec_ prim.bytes tri quads) recs (s.context ctx).tvec
            let s := s.setCrew crew ⟨crew, task, 0, 1, 0, 0, some (core / 4), s.clock, s.clock, false, false, [], false⟩
            let s := s.setTeam team { Team.absent with
              id := team
              ctx := ctx
              crew := crew
              task := task
              declared := 1
              core := core }
            let t' := { t with quads := t.quads + quads.length }
            let s := s.setTile ctx qid (if left.length ≤ 8 then t'.nextEntry else t')
            .next (s.install team core [w])
      | _, _ => .next s

/-! ### The blend unit (R393, R399, R403) -/

/-- The pixel waves of a tile, resident and saved. -/
def State.tileWaves (s : State) (ctx qid tx ty : Nat) : List Wave :=
  (s.pixelWaves ctx qid).filter (fun w => w.pixel.any (fun p => p.tx = tx && p.ty = ty))

/-- The fragments of a tile not yet applied, each with whether it has ended. -/
def State.tileFrags (s : State) (ctx qid : Nat) (t : TileSt) : List (Frag × Bool) :=
  t.ended.map (fun f => (f, true))
    ++ (s.tileWaves ctx qid t.tx t.ty).flatMap (fun w => ((w.pixel.map PixelWave.frags).getD []).map (fun f => (f, w.fragEnded f)))

/-- The fragment the blend unit takes next: of those that have ended and that no unapplied fragment of lower sequence shares a sample
with, the lowest in sequence. -/
def nextFrag (l : List (Frag × Bool)) : Option Frag :=
  ((l.filter (fun f => f.2 && !(l.any (fun g => g.1.seq < f.1.seq && g.1.samples.any (fun x => f.1.samples.any (fun y => x.1 = y.1)))))).map
    Prod.fst).foldl (fun best f => match best with
      | none => some f
      | some b => if f.seq < b.seq then some f else some b) none

/-- A fragment leaves its wave and its tile. -/
def State.dropFrag (s : State) (ctx qid tx ty : Nat) (f : Frag) : State :=
  let ours := fun (w : Wave) => match w.pixel with
    | some p => if p.ctx = ctx && p.queue = qid && p.tx = tx && p.ty = ty then { w with pixel := some { p with frags := p.frags.erase f } } else w
    | none => w
  let s := { s with
    waves := s.waves.map (fun (p : WaveKey × Wave) => (p.1, ours p.2))
    teams := s.teams.map (fun (p : Nat × Team) => (p.1, { p.2 with saved := p.2.saved.map (fun (ws : List Wave) => ws.map ours) })) }
  s.modOpen ctx qid (fun p => match p.tile tx ty with
    | some t => p.setTile { t with ended := t.ended.erase f }
    | none => p)

/-- BLEND_APPLY (R393): the exports of the next fragment of a tile that may be applied reach its samples; of one that ended without exports
nothing does. (Log 48: DEDUCED.) -/
def execBlendApply (ctx qid tx ty : Nat) (s : State) : Res :=
  match s.openPass ctx qid with
  | none => .next s
  | some pass =>
    match pass.tile tx ty with
    | none => .next s
    | some t =>
      if t.core.isNone then .next s
      else match nextFrag (s.tileFrags ctx qid t) with
        | none => .next s
        | some f =>
          let t' := if f.killed || (f.colours.isEmpty && f.depth.isNone) then t else t.apply pass.rec_ f
          .next ((s.setTile ctx qid t').dropFrag ctx qid tx ty f)

end Sys2Proof.Machine
end

