-- ==== Sys2Proof/Machine/Raster.lean ====
section
/-! DEFINITION. Render passes (spec/18_package_rasteriser.md): PRIM (R379, R380), the ashlar exchange and the order point (R381 to R383),
bins, flushes and reopens (R384 to R387), tile buffers (R388 to R390), the end of a pass (R372) and the abort of a render queue (R401,
R403, R452). -/

namespace Sys2Proof.Machine

/-! ### The abort of a render queue (R401) -/

/-- A team is stopped and discarded with all it holds. -/
def State.discardTeam (s : State) (t : Nat) : State :=
  let s := s.dropHeld t
  let s := if (s.team t).resident then (s.keepPlace t).vacate t else s
  ({ s with teams := assocErase s.teams t } : State).groupLeave t

/-- The crews that work for a queue: those of its tasks, and those of its pixel teams. -/
def State.queueCrews (s : State) (ctx qid : Nat) : List Nat :=
  let tasks := (s.tasks.filter (fun t => t.2.ctx = ctx ∧ t.2.queue = qid)).map Prod.fst
  let px := (s.teams.filter (fun t => (s.wavesOf t.1).any (fun w => w.pixel.any (fun p => p.ctx = ctx && p.queue = qid)))).map (fun t => t.2.crew)
  (s.crews.filter (fun c => tasks.contains c.2.task || px.contains c.1)).map Prod.fst

/-- Step 1 of R401. -/
def State.discardQueue (s : State) (ctx qid : Nat) : State :=
  let crews := s.queueCrews ctx qid
  let teams := (s.teams.filter (fun t => crews.contains t.2.crew)).map Prod.fst
  let s := teams.foldl State.discardTeam s
  ({ s with
    crews := s.crews.filter (fun c => !crews.contains c.1)
    tasks := s.tasks.filter (fun t => !(t.2.ctx = ctx ∧ t.2.queue = qid))
    dies := s.dies.map (fun (d : Nat × Die) => (d.1, { d.2 with reserved := d.2.reserved.filter (fun r => !crews.contains r.2) }))
    chosen := s.chosen.filter (fun c => !(c.1 = ctx && c.2.1 = qid)) } : State).groupsAgain

/-- Step 2 of R401: no committed record of the queue is left. -/
def State.dropQueued (s : State) (ctx qid : Nat) : State :=
  let q := s.queue ctx qid
  let s := if s.blockOk ctx q then
      let c := s.blockWord ctx q 20
      (s.blockPut ctx q 24 c).blockPut ctx q 28 c
    else s
  s.setQueue ctx qid { q with head := none, headReady := false, running := [], triggered := true, aborted := true }

/-- The tile buffers of a queue are freed. -/
def State.freeBuffers (s : State) (ctx qid : Nat) : State :=
  (s.cores.map Prod.fst).foldl (fun (s : State) c =>
    if (s.core c).tiles.any (fun b => b.ctx = ctx && b.queue = qid) then
      (s.modCore c (fun x => { x with tiles := x.tiles.filter (fun b => !(b.ctx = ctx && b.queue = qid)) })).shrinkScratch c
    else s) s

/-- A render queue is aborted (R401): its work is discarded, its opened tiles are written as they stand, a RASTER record is written and
the host notified; the context goes on. (Log 53: DEDUCED.) -/
def State.abortQueue (s : State) (ctx qid cause : Nat) (what : List Word) : State :=
  let s := s.writeTiles ctx qid
  let s := ((s.discardQueue ctx qid).dropQueued ctx qid).freeBuffers ctx qid
  let s := { s with passes := s.passes.filter (fun p => !(p.ctx = ctx ∧ p.qid = qid)), lastDepEval := none }
  let s := s.logRec 0x0008 false (placeWord ctx 0) false cause ([BitVec.ofNat 32 cause, BitVec.ofNat 32 qid] ++ what)
  s.hostEvent (s.context ctx).session (BitVec.ofNat 32 ctx) (wordLe 2 ++ wordLe (BitVec.ofNat 32 qid) ++ wordLe (BitVec.ofNat 32 cause))

/-! ### The raster unit's own accesses (R452) -/

/-- How a range can be reached, tried once for each page. -/
def State.areaReach (s : State) (ctx va n : Nat) (acc : Access) : Reach :=
  (((pagePoints va n).map (fun v => s.engineReach ctx v 1 acc)).find? (fun r => r ≠ .ok)).getD .ok

/-- The cause of an access that cannot be made: what its translation raises, or a page refused. -/
def State.reachCause (s : State) (ctx va : Nat) (acc : Access) : Nat :=
  match s.translate ctx va acc with
  | .fault c _ _ => c
  | _ => causePageFault

/-- Go on when every range can be reached; ask for a page, wait, or abort the queue. -/
def State.rasterTry (s : State) (ctx qid : Nat) (acc : Access) (areas : List (Nat × Nat)) (go : State → Res) : Res :=
  match (areas.map (fun a => s.areaReach ctx a.1 a.2 acc)).find? (fun r => r ≠ .ok) with
  | some (.ask va) => .next (s.askPage ctx va acc.code)
  | some (.fail va) =>
    .next ((s.dropFault ctx va).abortQueue ctx qid (s.reachCause ctx va acc) [BitVec.ofNat 32 va, BitVec.ofNat 32 (va / 2 ^ 32)])
  | some _ => .next s
  | none => go s

/-- RASTER_ACCESS_FAULT (R452): an access of the raster unit fails beyond translation, or at an address it cannot reach. -/
def execRasterAccessFault (ctx qid addr : Nat) (cause : BitVec 8) (s : State) : Res :=
  if (s.openPass ctx qid).isSome && 0x08 ≤ cause.toNat && cause.toNat ≤ 0x0C then
    .next (s.abortQueue ctx qid cause.toNat [BitVec.ofNat 32 addr, BitVec.ofNat 32 (addr / 2 ^ 32)])
  else .next s

/-! ### PRIM (R379, R380) -/

/-- The open pass that the issuing task is a render task of. -/
def State.primPass (s : State) : Option Pass :=
  match assocGet s.tasks s.curTeam.task with
  | none => none
  | some x => (s.openPass x.ctx x.queue).filter (fun p => p.hasTask x.ctx x.queue x.num)

/-- The records of a PRIM, as the scratchpad holds them. -/
def Team.prims (t : Team) (a n : Nat) : List (List Byte) := (List.range n).map (fun i => (t.spBytes (a + 48 * i) 48).map MByte.val)

/-- One past the last index when the records' indexes rise from a bound on. -/
def risingFrom : Nat → List (List Byte) → Option Nat
  | next, [] => some next
  | next, b :: t => if next ≤ PrimRec.idx b then risingFrom (PrimRec.idx b + 1) t else none

def Pass.openGrain (p : Pass) (n : Nat) : Option Grain := p.grains.find? (fun g => g.n = n ∧ !g.closed)

/-- Row 7 of R380. -/
def Pass.refusesPrim (p : Pass) (n : Nat) (recs : List (List Byte)) : Bool :=
  n < PassRec.gfirst p.rec_ || PassRec.glast p.rec_ ≤ n || recs.any (fun b => PrimRec.illegal b (PassRec.gsize p.rec_))
    || (match p.openGrain n with
        | none => true
        | some g => (risingFrom g.next recs).isNone)

/-- A grain after the records of one PRIM. -/
def Pass.noteSent (p : Pass) (n : Nat) (recs : List (List Byte)) (close : Bool) : Pass :=
  { p with grains := p.grains.map (fun g => if g.n = n then { g with next := (risingFrom g.next recs).getD g.next, closed := close } else g) }

/-- PRIM (R379, R380): the records are read at issue, and the path waits for the exchange port. (Log 50: DEDUCED.) -/
def execPrim (f : UC) (s : State) : Res :=
  let w := s.cur
  let path := s.sel.mask
  let a := (w.sreg f.a 0).toNat
  let n := (w.sreg f.b 0).toNat
  let grain := (w.spair f.c).toNat
  match firstTrap
    [ s.check (!w.sregPois f.b && 64 < n) causeIllegalOperand path 0,
      s.check (s.regionOpen w.team) causeRgnViolation path 0,
      s.check s.primPass.isNone causeIllegalOperand path 0 ] with
  | some x => .next (s.trap s.sel.key x)
  | none =>
    let pois := w.sregPois f.a || w.sregPois f.b || w.spairPois f.c
    let (s, bad, _) := s.spParity path (fun _ => if pois then [] else (List.range (12 * n)).map (fun j => a + 4 * j))
    let t := s.curTeam
    let recs := t.prims a n
    match s.primPass with
    | none => .next s
    | some p =>
      s.guarded
        [ s.check (pois || !bad.isEmpty || (t.spBytes a (48 * n)).any MByte.pois) causePoison path 0,
          s.check (a % 16 ≠ 0) causeMisalign path (BitVec.ofNat 64 a),
          s.check (t.spSize < a + 48 * n) causeBounds path (BitVec.ofNat 64 a),
          s.check (p.refusesPrim grain recs) causeIllegalOperand path 0 ]
        ((s.modOpen p.ctx p.qid (fun p => p.noteSent grain recs (f.fn.getLsbD 0))).waitFor (.prim recs grain (f.fn.getLsbD 0)))

/-- An earlier PRIM of the same grain still waits for its port (R381 step 5). (Log 50: DEDUCED.) -/
def State.primBefore (s : State) (ctx qid grain since : Nat) : Bool :=
  (s.waves.map Prod.snd ++ s.teams.flatMap (fun t => t.2.saved.getD [])).any (fun w =>
    w.ctx = ctx && (s.task (s.team w.team).task).queue = qid && w.waits.any (fun y => match y.why with
      | .prim _ g _ => g = grain && y.since < since
      | _ => false))

/-- PRIM_ACCEPT (R379): the exchange port of the wave's die takes the records of a waiting PRIM, in address order. -/
def execPrimAccept (w : WaveKey) (pc : Word) (s : State) : Res :=
  let x := s.wave w
  match x.waits.find? (fun y => y.pc = pc && (match y.why with
    | .prim _ _ _ => true
    | _ => false)) with
  | none => .next s
  | some wt =>
    match wt.why with
    | .prim recs grain close =>
      let t := s.task (s.team x.team).task
      if !x.waitRuns wt || s.primBefore t.ctx t.queue grain wt.since then .next s
      else
        let s := s.modOpen t.ctx t.queue (fun p => { p with
          port := p.port ++ recs.map (fun b => (⟨dieOf w.core, grain, some ⟨grain, grain * PassRec.gsize p.rec_ + PrimRec.idx b, b⟩⟩ : PortItem))
            ++ (if close then [(⟨dieOf w.core, grain, none⟩ : PortItem)] else []) })
        .next (s.modWave w (fun y => y.endWait wt))
    | _ => .next s

/-! ### The ashlar exchange (R381) -/

def State.countDie (s : State) (d : Nat) (f : DieCounters → DieCounters) : State := s.modDie d (fun x => x.count f)

def Pass.sentTo (p : Pass) (grain die : Nat) : Nat := (assocGet p.sent (grain, die)).getD 0

/-- The dies that own a tile which a record may cover. -/
def Pass.recOwners (p : Pass) (b : List Byte) : List Nat :=
  ((recTiles b (PassRec.width p.rec_) (PassRec.height p.rec_)).map (fun t => PassRec.owner p.rec_ t.1 t.2)).dedup

/-- A port forwards one record to its owners, and counts it for each. -/
def Pass.forward (p : Pass) (r : Prim) : Pass :=
  (p.recOwners r.bytes).foldl (fun (p : Pass) d => { p with
    exchange := p.exchange ++ [(d, r)]
    sent := assocSet p.sent (r.grain, d) (p.sentTo r.grain d + 1) }) p

/-- EXCHANGE_FORWARD (R381): the next item at the ports: a record is dropped or forwarded, a close sends a marker to every die. -/
def execExchangeForward (ctx qid : Nat) (s : State) : Res :=
  match s.openPass ctx qid with
  | none => .next s
  | some p =>
    match p.port with
    | [] => .next s
    | it :: rest =>
      let next := fun (s : State) (f : Pass → Pass) => s.modOpen ctx qid (fun p => f { p with port := rest })
      match it.prim with
      | none => .next (next s (fun p => { p with markers := p.markers ++ (List.range Config.dies).map (fun d => (d, it.grain, p.sentTo it.grain d)) }))
      | some r =>
        if recDropped r.bytes (PassRec.width p.rec_) (PassRec.height p.rec_) then
          .next ((next s id).countDie it.die (fun c => { c with primdrop := satInc c.primdrop }))
        else .next (next s (fun p => p.forward r))

/-! ### Owners and the order point (R382) -/

def OwnerSt.initial (die first clock : Nat) : OwnerSt := ⟨die, first, clock, [], []⟩
def Pass.owner (p : Pass) (d : Nat) : OwnerSt := (p.owners.find? (fun o => o.die = d)).getD (OwnerSt.initial d (PassRec.gfirst p.rec_) 0)
def Pass.setOwner (p : Pass) (o : OwnerSt) : Pass := { p with owners := p.owners.map (fun x => if x.die = o.die then o else x) }

/-- A grain is complete at an owner: its marker has arrived and its count is met. -/
def OwnerSt.complete (o : OwnerSt) (n : Nat) : Bool :=
  match assocGet o.closed n with
  | none => false
  | some c => (assocGet o.received n).getD 0 = c

/-- The order point passes every complete grain. -/
def OwnerSt.advance (o : OwnerSt) (clock : Nat) : Nat → OwnerSt
  | 0 => o
  | n + 1 => if o.complete o.orderPoint then OwnerSt.advance { o with orderPoint := o.orderPoint + 1, movedAt := clock } clock n else o

/-- What has arrived is taken note of, and the order point advances. -/
def Pass.atOwner (p : Pass) (d clock : Nat) (f : OwnerSt → OwnerSt) : Pass :=
  let o := f (p.owner d)
  p.setOwner (o.advance clock o.closed.length)

/-- The entries of a tile that are eligible (R382). -/
def Pass.eligible (p : Pass) (t : TileSt) : List Prim :=
  let op := (p.owner (PassRec.owner p.rec_ t.tx t.ty)).orderPoint
  t.bin.filter (fun r => r.grain ≤ op)

/-! ### Bins and flushes (R384, R385) -/

/-- The open pass of every queue. -/
def State.openPasses (s : State) : List Pass := s.passes.filter (fun p => s.openPass p.ctx p.qid = some p)
/-- The tiles of a die, each with its pass. -/
def State.dieTiles (s : State) (d : Nat) : List (Pass × TileSt) :=
  s.openPasses.flatMap (fun p => (p.tiles.filter (fun t => PassRec.owner p.rec_ t.tx t.ty = d)).map (fun t => (p, t)))
/-- Entries of a die's pool: 64 bytes each. -/
def State.binCap (s : State) : Nat := s.binPool * 16384
def State.binFree (s : State) (d : Nat) : Nat := s.binCap - ((s.dieTiles d).map (fun x => x.2.bin.length + x.2.taken)).sum
/-- Entries that flushes under way will free. -/
def State.binComing (s : State) (d : Nat) : Nat := ((s.dieTiles d).map (fun x => x.2.taken)).sum

/-- Put an entry in its place by sequence number. -/
def insertPrim (r : Prim) : List Prim → List Prim
  | [] => [r]
  | x :: t => if r.seq < x.seq then r :: x :: t else x :: insertPrim r t
def sortPrims (l : List Prim) : List Prim := l.foldr insertPrim []

/-- A tile starts to render: its eligible entries in sequence order. -/
def Pass.beginTile (p : Pass) (t : TileSt) (phase : TilePhase) : TileSt :=
  let work := sortPrims (p.eligible t)
  { t with work := work, bin := t.bin.filter (fun r => !work.contains r), taken := work.length, quads := 0, phase := phase }
def State.beginFlush (s : State) (p : Pass) (t : TileSt) : State := s.setTile p.ctx p.qid (p.beginTile t .flushing)

/-- The tile of a list, idle and with an eligible entry, that has the most. -/
def fullest (l : List (Pass × TileSt)) : Option (Pass × TileSt) :=
  (l.filter (fun x => x.2.phase = .idle && !(x.1.eligible x.2).isEmpty)).foldl (fun best x => match best with
    | none => some x
    | some b => if (b.1.eligible b.2).length < (x.1.eligible x.2).length then some x else some b) none

/-- The bin of a tile exceeds TILECAP (first row of R385). -/
def Pass.overCap (p : Pass) (t : TileSt) : Bool := PassRec.tilecap p.rec_ ≠ 0 && PassRec.tilecap p.rec_ * 1024 < t.bin.length * 64

/-- The second row of R385: the pool of a die is below 1/16; tiles are flushed until 1/8 will be free. (Log 51: DEDUCED.) -/
def State.easePool (d : Nat) : Nat → State → State
  | 0, s => s
  | n + 1, s =>
    if s.binCap / 8 ≤ s.binFree d + s.binComing d then s
    else match fullest (s.dieTiles d) with
      | none => s
      | some x => State.easePool d n (s.beginFlush x.1 x.2)

/-- The first two rows of R385 on a die. -/
def State.flushRules (s : State) (d : Nat) : State :=
  let s := (s.dieTiles d).foldl (fun (s : State) x =>
    if x.2.phase = .idle && x.1.overCap x.2 && !(x.1.eligible x.2).isEmpty then s.beginFlush x.1 x.2 else s) s
  if s.binFree d * 16 < s.binCap then State.easePool d (s.dieTiles d).length s else s

/-- The tiles of a die that a record covers. -/
def Pass.coveredTiles (p : Pass) (d : Nat) (b : List Byte) : List TileSt :=
  ((recTiles b (PassRec.width p.rec_) (PassRec.height p.rec_)).filter (fun t => PassRec.owner p.rec_ t.1 t.2 = d)).map (fun t =>
    (p.tile t.1 t.2).getD (TileSt.fresh t.1 t.2))

/-- The record that an owner takes next: of its order-point grain if there is one, else the first of those on their way. -/
def Pass.nextRecord (p : Pass) (d : Nat) : Option Prim :=
  let mine := (p.exchange.filter (fun x => x.1 = d)).map Prod.snd
  match mine.find? (fun r => r.grain = (p.owner d).orderPoint) with
  | some r => some r
  | none => mine.head?

def OwnerSt.receive (r : Prim) (o : OwnerSt) : OwnerSt := { o with received := assocSet o.received r.grain ((assocGet o.received r.grain).getD 0 + 1) }

/-- The third row of R385: a record of the order-point grain has found no entry. Covered tiles with eligible entries are flushed, else the
fullest other; with no eligible entry on the die the record alone is rendered into the tiles it covers. (Log 51: DEDUCED.) -/
def State.makeRoom (s : State) (p : Pass) (d : Nat) (r : Prim) : State :=
  let cov := p.coveredTiles d r.bytes
  let ours := cov.filter (fun t => !(p.eligible t).isEmpty)
  if (s.dieTiles d).any (fun x => x.2.taken ≠ 0) then s
  else if !ours.isEmpty then (ours.filter (fun t => t.phase = .idle)).foldl (fun (s : State) t => s.beginFlush p t) s
  else match fullest (s.dieTiles d) with
    | some x => s.beginFlush x.1 x.2
    | none =>
      if cov.all (fun t => t.phase = .idle) then
        s.modOpen p.ctx p.qid (fun p =>
          let p := cov.foldl (fun (p : Pass) t => p.setTile { t with work := [r], quads := 0, taken := 0, phase := .flushing }) p
          { p with exchange := p.exchange.erase (d, r) }.atOwner d s.clock (OwnerSt.receive r))
      else s

/-- RECORD_BIN (R384, R385): a record that reaches an owner enters the bins of the tiles it covers, or waits for entries. -/
def execRecordBin (ctx qid die : Nat) (s : State) : Res :=
  match s.openPass ctx qid with
  | none => .next s
  | some p =>
    match p.nextRecord die with
    | none => .next s
    | some r =>
      let cov := p.coveredTiles die r.bytes
      if cov.length ≤ s.binFree die then
        let s := s.modOpen ctx qid (fun p =>
          let p := cov.foldl (fun (p : Pass) t => p.setTile { t with bin := t.bin ++ [r] }) p
          { p with exchange := p.exchange.erase (die, r) }.atOwner die s.clock (OwnerSt.receive r))
        .next (s.flushRules die)
      else if r.grain = (p.owner die).orderPoint then .next (s.makeRoom p die r)
      else .next s

/-- CLOSE_MARKER_ARRIVAL (R381, R382): the marker of a grain reaches a die. -/
def execCloseMarkerArrival (ctx qid die grain : Nat) (s : State) : Res :=
  match s.openPass ctx qid with
  | none => .next s
  | some p =>
    match p.markers.find? (fun m => m.1 = die ∧ m.2.1 = grain) with
    | none => .next s
    | some m =>
      .next ((s.modOpen ctx qid (fun p =>
        { p with markers := p.markers.erase m }.atOwner die s.clock (fun o => { o with closed := assocSet o.closed grain m.2.2 }))).flushRules die)

/-! ### Tile buffers (R386 to R389) -/

def bufKib (p : Pass) : Nat := (PassRec.bufSize p.rec_ + 1023) / 1024

/-- A core would grant so many KiB at once (R162, R171, R389). -/
def State.grants (s : State) (core kib : Nat) (by_ : Requester) : Bool :=
  let c := s.core core
  c.inService && !c.emptying && s.barOpen core by_ && (s.placeScratch core kib).isSome

/-- A split change would make room on a core. -/
def State.bufSplit (s : State) (core kib : Nat) : Option Nat :=
  let c := s.core core
  if c.inService && !c.emptying && c.split.isNone then (s.splitTarget core kib).filter (fun g => s.splitPossible core g) else none

/-- The areas that opening a tile reads: the targets that are loaded, or the slot; and the pixel record table. -/
def State.openAreas (s : State) (p : Pass) (t : TileSt) : List (Nat × Nat) :=
  (if t.saved then [(PassRec.slot p.rec_ t.tx t.ty, PassRec.bufSize p.rec_)]
   else ((t.rows p.rec_).filter (fun r => if r.1 = 8 then PassRec.dload p.rec_ else PassRec.load p.rec_ r.1)).map (fun r =>
     (r.2.2, (tileSpan t.tx (PassRec.width p.rec_)).length * PassRec.samples p.rec_ * PassRec.bytesOf p.rec_ r.1)))
    ++ [(va56 ((s.context p.ctx).codeBase + PassRec.pixRtab p.rec_), 64)]

/-- The samples of one row of a target as memory holds them; a poisoned byte poisons its sample (R452). -/
def State.loadRow (s : State) (p : Pass) (t : TileSt) (r : Nat × Nat × Nat) : List (Nat × Sample) :=
  let b := p.rec_
  let n := PassRec.bytesOf b r.1
  let k := PassRec.samples b
  (tileSpan t.tx (PassRec.width b)).zipIdx.flatMap (fun x => (List.range k).map (fun j =>
    let m := s.vaBytes p.ctx (va56 (r.2.2 + (x.2 * k + j) * n)) n
    (16 * sampleNo b t x.1 r.2.1 j + r.1,
      (⟨(List.range (n / 4)).map (fun i => leWord (((m.drop (4 * i)).take 4).map MByte.val)), m.any MByte.pois⟩ : Sample))))

/-- The samples of a tile opened for the first time (R388): loaded or, not listed, clear. -/
def State.openSamples (s : State) (p : Pass) (t : TileSt) : List (Nat × Sample) :=
  ((t.rows p.rec_).filter (fun r => if r.1 = 8 then PassRec.dload p.rec_ else PassRec.load p.rec_ r.1)).flatMap (s.loadRow p t)

/-- Poison met in the slot comes back as poison (R387); which samples a sector holds is not the spec's to say: all of the tile. -/
def State.reloadTile (s : State) (p : Pass) (t : TileSt) : TileSt :=
  let bad := (s.vaBytes p.ctx (PassRec.slot p.rec_ t.tx t.ty) 1).any MByte.pois
    || (pagePoints (PassRec.slot p.rec_ t.tx t.ty) (PassRec.bufSize p.rec_)).any (fun v =>
        let pa := s.paOf p.ctx v .read
        let lo := v % 65536
        let n := min (65536 - lo) (PassRec.slot p.rec_ t.tx t.ty + PassRec.bufSize p.rec_ - v)
        s.poisoned.any (fun q => overlaps (32 * q) 32 pa n))
  if bad then
    t.poison p.rec_ ((tileSpan t.ty (PassRec.height p.rec_)).flatMap (fun y => (tileSpan t.tx (PassRec.width p.rec_)).map (fun x => (x, y))))
  else t

/-- A tile's buffer is granted on a core: the tile is opened or reopened there. -/
def State.openTile (s : State) (p : Pass) (t : TileSt) (core : Nat) : State :=
  let t' := if t.saved then s.reloadTile p t else { t with samples := s.openSamples p t }
  let base := (s.placeScratch core (bufKib p)).getD 0
  let s := s.modCore core (fun c => { c with tiles := c.tiles ++ [⟨p.ctx, p.qid, t.tx, t.ty, base, bufKib p⟩] })
  let s := s.endBar core (.tile p.ctx p.qid t.tx t.ty)
  let s := (s.openAreas p t).foldl (fun (s : State) a => (pagePoints a.1 a.2).foldl (fun s v => s.markRange p.ctx v 1 .read) s) s
  let s := if t.saved then s.countDie (PassRec.owner p.rec_ t.tx t.ty) (fun c => { c with reopens := satInc c.reopens }) else s
  s.setTile p.ctx p.qid { t' with core := some core, opened := true }

/-- The core that a tile's buffer goes to (R389): the first of the die that grants it at once. -/
def State.bufCore (s : State) (p : Pass) (t : TileSt) : Option Nat :=
  let d := PassRec.owner p.rec_ t.tx t.ty
  (List.range 128).findSome? (fun i => if s.grants (d * 128 + i) (bufKib p) (.tile p.ctx p.qid t.tx t.ty) then some (d * 128 + i) else none)
/-- The core and granules of the split change that a tile waits for when none grants. -/
def State.bufSplitCore (s : State) (p : Pass) (t : TileSt) : Option (Nat × Nat) :=
  let d := PassRec.owner p.rec_ t.tx t.ty
  if s.cores.any (fun c => c.2.split.any (fun x => x.by_ = some (.tile p.ctx p.qid t.tx t.ty))) then none
  else (List.range 128).findSome? (fun i => (s.bufSplit (d * 128 + i) (bufKib p)).map (fun g => (d * 128 + i, g)))

/-- A tile is being rendered and has no buffer. -/
def TileSt.wantsBuffer (t : TileSt) : Bool := (t.phase = .flushing || t.phase = .closing) && t.core.isNone

/-- TILE_BUFFER_GRANT (R389): the buffer is granted on a core, or a split change begins there. -/
def execTileBufferGrant (ctx qid tx ty core : Nat) (s : State) : Res :=
  match s.openPass ctx qid with
  | none => .next s
  | some p =>
    match p.tile tx ty with
    | none => .next s
    | some t =>
      if !t.wantsBuffer then .next s
      else match s.bufCore p t with
        | some c => if c = core then s.rasterTry ctx qid .read (s.openAreas p t) (fun s => .next (s.openTile p t core)) else .next s
        | none => match s.bufSplitCore p t with
          | some (c, g) => .next (if c = core then s.startSplit core g (.tile ctx qid tx ty) else s)
          | none => .next s

/-- The buffer of a tile is freed. -/
def State.freeBuffer (s : State) (ctx qid tx ty core : Nat) : State :=
  (s.modCore core (fun c => { c with tiles := c.tiles.filter (fun b => !(b.ctx = ctx && b.queue = qid && b.tx = tx && b.ty = ty)) })).shrinkScratch core

/-- A range of physical memory takes bytes that the spec leaves open, without poison (R385 step 3; log 7: DESIGN CHOICE). (Log 52: DESIGN CHOICE.) -/
def State.fillFree (s : State) (pa n : Nat) : State :=
  let fresh := (List.range n).filterMap (fun i =>
    let v := Config.freeByte (s.freeCount + i)
    if v = 0 then none else some (pa + i, v))
  { s with
    mem := s.mem.filter (fun c => c.1 < pa) ++ fresh ++ s.mem.filter (fun c => pa + n ≤ c.1)
    poisoned := s.poisoned.filter (fun q => !(pa ≤ 32 * q && 32 * q + 32 ≤ pa + n))
    freeCount := s.freeCount + n }

/-- The compressed tile is written to its slot. -/
def State.fillSlot (s : State) (ctx va n : Nat) : State :=
  (pagePoints va n).foldl (fun (s : State) v =>
    let s := s.markRange ctx v 1 .write
    s.fillFree (s.paOf ctx v .write) (min (65536 - v % 65536) (va + n - v))) s

/-- A tile is saved to its slot and gives its buffer up. (Log 52: DESIGN CHOICE.) -/
def State.saveTile (s : State) (p : Pass) (t : TileSt) (core : Nat) (t' : TileSt) : State :=
  let s := s.fillSlot p.ctx (PassRec.slot p.rec_ t.tx t.ty) (PassRec.bufSize p.rec_)
  let s := s.countDie (PassRec.owner p.rec_ t.tx t.ty) (fun c => { c with flushes := satInc c.flushes })
  (s.setTile p.ctx p.qid { t' with core := none, saved := true }).freeBuffer p.ctx p.qid t.tx t.ty core

/-- Every fragment of the work begun has been applied and its waves have ended. -/
def State.tileDone (s : State) (p : Pass) (t : TileSt) : Bool :=
  t.work.isEmpty && (s.tileWaves p.ctx p.qid t.tx t.ty).isEmpty && t.ended.isEmpty

/-- The tile has a pixel team that was saved, and none resident: its core is wanted for other work (R403). -/
def State.tileEvicted (s : State) (p : Pass) (t : TileSt) : Bool :=
  let mine := fun (w : Wave) => w.pixel.any (fun x => x.ctx = p.ctx && x.queue = p.qid && x.tx = t.tx && x.ty = t.ty)
  s.teams.any (fun x => (x.2.saved.getD []).any mine) && !(s.waves.any (fun w => mine w.2))

/-- TILE_FLUSH (R385, R403): a flush that has rendered its entries saves its tile; a tile whose pixel teams have been saved is saved with
them; an idle tile starts as the rules of its die say. -/
def execTileFlush (ctx qid die tx ty : Nat) (s : State) : Res :=
  match s.openPass ctx qid with
  | none => .next s
  | some p =>
    match p.tile tx ty with
    | none => .next s
    | some t =>
      if PassRec.owner p.rec_ tx ty ≠ die then .next s
      else
        let area := [(PassRec.slot p.rec_ tx ty, PassRec.bufSize p.rec_)]
        match t.phase, t.core with
        | .flushing, some core =>
          if s.tileDone p t then
            s.rasterTry ctx qid .write area (fun s => .next ((s.saveTile p t core { t with phase := .idle, taken := 0, work := [] }).flushRules die))
          else if s.tileEvicted p t then s.rasterTry ctx qid .write area (fun s => .next (s.saveTile p t core t))
          else .next s
        | .closing, some core =>
          if s.tileEvicted p t then s.rasterTry ctx qid .write area (fun s => .next (s.saveTile p t core t)) else .next s
        | .idle, _ => .next (s.flushRules die)
        | _, _ => .next s

/-! ### The end of a pass (R372, R390) -/

/-- The PXPOIS records of a tile that is written with its poison cleared (R403). -/
def State.logTilePoison (s : State) (p : Pass) (t : TileSt) : State :=
  (t.rows p.rec_).foldl (fun (s : State) r =>
    (t.poisonedPixels p.rec_ r.1 r.2.1).foldl (fun (s : State) x => s.logPxpois p.ctx (PassRec.owner p.rec_ t.tx t.ty * 128) p.qid x r.2.1 r.1) s) s

/-- A closed tile is written to the targets and gives its buffer up. -/
def State.closeTile (s : State) (p : Pass) (t : TileSt) (core : Nat) : Res :=
  let areas := (t.rows p.rec_).map (fun r => (r.2.2, (tileSpan t.tx (PassRec.width p.rec_)).length * PassRec.samples p.rec_ * PassRec.bytesOf p.rec_ r.1))
  s.rasterTry p.ctx p.qid .write areas (fun s =>
    let clear := s.pxpois p.ctx p.qid
    let s := if clear then s.logTilePoison p t else s
    let s := s.writeTile p.ctx p.rec_ t clear
    .next ((s.setTile p.ctx p.qid { t with phase := .written, core := none, taken := 0 }).freeBuffer p.ctx p.qid t.tx t.ty core))

/-- PASS_RENDER (R390): with every grain complete at an owner, its tiles that are binned or saved are rendered and written. -/
def execPassRender (ctx qid die : Nat) (s : State) : Res :=
  match s.openPass ctx qid with
  | none => .next s
  | some p =>
    if (p.owner die).orderPoint < PassRec.glast p.rec_ then .next s
    else
      let mine := p.tiles.filter (fun t => PassRec.owner p.rec_ t.tx t.ty = die)
      match mine.find? (fun t => t.phase = .closing && t.core.isSome && s.tileDone p t) with
      | some t => match t.core with
        | some core => s.closeTile p t core
        | none => .next s
      | none =>
        .next ((mine.filter (fun t => t.phase = .idle && (t.saved || !t.bin.isEmpty))).foldl (fun (s : State) t =>
          s.setTile ctx qid (p.beginTile t .closing)) s)

/-- Every grain is complete at every die and every tile that was opened or binned is written. -/
def Pass.finished (p : Pass) : Bool :=
  (List.range Config.dies).all (fun d => PassRec.glast p.rec_ ≤ (p.owner d).orderPoint) && p.tiles.all (fun t => t.phase = .written)

/-- The status of a pass (R372): that of its render tasks, ended or not, and of its pixel teams. -/
def State.finalStatus (s : State) (p : Pass) : Nat :=
  (s.tasks.filter (fun t => p.hasTask t.2.ctx t.2.queue t.2.num)).foldl (fun acc t => acc ||| t.2.status) p.status

/-- The open pass of a queue is over: the next one opens now. -/
def State.closePass (s : State) (p : Pass) : State :=
  let before := s.passes.takeWhile (fun q => !(q.ctx = p.ctx && q.qid = p.qid))
  let s : State := { s with passes := before ++ s.passes.drop (before.length + 1), lastDepEval := none }
  s.modOpen p.ctx p.qid (fun q => { q with owners := q.owners.map (fun o => { o with movedAt := s.clock }) })

/-- PASS_END (R372, R339): the pass's completion record is written. -/
def execPassEnd (ctx qid : Nat) (s : State) : Res :=
  match s.openPass ctx qid with
  | none => .next s
  | some p =>
    if !p.finished then .next s
    else if PassRec.crec p.rec_ = 0 then .next (s.closePass p)
    else s.rasterTry ctx qid .write [(PassRec.crec p.rec_, 16)] (fun s =>
      .next ((s.writeCompletion ctx (PassRec.crec p.rec_) (s.finalStatus p)).closePass p))

/-! ### Watchdogs (R383, R403) -/

/-- The lowest incomplete grain belongs to a task that has not started, or is held by a crew that is saved. -/
def State.grainIdle (s : State) (p : Pass) (n : Nat) : Bool :=
  p.tasks.any (fun t => TaskRec.rlo t.2 ≤ n && n < TaskRec.rhi t.2 && !p.started.contains t.1)
    || s.crews.any (fun c => c.2.saved && (s.task c.2.task).ctx = p.ctx && (s.task c.2.task).queue = p.qid && s.crewHolds c.1 n)

/-- RASTER_WATCHDOG (R383). -/
def execRasterWatchdog (ctx qid die : Nat) (s : State) : Res :=
  match s.openPass ctx qid with
  | none => .next s
  | some p =>
    let o := p.owner die
    if o.orderPoint < PassRec.glast p.rec_ && !s.grainIdle p o.orderPoint
        && s.overdue ctx o.movedAt (BitVec.ofNat 32 (PassRec.watchdog p.rec_)) then
      .next (s.abortQueue ctx qid causePxOrderTimeout [BitVec.ofNat 32 o.orderPoint])
    else .next s

/-- SECTION_TIMEOUT (R403): a fragment has held its section for longer than PXWDT. -/
def execSectionTimeout (w : WaveKey) (lane : Nat) (s : State) : Res :=
  let x := s.wave w
  match x.pixel with
  | none => .next s
  | some p =>
    match p.frags.find? (fun f => f.lane = lane && x.fragHolds f) with
    | none => .next s
    | some f =>
      if s.overdue x.ctx f.lockedAt (s.context x.ctx).pxwdt then .next (s.abortQueue p.ctx p.queue causePxOrderTimeout [pixelWord f.x f.y])
      else .next s

end Sys2Proof.Machine
end

