-- ==== Sys2Proof/Machine/Fabric.lean ====
section
/-! DEFINITION. The fabric (spec/21_host_and_fabric.md): node windows and ports (R434), key banks (R436), the nodes' replies (R437), and
collectives (R438 to R441). What a node holds comes with its replies. -/

namespace Sys2Proof.Machine

/-! ### Routes (R434) -/

/-- The window of FABMAP that covers an address. -/
def State.nodeWindow (s : State) (pa : Nat) : Option NodeWindow := s.fabmap.find? (fun w => w.base ≤ pa ∧ pa < w.base + w.gib * gib)

/-- Hops between two dies: along the shorter way of the row, then the cross link (R284, R285). -/
def dieHops (a b : Nat) : Nat :=
  let d := (b % 4 + 4 - a % 4) % 4
  min d (4 - d) + (if a / 4 = b / 4 then 0 else 1)

/-- The live ports of a die that reach a window's node, in order. -/
def State.portsTo (s : State) (die : Nat) (w : NodeWindow) : List Nat :=
  ((List.range 4).map (fun i => 4 * die + i)).filter (fun p => w.ports.getLsbD p && (s.port p).alive)

/-- The port a line goes out by: of the issuing die, or of the nearest die that has one; by PA[10:7]. -/
def State.fabricPort (s : State) (die pa : Nat) : Option Nat :=
  (s.nodeWindow pa).bind (fun w =>
    let near := (List.range Config.dies).foldl (fun (best : Option Nat) d =>
      if (s.portsTo d w).isEmpty then best
      else match best with
        | none => some d
        | some b => if dieHops die d < dieHops die b then some d else best) none
    near.bind (fun d =>
      let l := s.portsTo d w
      l[pa / 128 % 16 % l.length]?))

/-! ### Replies of nodes (R437) -/

/-- A request for a fabric line is at its node: there is a live path, and it is not backing off. -/
def State.atNode (s : State) (q : Request) : Bool :=
  s.isFabric q.pline && q.leg = .toHome && q.spot = .there && !q.performed && q.retryAt ≤ s.clock && (s.fabricPort (dieOf q.core) q.pline).isSome

/-- NODE_REPLY (R437, R433): the node performs a request and answers; data, where there is any, is what its line holds as it does so.
(Log 54: DEDUCED.) -/
def execNodeReply (req : Nat) (data : List Byte) (s : State) : Res :=
  match s.req req with
  | none => .next s
  | some q =>
    if !s.atNode q then .next s
    else
      let held := (data.take 128).zipIdx.map (fun (b : Byte × Nat) => (q.pline + b.2, (⟨b.1, false⟩ : MByte)))
      .next ((s.homeWrite held).perform q)

/-- A request ends with a node's code (R437): nothing was performed. The reply to one that has timed out is stale (R295, R298). -/
def State.failOne (s : State) (q : Request) (code : Nat) : State :=
  let s := if q.dead then s.countStale (dieOf q.core) else s.failReq q causeRemoteNack code
  (s.forget q).dropReq q.id
/-- A request fails at its node: of a slice's fill, the reads that wait for it. -/
def State.failNode (s : State) (q : Request) (code : Nat) : State :=
  (if q.by_.isSlice && !q.dead then q :: s.waitingFor q else [q]).foldl (fun (s : State) r => s.failOne r code) s

/-- The back-off after so many not-ready replies, in µs: 1, 2, 4, and so on up to 64. -/
def backoffUs (replies : Nat) : Nat := 2 ^ min (replies - 1) 6

/-- NOT_READY_RETRY (R437): the port tries again after its back-off, tag and timeout starting anew; the sixteenth reply fails. -/
def execNotReadyRetry (req : Nat) (s : State) : Res :=
  match s.req req with
  | none => .next s
  | some q =>
    if !s.atNode q then .next s
    else if 15 ≤ q.tries then .next (s.failNode q 3)
    else
      let at_ := s.clock + backoffUs (q.tries + 1) * Config.clocksPerUs
      .next (s.setReq { q with tries := q.tries + 1, retryAt := at_, born := at_ })

/-- NODE_NEGATIVE_REPLY (R437): code 5 comes from the source port when no window covers the address, the others from a node. (Log 54: DEDUCED.) -/
def execNodeNegativeReply (req : Nat) (code : BitVec 8) (s : State) : Res :=
  match s.req req with
  | none => .next s
  | some q =>
    if !s.isFabric q.pline || q.leg ≠ .toHome || q.spot ≠ .there || q.performed then .next s
    else if (s.nodeWindow q.pline).isNone then .next (if code = 5 then s.failNode q 5 else s)
    else if s.atNode q && (code = 1 || code = 2 || code = 4) then .next (s.failNode q code.toNat)
    else .next s

/-! ### Key banks (R436) -/

def UaPort.bank (p : UaPort) (b : Bool) : Option (BitVec 256) := if b then p.bank1 else p.bank0
def UaPort.setBank (p : UaPort) (b : Bool) (k : Option (BitVec 256)) : UaPort := if b then { p with bank1 := k } else { p with bank0 := k }

/-- UALINK_KEY_INSTALL (R436, R431): inside a secure session the next key enters the idle bank, unless a switch is under way. -/
def execUalinkKeyInstall (port : Nat) (key : BitVec 256) (s : State) : Res :=
  let p := s.port port
  if port < 32 && s.sessions.any (fun v => v.2.spdm.secured) && !p.switching then .next (s.setPort port (p.setBank (!p.current) (some key))) else .next s

/-- KEY_SWITCH (R436): the next flit carries the other bank's bit. -/
def execKeySwitch (port : Nat) (s : State) : Res :=
  let p := s.port port
  if port < 32 && !p.switching && (p.bank (!p.current)).isSome then .next (s.setPort port { p with current := !p.current, switching := true })
  else .next s

/-- KEY_RETIRE (R436): the receiver has reported the switch; the old bank is cleared. -/
def execKeyRetire (port : Nat) (s : State) : Res :=
  let p := s.port port
  if port < 32 && p.switching then .next (s.setPort port { p.setBank (!p.current) none with switching := false }) else .next s

/-- FLIT_AUTH_FAIL (R436, R298): the flit is replayed; the replay is counted on the port's die. (Log 55: DEDUCED.) -/
def execFlitAuthFail (port : Nat) (s : State) : Res :=
  if port < 32 && (s.port port).alive then .next (s.countDie (port / 4) (fun c => { c with lnkreplay := satInc c.lnkreplay })) else .next s

/-- An event to every open session. (Log 21: DESIGN CHOICE.) -/
def State.eventAll (s : State) (payload : List Byte) : State := (s.sessions.map Prod.fst).foldl (fun (s : State) n => s.hostEvent n noCtx payload) s

/-- UALINK_PORT_DEAD (R436): logged, and the sessions get a link-dead event. (Log 55: DEDUCED.) -/
def execUalinkPortDead (port : Nat) (s : State) : Res :=
  if port < 32 && (s.port port).alive then
    let s := s.setPort port { s.port port with alive := false }
    let s := s.logRec 0x0006 true (diePlace (port / 4)) false 0 [BitVec.ofNat 32 (port / 4), BitVec.ofNat 32 port]
    .next (s.eventAll (wordLe 3 ++ wordLe (BitVec.ofNat 32 port)))
  else .next s

/-- DEAD_PORT_RESTORE (R434). -/
def execDeadPortRestore (port : Nat) (s : State) : Res :=
  if port < 32 then .next (s.setPort port { s.port port with alive := true }) else .next s

/-! ### Collectives (R438 to R441) -/

/-- COLL (R439), refused in an open region before any other check (R236). -/
def execColl (f : UC) (s : State) : Res :=
  let w := s.cur
  s.guarded
    [ s.check (s.regionOpen w.team) causeRgnViolation s.sel.mask 0,
      s.check (w.spairPois f.a || w.spairPois f.b) causePoison s.sel.mask 0 ]
    (s.issueOp .fx (.coll ((w.spair f.a).toNat % 2 ^ 56) ((w.spair f.b).toNat % 2 ^ 56) f.fn [] none)).advance

namespace CollDesc
def src (b : List Byte) : Nat := bytesDWord b 0
def dst (b : List Byte) : Nat := bytesDWord b 8
def count (b : List Byte) : Nat := (bytesWord b 0x10).toNat
def ctl (b : List Byte) : Word := bytesWord b 0x14
def root (b : List Byte) : Nat := ((ctl b).extractLsb' 8 8).toNat
def group (b : List Byte) : Nat := (ctl b).toNat % 16
def seqno (b : List Byte) : Nat := bytesDWord b 0x18
end CollDesc

/-- The operation of a COLL: 0 .ALLRED, 1 .ALLGATH, 2 .REDSCAT, 3 .BCAST; its reduction (R75). -/
def collOp (fn : BitVec 6) : Nat := fn.toNat % 4
def collRed (fn : BitVec 6) : Nat := fn.toNat / 4
/-- The bytes of an element. -/
def collBytes (fn : BitVec 6) : Nat := match collRed fn with
  | 0 => Config.collElement
  | 1 => 4
  | 2 => 8
  | 3 => 2
  | 7 => 8
  | _ => 4

/-- One fold step on elements as numbers (R440). -/
def collFold (red a b : Nat) : Nat :=
  match red with
  | 1 => (Fp.add Fp.f32 false a b).1
  | 2 => (Fp.add Fp.f64 false a b).1
  | 3 => (Fp.add Fp.bf16 false a b).1
  | 4 => (Fp.minMax Fp.f32 false false true a b).1
  | 5 => (Fp.minMax Fp.f32 false true true a b).1
  | 6 => (a + b) % 2 ^ 32
  | 7 => (a + b) % 2 ^ 64
  | 8 => if (BitVec.ofNat 32 a).toInt ≤ (BitVec.ofNat 32 b).toInt then a else b
  | _ => if (BitVec.ofNat 32 a).toInt ≤ (BitVec.ofNat 32 b).toInt then b else a

/-- The group of a context (R438). -/
def State.cgroup (s : State) (ctx g : Nat) : Option CGroup := s.cgroups.find? (fun x => x.ctx = ctx ∧ x.group = g)

/-- What R439 refuses in a descriptor. (Log 56: DEDUCED.) -/
def State.collIllegal (s : State) (ctx : Nat) (fn : BitVec 6) (b : List Byte) : Bool :=
  2 ^ 56 ≤ CollDesc.src b || 2 ^ 56 ≤ CollDesc.dst b || CollDesc.count b = 0 || 2 ^ 28 < CollDesc.count b
    || (CollDesc.ctl b).extractLsb' 16 16 ≠ 0 || (CollDesc.ctl b).extractLsb' 4 4 ≠ 0 || (b.drop 0x20).any (fun x => x ≠ 0)
    || (collOp fn ≠ 3 && CollDesc.root b ≠ 0)
    || (match s.cgroup ctx (CollDesc.group b) with
        | none => true
        | some g => g.used.contains (CollDesc.seqno b) || (collOp fn = 2 && CollDesc.count b % g.members.length ≠ 0)
            || g.members.length ≤ CollDesc.root b)

/-- A collective with its descriptor read: the contributions of the survivors by rank, ours with its poison. -/
structure CollJob where
  k : WaveKey
  o : Op
  fn : BitVec 6
  b : List Byte
  record : Nat
  g : CGroup
  survivors : List (Nat × List MByte)

/-- The ranks that take part and are not dropped. -/
def CGroup.living (g : CGroup) (dropped : List Nat) : List Nat :=
  (List.range g.members.length).filter (fun r => r = g.rank || !dropped.contains r)

/-- An element of a contribution. -/
def collElem (n : Nat) (l : List MByte) (i : Nat) : Nat × Bool :=
  let m := (l.drop (n * i)).take n
  (bytesNat m, m.any MByte.pois)

/-- The fold of one element over the survivors in ascending rank. -/
def CollJob.fold (j : CollJob) (i : Nat) : List MByte :=
  let n := collBytes j.fn
  let l := j.survivors.map (fun r => collElem n r.2 i)
  match l with
  | [] => []
  | x :: t =>
    let r := t.foldl (fun (acc : Nat × Bool) y => (collFold (collRed j.fn) acc.1 y.1, acc.2 || y.2)) x
    (leBytes n r.1).map (fun v => ⟨v, r.2⟩)

/-- What DST receives: an offset in bytes and bytes for each run (R440). -/
def CollJob.results (j : CollJob) : List (Nat × List MByte) :=
  let c := CollDesc.count j.b
  let n := collBytes j.fn
  let size := j.g.members.length
  match collOp j.fn with
  | 0 => [(0, (List.range c).flatMap j.fold)]
  | 1 => j.survivors.map (fun r => (r.1 * c * n, r.2.take (c * n)))
  | 2 => [(0, (List.range (c / size)).flatMap (fun i => j.fold (j.g.rank * (c / size) + i)))]
  | _ => match j.survivors.find? (fun r => r.1 = CollDesc.root j.b) with
    | some r => [(0, r.2.take (c * n))]
    | none => []

/-- The flags of the completion record (R441), without FAILED and MISMATCH. -/
def CollJob.flags (j : CollJob) : Nat :=
  (if j.survivors.length < j.g.members.length then 1 else 0)
    + (if collOp j.fn = 3 && j.survivors.all (fun r => r.1 ≠ CollDesc.root j.b) then 2 else 0)

/-- The completion record (R441), and the operation is counted off, perhaps with a failure. -/
def State.collRecord (s : State) (j : CollJob) (flags : Nat) (fail : Option Failure) : State :=
  let ctx := (s.wave j.k).ctx
  match s.engineReach ctx j.record 48 .write with
  | .ok =>
    let done := s.vaBytes ctx j.record 4
    let st := s.vaBytes ctx (va56 (j.record + 4)) 4
    let surv := (j.survivors.map (fun r => 2 ^ r.1)).sum
    let s := s.vaWrite ctx (va56 (j.record + 0x10)) (valBytes 32 surv)
    let s := s.vaWrite ctx (va56 (j.record + 4)) ((valBytes 4 (bytesNat st / 16 * 16 + flags)).map (fun b => { b with pois := st.any MByte.pois }))
    let s := s.vaWrite ctx j.record ((valBytes 4 (bytesNat done + 1)).map (fun b => { b with pois := done.any MByte.pois }))
    s.modWave j.k (fun w => w.finish j.o.id fail)
  | .ask va => s.askPage ctx va 1
  | .later => s
  | .fail va =>
    match fail with
    | some f => s.modWave j.k (fun w => w.finish j.o.id (some f))
    | none => (s.failOp j.k j.o (s.failCause ctx va .write) j.o.lanes va).dropFault ctx va

/-- The record can be reached, or it is known that it cannot. -/
def State.recordSettled (s : State) (j : CollJob) : Option State :=
  let ctx := (s.wave j.k).ctx
  match s.engineReach ctx j.record 48 .write with
  | .ask va => some (s.askPage ctx va 1)
  | .later => some s
  | _ => none

/-- DST is written at its homes as .BYPASS stores write, its lines dropped from the issuing core's L1; what stands before a fault is written. -/
def State.collWrite (s : State) (j : CollJob) (va : Nat) (bs : List MByte) : State :=
  let core := j.k.core
  let ctx := (s.wave j.k).ctx
  let l := bs.zipIdx.map (fun b => (va56 (va + b.2), b.1))
  ((l.map (fun b => lineAddr b.1)).dedup).foldl (fun (s : State) v =>
    match s.translate ctx v .write with
    | .ok pa _ ea =>
      let s := (s.markAD ea true).atItsHome core ctx v (lineAddr pa)
      (s.homeWrite ((l.filter (fun b => lineAddr b.1 = v)).map (fun b => (lineAddr pa + b.1 % 128, b.2)))).freshHome core (lineAddr pa)
    | _ => s) s

/-- The exchange is over: DST, then the record. -/
def State.collDeliver (s : State) (j : CollJob) : State :=
  let ctx := (s.wave j.k).ctx
  let dst := CollDesc.dst j.b
  let runs := j.results.map (fun r => (va56 (dst + r.1), r.2))
  match s.recordSettled j with
  | some t => t
  | none =>
    match s.reachAll ctx (runs.map (fun r => (r.1, r.2.length))) .write with
    | .ask va => s.askPage ctx va 1
    | .later => s
    | .ok => (runs.foldl (fun (s : State) r => s.collWrite j r.1 r.2) s).collRecord j j.flags none
    | .fail va =>
      let c := s.failCause ctx va .write
      let s := s.dropFault ctx va
      let upTo := runs.takeWhile (fun r => !(r.1 ≤ va && va < r.1 + r.2.length))
      let part := (runs.drop upTo.length).head?.map (fun r => (r.1, r.2.take (va - r.1)))
      let s := (upTo ++ part.toList).foldl (fun (s : State) r => s.collWrite j r.1 r.2) s
      s.collRecord j (j.flags + 8) (some ⟨c, j.o.lanes, BitVec.ofNat 64 va, j.o.pc, false⟩)

/-- The operation number is used from here on (R439). -/
def State.useSeqno (s : State) (ctx : Nat) (b : List Byte) : State :=
  { s with cgroups := s.cgroups.map (fun g => if g.ctx = ctx ∧ g.group = CollDesc.group b then { g with used := CollDesc.seqno b :: g.used } else g) }

/-- The contributions with a descriptor read and SRC reachable. Every member that is not dropped has contributed. -/
def State.collExchange (s : State) (k : WaveKey) (o : Op) (fn : BitVec 6) (record : Nat) (dropped : List Nat) (contribs : List Contribution)
    (b : List Byte) : State :=
  let ctx := (s.wave k).ctx
  match s.cgroup ctx (CollDesc.group b) with
  | none => s
  | some g =>
    let n := if collOp fn = 3 && g.rank ≠ CollDesc.root b then 0 else CollDesc.count b * collBytes fn
    let ours := s.vaBytes ctx (CollDesc.src b) n
    let others := (g.living dropped).filter (fun r => r ≠ g.rank)
    let got := others.filterMap (fun r => contribs.find? (fun c => c.rank = r))
    if got.length ≠ others.length then s
    else
      let all := (g.living dropped).map (fun r =>
        (r, if r = g.rank then ours else ((got.find? (fun c => c.rank = r)).map (fun c => c.data.map (fun x => (⟨x, false⟩ : MByte)))).getD []))
      let j : CollJob := ⟨k, o, fn, b, record, g, all⟩
      let s := s.markRange ctx (CollDesc.src b) n .read
      if got.any (fun c => c.fn ≠ fn || c.count ≠ CollDesc.count b || c.root ≠ CollDesc.root b) then
        (match s.recordSettled j with
          | some t => t
          | none => (s.useSeqno ctx b).collRecord j (j.flags + 4) none)
      else
        let t := s.collDeliver j
        if ((t.wave k).op o.id).any (fun x => !x.done) then t else t.useSeqno ctx b

/-- COLL_EXCHANGE_COMPLETE (R440): the release at fabric scope, the descriptor, SRC, the contributions of the others, DST and the record. (Log 56: DEDUCED.) -/
def execCollExchangeComplete (w : WaveKey) (op : Nat) (contribs : List Contribution) (s : State) : Res :=
  match (s.wave w).op op with
  | none => .next s
  | some o =>
    match o.kind with
    | .coll desc record fn dropped mark =>
      let rel := s.releaseTo w op 5 mark
      let s := rel.1.modWave w (fun x => x.setOp { o with kind := .coll desc record fn dropped rel.2.1 })
      if o.done then .next s
      else if !rel.2.2 then .next s
      else
        if desc % 64 ≠ 0 then .next (s.failOp w o causeMisalign o.lanes desc)
        else if record % 16 ≠ 0 then .next (s.failOp w o causeMisalign o.lanes record)
        else .next (s.reachFor w o [(desc, 64)] .read (fun s =>
          let ctx := (s.wave w).ctx
          let bs := s.vaBytes ctx desc 64
          let b := bs.map MByte.val
          let s := s.markRange ctx desc 64 .read
          if bs.any MByte.pois then s.failOp w o causePoison o.lanes desc
          else if s.collIllegal ctx fn b then s.failOp w o causeIllegalOperand o.lanes desc
          else
            let n := if collOp fn = 3 && (s.cgroup ctx (CollDesc.group b)).any (fun g => g.rank ≠ CollDesc.root b) then 0 else CollDesc.count b * collBytes fn
            match s.areaReach ctx (CollDesc.src b) n .read with
            | .ok => s.collExchange w o fn record dropped contribs b
            | .ask va => s.askPage ctx va 0
            | .later => s
            | .fail va =>
              let c := s.failCause ctx va .read
              let s := (s.dropFault ctx va).useSeqno ctx b
              match s.cgroup ctx (CollDesc.group b) with
              | none => s
              | some g => s.collRecord ⟨w, o, fn, b, record, g, []⟩ 8 (some ⟨c, o.lanes, BitVec.ofNat 64 va, o.pc, false⟩)))
    | _ => .next s

/-- COLL_MEMBER_DROP (R440): another member has not contributed within CTIMEOUT; our own contribution counts as the first. -/
def execCollMemberDrop (w : WaveKey) (op rank : Nat) (s : State) : Res :=
  let x := s.wave w
  match x.op op with
  | none => .next s
  | some o =>
    match o.kind with
    | .coll desc record fn dropped mark =>
      if o.done || dropped.contains rank || s.clock < o.born + (s.context x.ctx).ctimeout * Config.clocksPerUs then .next s
      else .next (s.modWave w (fun y => y.setOp { o with kind := .coll desc record fn (dropped ++ [rank]) mark }))
    | _ => .next s

end Sys2Proof.Machine
end

