-- ==== Sys2Proof/Machine/Host.lean ====
section
/-! DEFINITION. The host protocol (spec/21_host_and_fabric.md R420 to R429, R442): headers and sequence numbers, contexts, mapping, queues,
code, submission, the log, the policies, RDMA, and the module's reset. The spec names what a response carries and not its layout: its
items stand in the order in which the spec names them, least significant byte first (log 6: DESIGN CHOICE). -/

namespace Sys2Proof.Machine

/-! ### Headers, sequence numbers, refusals (R421 to R426) -/

def le64 (x : Nat) : List Byte := leBytes 8 x

/-- A PROTOCOL record (R426, R445). -/
def State.logProtocol (s : State) (status : Nat) (op : BitVec 8) (session seq : Word) (srcIp qp : Nat) : State :=
  s.logRec 0x0007 true 0 false 0
    [BitVec.ofNat 32 status, op.setWidth 32, session, seq, BitVec.ofNat 32 srcIp, BitVec.ofNat 32 qp]

/-- The statuses that break a rule (R426). -/
def breaksRule (status : Nat) : Bool := (1 ≤ status && status ≤ 6) || status = stInvalid || status = stDenied

/-- Log a refusal that breaks a rule. -/
def State.logRefusal (s : State) (h : Hdr) (status : Nat) : State :=
  if breaksRule status then s.logProtocol status h.op h.session h.seq h.srcIp h.qp else s

/-- A command refused by its header: answered, with no other effect; its SEQ stays to be used (R425, R426). -/
def State.refuseHdr (s : State) (h : Hdr) (status : Nat) : State :=
  (s.logRefusal h status).sendHost ⟨respHdr h status 0, []⟩

/-- What a header comes to. -/
inductive Admitted where
  | refused (status : Nat)
  | again (m : HostMsg)
  | go (v : Session)

/-- The checks of R421 to R425 in order: header, session, sequence, version, length. (Log 57: DEDUCED.) -/
def State.admitHdr (s : State) (h : Hdr) : Admitted :=
  if h.resv ≠ 0 || h.event || h.resp || h.status ≠ 0 || h.resv2 ≠ 0 then .refused stBadHdr
  else match assocGet s.sessions h.session with
    | none => .refused stBadHdr
    | some v =>
      match v.stored.filter (fun _ => h.seq + 1 = v.nextSeq) with
      | some m => .again m
      | none =>
        if h.seq ≠ v.nextSeq then .refused stBadSeq
        else if h.vmaj.toNat * 256 + h.vmin.toNat ≠ v.version then .refused stBadVer
        else if 1048576 < h.length.toNat then .refused stBadLen
        else .go v

/-- The session's last command is a MAP whose invalidation is still to be reported: the next command is not begun (R422, R425). -/
def State.sessionBusy (s : State) (session : Word) : Bool := s.invalidations.any (fun i => i.hdr.any (fun h => h.session = session))

/-- What performing a command comes to: refused, answered, or answered later. -/
inductive Done where
  | no (status : Nat)
  | yes (payload : List Byte) (s : State)
  | later (s : State)

/-- A bit of the agreed feature word (R424). -/
def Session.feature (v : Session) (bit : Nat) : Bool := v.features.getLsbD bit

/-- Perform one command: its header is judged, its SEQ taken, its code and features checked, and its effect has one response. A refusal by
the payload has no other effect. (Log 57: DEDUCED.) -/
def State.command (s : State) (h : Hdr) (op : Nat) (feature : Session → Bool) (act : Session → State → Done) : Res :=
  if s.hostPorts = 0 || s.sessionBusy h.session then .next s
  else match s.admitHdr h with
    | .refused st => .next (s.refuseHdr h st)
    | .again m => .next (s.sendHost { m with hdr := { m.hdr with qp := h.qp, srcIp := h.srcIp } })
    | .go v =>
      let s := { s with sessions := assocSet s.sessions h.session { v with nextSeq := h.seq + 1, stored := none } }
      let done := if h.op.toNat ≠ op then .no stBadOp else if !feature v then .no stBadOp else act v s
      match done with
      | .no st => .next ((s.logRefusal h st).respond h st [])
      | .yes payload t => .next (t.respond h stOk payload)
      | .later t => .next t

/-- Every session may use the command. -/
def anySession : Session → Bool := fun _ => true

/-- The context that a header names, if it is the session's own (R423 BADCTX). -/
def State.ownCtx (s : State) (h : Hdr) : Option Context := (assocGet s.contexts h.ctx.toNat).filter (fun c => c.session = h.session)

/-- A command on a context of the session; one that has been terminated takes only DESTROY_CTX (log 12: DEDUCED). -/
def State.ctxCommand (s : State) (h : Hdr) (op : Nat) (feature : Session → Bool) (act : Session → Context → State → Done) : Res :=
  s.command h op feature (fun v s => match s.ownCtx h with
    | none => .no stBadCtx
    | some c => if c.ended && op ≠ 0x11 then .no stBadCtx else act v c s)

/-- CREATE_CTX, MAP, LOAD_CODE and SUBMIT wait for a secure session when bit 4 is agreed (R431). -/
def Session.denied (v : Session) : Bool := v.feature 4 && !v.spdm.secured

/-- SHORT_MESSAGE_DROP (R426): dropped and logged, with what of the header's fields has arrived. -/
def execShortMessageDrop (bytes : List Byte) (qp srcIp : Nat) (s : State) : Res :=
  if bytes.length < 32 && s.hostPorts ≠ 0 then
    .next (s.logProtocol stBadLen ((bytes[3]?).getD 0) (bytesWord bytes 4) (bytesWord bytes 8) srcIp qp)
  else .next s

/-! ### Sessions (R424) -/

/-- The device's feature word and version (R424). -/
def deviceFeatures : DWord := 0x3F
def deviceVersion : Nat := 0x0100

/-- A session number not in use: one above the highest. -/
def State.newSession (s : State) : Word := BitVec.ofNat 32 ((s.sessions.map (fun p => p.1.toNat)).foldl max 0 + 1)

/-- OPEN (R424): version and features are agreed and a session begins. (Log 76: DEDUCED.) -/
def execHostOpen (h : Hdr) (hostMax : BitVec 16) (features : DWord) (s : State) : Res :=
  if s.hostPorts = 0 then .next s
  else if h.resv ≠ 0 || h.event || h.resp || h.status ≠ 0 || h.resv2 ≠ 0 || h.session ≠ 0 then .next (s.refuseHdr h stBadHdr)
  else if 1048576 < h.length.toNat then .next (s.refuseHdr h stBadLen)
  else if h.op ≠ 0x01 then .next (s.refuseHdr h stBadOp)
  else if hostMax.toNat < deviceVersion then .next (s.refuseHdr h stBadVer)
  else
    let n := s.newSession
    let f := features &&& deviceFeatures
    let v := min hostMax.toNat deviceVersion
    let s := { s with sessions := s.sessions ++ [(n, (⟨n, v, f, 1, h.qp, none, Spdm.initial⟩ : Session))] }
    .next (s.sendHost ⟨respHdr h stOk 14, wordLe n ++ leBytes 2 v ++ le64 f.toNat⟩)

/-- A context ends by command, with no trap, unless it has ended already, and its frames are freed (R422, R427, R450). -/
def State.destroyContext (s : State) (c : Nat) : State :=
  (if (s.context c).ended then s else s.terminate c 0 (List.replicate 8 0) 0).freeContext c

/-- CLOSE (R422): the session's contexts are destroyed and it ends. -/
def execHostClose (h : Hdr) (s : State) : Res :=
  s.command h 0x02 anySession (fun _ s =>
    let mine := ((s.contexts.filter (fun c => c.2.session = h.session)).map Prod.fst)
    let s := mine.foldl State.destroyContext s
    .yes [] { s with sessions := assocErase s.sessions h.session })

/-! ### Contexts (R422, R427) -/

/-- The arguments of CREATE_CTX are legal (R348, R428). -/
def ctxLegal (p : CtxArgs) : Bool :=
  p.codeBase.toNat % 65536 = 0 && p.tvec.toNat % 4 = 0 && 0 < p.window && p.window ≤ 2 ^ 32 && p.codeBase.toNat + p.window ≤ 2 ^ 56
    && 1 ≤ p.journalMiB && p.journalMiB ≤ 256

/-- The swap area has one slot of 8 KiB for each wave slot of every core (R170). -/
def swapBytes : Nat := 1024 * 64 * 8192

/-- The areas of a context (R170, R232, R235), its root table and its registers at their values of R145. -/
def State.makeContext (s : State) (n : Nat) (session : Word) (p : CtxArgs) : Option State :=
  (s.allocRange 0 0 (max p.swapSize swapBytes) 65536 n).bind (fun swap =>
    (swap.2.allocRange 0 0 (max p.ckptSize 65536) 65536 n).bind (fun ck =>
      (ck.2.allocRange 0 0 (p.journalMiB * 2 ^ 20) 65536 n).bind (fun j =>
        let (key, s) := j.2.fresh
        let s := s.setContext n { Context.absent with
          num := n
          session := session
          codeBase := p.codeBase.toNat
          tvec := p.tvec
          window := p.window
          mkey := key
          bwdt := 10000
          rwdt := 10000
          pxwdt := 2000
          journalMiB := p.journalMiB
          swapBase := swap.1
          ckptBase := ck.1
          debugger := p.debug }
        (s.allocTable n).map (fun x => x.2.setContext n { x.2.context n with ptbase := x.1 }))))

/-- CREATE_CTX (R422): the lowest free context number, its areas and its page table. -/
def execCreateCtx (h : Hdr) (p : CtxArgs) (s : State) : Res :=
  s.command h 0x10 (fun v => !p.debug || v.feature 3) (fun v s =>
    if v.denied then .no stDenied
    else if !ctxLegal p then .no stInvalid
    else match (List.range 64).find? (fun n => (assocGet s.contexts n).isNone) with
      | none => .no stNoRes
      | some n => match s.makeContext n h.session p with
        | none => .no stNoRes
        | some t => .yes (wordLe (BitVec.ofNat 32 n) ++ le64 (t.context n).ptbase ++ le64 (t.context n).mkey) t)

/-- DESTROY_CTX (R422). -/
def execDestroyCtx (h : Hdr) (s : State) : Res :=
  s.ctxCommand h 0x11 anySession (fun _ _ s => .yes [] (s.destroyContext h.ctx.toNat))

/-- MAP (R422, R449): the response follows the report of the invalidation. -/
def execHostMap (h : Hdr) (p : MapArgs) (s : State) : Res :=
  s.ctxCommand h 0x12 (fun v => p.unmap || p.home ≠ 3#2 || v.feature 2) (fun v _ s =>
    if v.denied then .no stDenied
    else
      let (st, t) := s.mapPages h.ctx.toNat p (some h)
      if st = stOk then .later t else .no st)

/-! ### Queues and submission (R302, R303, R372) -/

/-- A queue holds no task that waits or runs. -/
def State.queueIdle (s : State) (ctx : Nat) (q : Queue) : Bool :=
  q.running.isEmpty && q.head.isNone && (!s.blockOk ctx q || s.blockWord ctx q 20 = s.blockWord ctx q 28)

/-- The control block of a new queue is legal (R302, R203). -/
def State.queueBlockLegal (s : State) (ctx : Nat) (q : Queue) : Bool := s.blockOk ctx q && s.blockWord ctx q 8 = 64

/-- CREATE_QUEUE (R302). (Log 58: DEDUCED.) -/
def execCreateQueue (h : Hdr) (p : QueueArgs) (s : State) : Res :=
  s.ctxCommand h 0x13 (fun v => !p.render || v.feature 0) (fun _ c s =>
    let n := h.ctx.toNat
    let q : Queue := { Queue.absent with qid := p.qid, block := p.block.toNat, render := p.render, pxpois := p.pxpois, aborted := false }
    let taken := match assocGet c.queues p.qid with
      | none => false
      | some old => !(old.aborted || s.queueIdle n old)
    if 16 ≤ p.qid || p.block.toNat % 32 ≠ 0 || (p.pxpois && !p.render) || taken || !s.queueBlockLegal n q then .no stInvalid
    else .yes [] { s.setQueue n p.qid q with lastDepEval := none })

/-- The ring of a queue lets a record in: its counters agree, and the slot of the next reservation can be written. -/
def State.submitWaits (s : State) (ctx : Nat) (q : Queue) : Bool := s.blockOk ctx q && s.blockWord ctx q 16 ≠ s.blockWord ctx q 20

/-- Free slots of a queue's ring (R303). -/
def State.queueRoom (s : State) (ctx : Nat) (q : Queue) : Nat :=
  (s.blockWord ctx q 12).toNat - (s.blockWord ctx q 16 - s.blockWord ctx q 28).toNat

/-- The slot that the next record but i takes. -/
def State.nextSlot (s : State) (ctx : Nat) (q : Queue) (i : Nat) : Nat :=
  s.slotAddr ctx q ((s.blockWord ctx q 16 + BitVec.ofNat 32 i) % s.blockWord ctx q 12).toNat

/-- One reservation, the record, one commit (R303, R442). -/
def State.enqueue (s : State) (ctx : Nat) (q : Queue) (b : List Byte) : State :=
  let n := s.blockWord ctx q 16
  let a := s.nextSlot ctx q 0
  let s := s.blockPut ctx q 16 (n + 1)
  let s := s.vaWrite ctx a (cleanBytes b)
  { s.blockPut ctx q 20 (s.blockWord ctx q 20 + 1) with lastDepEval := none }

/-- A pass record is valid (R375). -/
def PassRec.valid (b : List Byte) : Bool :=
  let zero := fun (from_ n : Nat) => ((b.drop from_).take n).all (fun x => x = 0)
  let addr := fun (a align : Nat) => a < 2 ^ 56 && a % align = 0
  b.length = 256 && zero 0x68 24 && (PassRec.ctl b).extractLsb' 12 20 = 0 && !(PassRec.ctl b).getLsbD 7
    && 4 ≤ PassRec.glog2 b && PassRec.glog2 b ≤ 12
    && 1 ≤ PassRec.width b && PassRec.width b ≤ 16384 && 1 ≤ PassRec.height b && PassRec.height b ≤ 16384
    && PassRec.gfirst b < PassRec.glast b
    && addr (PassRec.crec b) 16 && addr (PassRec.dbase b) 4 && addr (PassRec.savebase b) 256 && addr (PassRec.pixArgs b) 1
    && (PassRec.pixEntry b).toNat % 4 = 0 && PassRec.pixRtab b % 16 = 0
    && (PassRec.dbase b = 0 || PassRec.width b ≤ PassRec.dpitch b)
    && (List.range 8).all (fun t =>
      PassRec.base b t < 2 ^ 56 && (PassRec.rt b t).extractLsb' 16 16 = 0
        && PassRec.srcf b t ≤ 5 && PassRec.dstf b t ≤ 5 && PassRec.srcfa b t ≤ 5 && PassRec.dstfa b t ≤ 5
        && (PassRec.fmt b t = 0 || (PassRec.base b t % PassRec.bytesOf b t = 0 && PassRec.width b ≤ PassRec.pitch b t)))
    && (List.range 8).any (fun t => PassRec.fmt b t ≠ 0)
    && PassRec.bufSize b ≤ 448 * 1024

/-- A render pass as SUBMIT opens it (R372): its tasks by the ring numbers they take. -/
def State.newPass (s : State) (ctx : Nat) (q : Queue) (addr : Nat) (b : List Byte) (tasks : List (List Byte)) : Pass where
  ctx := ctx
  qid := q.qid
  recAddr := addr
  rec_ := b
  tasks := tasks.zipIdx.map (fun t => ((s.blockWord ctx q 16 + BitVec.ofNat 32 t.2).toNat, t.1))
  started := []
  status := 0
  grains := []
  port := []
  sent := []
  exchange := []
  markers := []
  owners := (List.range Config.dies).map (fun d => OwnerSt.initial d (PassRec.gfirst b) s.clock)
  tiles := []

/-- Records on a queue: refused, or every one enqueued. (Log 59: DEDUCED.) -/
def State.submitRecords (s : State) (ctx : Nat) (q : Queue) (tasks : List (List Byte)) (before : State → State) : Done :=
  if q.aborted then .no stInvalid
  else if tasks.any (fun t => t.length ≠ 64) then .no stBadLen
  else if tasks.any (fun t => !TaskRec.valid t q.render) || !s.blockOk ctx q then .no stInvalid
  else if s.queueRoom ctx q < tasks.length then .no stFull
  else if (List.range tasks.length).any (fun i => !s.areaOk ctx (s.nextSlot ctx q i) 64 .write) then .no stInvalid
  else .yes [] (tasks.foldl (fun (s : State) t => s.enqueue ctx q t) (before s))

/-- SUBMIT (R422, R423, R372): one task record, or a pass with its render tasks, all of them or none. (Log 58: DEDUCED.) (Log 59: DEDUCED.) -/
def execSubmit (h : Hdr) (qid : Nat) (p : Submission) (s : State) : Res :=
  let n := h.ctx.toNat
  if s.submitWaits n (s.queue n qid) && (s.ownCtx h).isSome then .next s
  else
    let render := match p with
      | .pass _ _ => true
      | .task _ => false
    s.ctxCommand h 0x16 (fun v => !render || v.feature 0) (fun v c s =>
      if v.denied then .no stDenied
      else match assocGet c.queues qid with
        | none => .no stInvalid
        | some q => match p with
          | .task b => s.submitRecords n q [b] id
          | .pass addr tasks =>
            let a := addr.toNat
            if !q.render || a % 256 ≠ 0 || !s.areaOk n a 256 .read then .no stInvalid
            else
              let bs := s.vaBytes n a 256
              let b := bs.map MByte.val
              if bs.any MByte.pois || !PassRec.valid b then .no stInvalid
              else s.submitRecords n q tasks (fun s =>
                { (s.markRange n a 256 .read) with passes := s.passes ++ [s.newPass n q a b tasks] }))

/-! ### Code (R85 to R87, R371, R422) -/

namespace Image
def word (b : List Byte) (o : Nat) : Nat := (bytesWord b o).toNat
def nsec (b : List Byte) : Nat := word b 0x08
def secoff (b : List Byte) : Nat := word b 0x14
/-- A table of n entries of a size lies in the image at a multiple of 8. -/
def tableOk (b : List Byte) (off n size : Nat) : Bool := off % 8 = 0 && off + n * size ≤ b.length
/-- A name is the offset of a zero-terminated string of the table. -/
def nameOk (b : List Byte) (n : Nat) : Bool :=
  n < word b 0x24 && ((b.drop (word b 0x20 + n)).take (word b 0x24 - n)).contains 0
/-- Section i: kind, load offset, size, place in the image. -/
def sec (b : List Byte) (i : Nat) : Nat × Nat × Nat × Nat :=
  let o := secoff b + 16 * i
  (word b o / 2 ^ 24, word b (o + 4), word b (o + 8), word b (o + 12))
def secs (b : List Byte) : List (Nat × Nat × Nat × Nat) := (List.range (nsec b)).map (sec b)
def secOk (b : List Byte) (i : Nat) : Bool :=
  let (kind, load, size, file) := sec b i
  kind ≤ 2 && word b (secoff b + 16 * i) % 2 ^ 24 = 0 && load % 65536 = 0
    && (if size = 0 then file = 0 else file + size ≤ b.length)
def symOk (b : List Byte) (i : Nat) : Bool :=
  let o := word b 0x18 + 16 * i
  nameOk b (word b o) && (word b (o + 4) < nsec b || word b (o + 4) = 0xFFFFFFFF) && word b (o + 12) < 4
def kerOk (b : List Byte) (i : Nat) : Bool :=
  let o := word b 0x1C + 32 * i
  nameOk b (word b o) && word b (o + 12) % 16 = 0 && (List.range 4).all (fun j => nameOk b (word b (o + 16 + 4 * j)))
/-- An image that keeps every rule of R85 to R87. (Log 60: DEDUCED.) -/
def wellFormed (b : List Byte) : Bool :=
  64 ≤ b.length && word b 0 = 0x424F464D && word b 4 / 65536 = 1 && 1 ≤ nsec b && nsec b ≤ 3 && 1 ≤ word b 0x10
    && ((b.drop 0x2C).take 20).all (fun x => x = 0)
    && tableOk b (secoff b) (nsec b) 16 && tableOk b (word b 0x18) (word b 0x0C) 16 && tableOk b (word b 0x1C) (word b 0x10) 32
    && tableOk b (word b 0x20) (word b 0x24) 1 && word b 0x24 ≠ 0 && b[word b 0x20]? = some 0
    && (List.range (nsec b)).all (secOk b)
    && ((secs b).map (fun x => x.2.1 + x.2.2.1)).foldl max 0 = word b 0x28
    && (List.range (word b 0x0C)).all (symOk b) && (List.range (word b 0x10)).all (kerOk b)
/-- The ISA version is the one the part provides (FEAT0). -/
def versionOk (b : List Byte) : Bool := word b 4 % 65536 = 0x0100
end Image

/-- A mapped page of a context, with whatever permission: the physical address of a virtual one; a discarded page counts as unmapped. -/
def State.anyPa (s : State) (ctx va : Nat) : Option Nat :=
  match s.walk ctx va with
  | .leaf _ e l => if Pte.state e = 1 then none else some (Pte.frame e + va % pageSize l)
  | _ => none

/-- A section goes to its place, page by page. -/
def State.putSection (s : State) (ctx va : Nat) (bytes : List Byte) : State :=
  (pagePoints va bytes.length).foldl (fun (s : State) v =>
    match s.anyPa ctx v with
    | some pa => s.putPa pa (cleanBytes ((bytes.drop (v - va)).take (65536 - v % 65536)))
    | none => s) s

/-- LOAD_CODE (R422, R87): the sections are written through the pages that MAP has set up; fetch sees them after CODE_SYNC. (Log 60: DEDUCED.) -/
def execLoadCode (h : Hdr) (image : List Byte) (s : State) : Res :=
  s.ctxCommand h 0x14 anySession (fun v c s =>
    let n := h.ctx.toNat
    if v.denied then .no stDenied
    else if h.length.toNat ≠ image.length then .no stBadLen
    else if !Image.wellFormed image then .no stInvalid
    else if !Image.versionOk image then .no stBadVer
    else
      let l := (Image.secs image).map (fun x => (va56 (c.codeBase + x.2.1), (image.drop x.2.2.2).take x.2.2.1))
      if (Image.secs image).any (fun x => c.window < x.2.1 + x.2.2.1)
          || l.any (fun x => (pagePoints x.1 x.2.length).any (fun v => (s.anyPa n v).isNone)) then .no stInvalid
      else .yes [] (l.foldl (fun (s : State) x => s.putSection n x.1 x.2) s))

/-- The bytes of a context's code window at their homes, by virtual address. -/
def State.codeImage (s : State) (n : Nat) (c : Context) : List Host.Cell :=
  (List.range ((c.window + 65535) / 65536)).flatMap (fun i =>
    let va := c.codeBase + 65536 * i
    match s.anyPa n va with
    | none => []
    | some pa => (s.mem.filter (fun x => pa ≤ x.1 && x.1 < pa + 65536)).map (fun x => (va + (x.1 - pa), x.2)))

/-- CODE_SYNC (R371, R61): what stands in the code window is what fetch sees from now on. -/
def execCodeSync (h : Hdr) (s : State) : Res :=
  s.ctxCommand h 0x15 anySession (fun _ c s => .yes [] (s.setContext h.ctx.toNat { c with code := s.codeImage h.ctx.toNat c }))

/-! ### The log (R446, R298, R402, R408) -/

/-- A record as READ_LOG returns it: the 32-byte header of R444 and its body, padded to a multiple of 8. -/
def LogRec.bytes (r : LogRec) : List Byte :=
  let n := 4 * r.body.length
  let place := (if r.noctx then 2 ^ 31 else 0) + r.place.toNat
  wordLe (BitVec.ofNat 32 (r.kind * 65536 + n)) ++ wordLe r.seq ++ le64 r.ptime.toNat ++ wordLe (BitVec.ofNat 32 place)
    ++ wordLe (BitVec.ofNat 32 (r.cause.toNat + if r.async then 256 else 0)) ++ le64 0
    ++ r.body.flatMap wordLe ++ List.replicate ((8 - n % 8) % 8) 0

/-- The counters of a die and of its two stacks. -/
def State.counterBytes (s : State) (d : Nat) : List Byte :=
  let c := (s.die d).counters
  ([c.l2ce, c.l2ue, c.rdce, c.rdue, c.wayret, c.dlkrec, c.dlklost, c.timeouts, c.stalereply, c.lnkreplay, c.lnkdead, c.primdrop, c.flushes,
    c.reopens] ++ [2 * d, 2 * d + 1].flatMap (fun st => [(s.stack st).hbmce, (s.stack st).hbmue, (s.stack st).rowret, (s.stack st).sparelow])).flatMap
    wordLe

/-- The records that a session reads from a SEQ on (R446). -/
def State.logFrom (s : State) (session fromSeq : Word) : List LogRec :=
  s.log.filter (fun r => (r.noctx || r.session = session) && !(r.seq - fromSeq).msb)

/-- READ_LOG (R446). -/
def execReadLog (h : Hdr) (fromSeq : Word) (s : State) : Res :=
  s.command h 0x17 anySession (fun _ s =>
    .yes ((s.logFrom h.session fromSeq).flatMap LogRec.bytes ++ wordLe s.logLost ++ (List.range Config.dies).flatMap s.counterBytes) s)

/-! ### Policies (R428) -/

/-- BINPOOL: 64 to 512 MiB per die in steps of 64. -/
def execSetPolicyBinpool (h : Hdr) (mib : Nat) (s : State) : Res :=
  s.command h 0x18 anySession (fun _ s =>
    if mib < 64 || 512 < mib || mib % 64 ≠ 0 then .no stInvalid else .yes [] { s with binPool := mib })

/-- JOURNAL: 1 to 256 MiB per resident team. -/
def execSetPolicyJournal (h : Hdr) (mib : Nat) (s : State) : Res :=
  s.ctxCommand h 0x18 anySession (fun _ c s =>
    if mib < 1 || 256 < mib then .no stInvalid else .yes [] (s.setContext h.ctx.toNat { c with journalMiB := mib }))

/-- GROUP (R271, R428): a group with no owner is claimed; its owner returns it, to its reset values. -/
def execSetPolicyGroup (h : Hdr) (group : Nat) (claim : Bool) (s : State) : Res :=
  s.ctxCommand h 0x18 anySession (fun _ _ s =>
    let me : BitVec 6 := h.ctx.setWidth 6
    if 64 ≤ group then .no stInvalid
    else if claim then
      (if (s.group group).owner.isSome then .no stDenied else .yes [] (s.setGroup group { s.group group with owner := some me }))
    else if (s.group group).owner = some me then .yes [] (s.setGroup group Group.initial)
    else .no stDenied)

/-- A node window is legal (R434). -/
def windowLegal (w : NodeWindow) : Bool := w.base % gib = 0 && 0 < w.gib && fabricBase ≤ w.base && w.base + w.gib * gib ≤ 2 ^ 52

/-- FABMAP (R434, R428). -/
def execSetPolicyFabmap (h : Hdr) (windows : List NodeWindow) (s : State) : Res :=
  s.command h 0x18 (fun v => v.feature 2) (fun _ s =>
    if 64 < windows.length || windows.any (fun w => !windowLegal w) then .no stInvalid else .yes [] { s with fabmap := windows })

/-- CGROUP (R438, R428). -/
def execSetPolicyCgroup (h : Hdr) (p : CGroupArgs) (s : State) : Res :=
  s.ctxCommand h 0x18 (fun v => v.feature 5) (fun _ _ s =>
    let n := h.ctx.toNat
    if 16 ≤ p.group || p.members.isEmpty || 256 < p.members.length || p.members.length ≤ p.rank || !s.isFabric p.staging then .no stInvalid
    else .yes [] { s with cgroups := s.cgroups.filter (fun g => !(g.ctx = n ∧ g.group = p.group))
                                      ++ [(⟨p.group, n, p.members, p.rank, p.staging, []⟩ : CGroup)] })

/-- CTIMEOUT: 100 µs to 1 s. -/
def execSetPolicyCtimeout (h : Hdr) (us : Nat) (s : State) : Res :=
  s.ctxCommand h 0x18 (fun v => v.feature 5) (fun _ c s =>
    if us < 100 || 1000000 < us then .no stInvalid else .yes [] (s.setContext h.ctx.toNat { c with ctimeout := us }))

/-! ### RDMA, ports, time, reset (R420, R429, R442) -/

/-- The context that a memory key opens. -/
def State.ctxOfKey (s : State) (mkey : Nat) : Option Nat := (s.contexts.find? (fun c => c.2.mkey = mkey)).map Prod.fst

/-- HOST_RDMA_READ (R420): bytes of a context's memory at their homes; an access that does not translate returns nothing. (Log 61: DEDUCED.) -/
def execHostRdmaRead (mkey va n : Nat) (s : State) : Res :=
  match s.ctxOfKey mkey with
  | none => .next s
  | some c =>
    if s.hostPorts = 0 || 2 ^ 56 < va + n || !s.areaOk c va n .read then .next s
    else
      let bs := (s.vaBytes c va n).map MByte.val
      let s := s.markRange c va n .read
      .next { s with rdmaOut := s.rdmaOut ++ [bs] }

/-- HOST_RDMA_WRITE (R420): bytes written at their homes. (Log 61: DEDUCED.) -/
def execHostRdmaWrite (mkey va : Nat) (data : List Byte) (s : State) : Res :=
  match s.ctxOfKey mkey with
  | none => .next s
  | some c =>
    if s.hostPorts = 0 || 2 ^ 56 < va + data.length || !s.areaOk c va data.length .write then .next s
    else .next (s.vaWrite c va (cleanBytes data))

/-- HOST_PORT_FAILURE (R442). -/
def execHostPortFailure (port : Nat) (s : State) : Res := .next { s with hostPorts := s.hostPorts &&& ~~~(1#2 <<< port) }

/-- PTIME_DISCIPLINE (R420, R145). -/
def execPtimeDiscipline (ns : DWord) (s : State) : Res := .next { s with ptimeBase := ns.toNat, ptimeAt := s.clock }

/-- MODULE_RESET (R429, R350): the module is as after reset; each patch that is signed and not below the anti-rollback counter is loaded,
and the firmware sets the local size of a stack. What has not yet happened outside stays to happen. (Log 64: DESIGN CHOICE.) -/
def execModuleReset (patches : List Patch) (localGib : Nat) (s : State) : Res :=
  .next { State.reset with
    agenda := s.agenda
    accidents := s.accidents
    freeCount := s.freeCount
    patchVersion := s.patchVersion
    patches := patches.map (fun p => { p with signed := p.signed && s.patchVersion ≤ p.version })
    localGib := if localGib ≤ 16 then localGib else 16 }

end Sys2Proof.Machine
end

