-- ==== Sys2Proof/Machine/Spdm.lean ====
section
/-! DEFINITION. The SPDM responder (spec/21_host_and_fabric.md R430, R431), one message per command. The bytes of signatures, keys,
certificates and measurements are values that the spec does not give: free ones (log 7: DESIGN CHOICE). A message out of order is answered INVALID. -/

namespace Sys2Proof.Machine

/-- n free bytes. -/
def State.freeBytes (s : State) (n : Nat) : List Byte × State :=
  ((List.range n).map (fun i => Config.freeByte (s.freeCount + i)), { s with freeCount := s.freeCount + n })

/-- The responder of a header's session changes. -/
def State.setSpdm (s : State) (h : Hdr) (f : Spdm → Spdm) : State :=
  { s with sessions := s.sessions.map (fun (p : Word × Session) => if p.1 = h.session then (p.1, { p.2 with spdm := f p.2.spdm }) else p) }

/-- One SPDM message (R431): accepted when the connection has come so far. (Log 63: DEDUCED.) -/
def State.spdm (s : State) (h : Hdr) (ok : Spdm → Bool) (act : State → List Byte × State) : Res :=
  s.command h 0x20 anySession (fun v s =>
    if !ok v.spdm then .no stInvalid
    else
      let (payload, t) := act s
      .yes payload t)

/-- GET_VERSION (R431): 1.3; the connection starts anew. -/
def execGetVersion (h : Hdr) (s : State) : Res :=
  s.spdm h (fun _ => true) (fun s => ([0x13], s.setSpdm h (fun _ => ⟨1, 0, none, false⟩)))

/-- GET_CAPABILITIES (R431): certificates, challenge, measurements, key exchange and encrypted sessions are supported. -/
def execGetCapabilities (h : Hdr) (s : State) : Res :=
  s.spdm h (fun x => x.stage = 1) (fun s => ([0x1F], s.setSpdm h (fun x => { x with stage := 2 })))

/-- The algorithms of R431 by bit: ECDSA and ECDHE over P-384, SHA-384, AES-256-GCM. -/
def spdmAlgorithms : Nat := 0xF

/-- NEGOTIATE_ALGORITHMS (R431): nothing else is offered. -/
def execNegotiateAlgorithms (h : Hdr) (offered : Nat) (s : State) : Res :=
  s.spdm h (fun x => x.stage = 2 && offered &&& spdmAlgorithms = spdmAlgorithms) (fun s =>
    ([BitVec.ofNat 8 spdmAlgorithms], s.setSpdm h (fun x => { x with stage := 3, algorithms := spdmAlgorithms })))

/-- The algorithms are agreed. -/
def Spdm.ready (x : Spdm) : Bool := 3 ≤ x.stage

/-- GET_DIGESTS (R431): the SHA-384 digest of the certificate chain. -/
def execGetDigests (h : Hdr) (s : State) : Res := s.spdm h Spdm.ready (fun s => s.freeBytes 48)

/-- GET_CERTIFICATE (R430): a part of the certificate chain. -/
def execGetCertificate (h : Hdr) (offset length : Nat) (s : State) : Res :=
  s.spdm h (fun x => x.ready && length ≤ 65535) (fun s => ((List.range length).map (fun i => Config.certByte (offset + i)), s))

/-- CHALLENGE (R431): a signature over the nonce with the identity key. -/
def execChallenge (h : Hdr) (_nonce : BitVec 256) (s : State) : Res := s.spdm h Spdm.ready (fun s => s.freeBytes 96)

/-- The key bank state of a port: which banks hold keys, the current one, a switch under way. -/
def UaPort.stateByte (p : UaPort) : Byte :=
  BitVec.ofNat 8 ((if p.bank0.isSome then 1 else 0) + (if p.bank1.isSome then 2 else 0) + (if p.current then 4 else 0) + (if p.switching then 8 else 0))

/-- Measurement i (R431): 1 the ROM hash; 2 the patches, loaded or refused (R429), by hash and security version; 3 the module's policy items;
4 the key banks. -/
def State.measure (s : State) (i : Nat) : List Byte :=
  match i with
  | 1 => leBytes 48 (Config.measurement 1).toNat
  | 2 => s.patches.flatMap (fun p => leBytes 48 p.hash.toNat ++ wordLe (BitVec.ofNat 32 p.version) ++ [if p.signed then 1 else 0])
  | 3 => wordLe (BitVec.ofNat 32 s.binPool)
      ++ s.fabmap.flatMap (fun w => le64 w.base ++ wordLe (BitVec.ofNat 32 w.gib) ++ wordLe (BitVec.ofNat 32 w.node) ++ wordLe w.ports)
  | _ => (List.range 32).map (fun p => (s.port p).stateByte)

/-- GET_MEASUREMENTS (R431). -/
def execGetMeasurements (h : Hdr) (index : Nat) (s : State) : Res :=
  s.spdm h (fun x => x.ready && 1 ≤ index && index ≤ 4) (fun s => (s.measure index, s))

/-- KEY_EXCHANGE (R431): the module's ephemeral key and its signature. (Log 63: DEDUCED.) -/
def execKeyExchange (h : Hdr) (hostKey : Nat) (s : State) : Res :=
  s.spdm h Spdm.ready (fun s => (s.setSpdm h (fun x => { x with exchanged := some hostKey, secured := false })).freeBytes 192)

/-- FINISH (R431): the secure session stands once the host's proof has been verified. -/
def execSpdmFinish (h : Hdr) (verified : Bool) (s : State) : Res :=
  s.spdm h (fun x => x.exchanged.isSome && verified) (fun s => ([], s.setSpdm h (fun x => { x with secured := true })))

/-- END_SESSION (R431). -/
def execEndSession (h : Hdr) (s : State) : Res :=
  s.spdm h Spdm.secured (fun s => ([], s.setSpdm h (fun x => { x with exchanged := none, secured := false })))

end Sys2Proof.Machine
end

