-- ==== Sys2Proof/Machine/Debug.lean ====
section
/-! DEFINITION. The debug interface (spec/01_threads_and_waves.md R29 to R31; spec/21_host_and_fabric.md R422, DEBUG). -/

namespace Sys2Proof.Machine

/-- A DEBUG command on a context (R422, R424 bit 3). -/
def State.debugCommand (s : State) (h : Hdr) (act : Nat → Context → State → Done) : Res :=
  s.ctxCommand h 0x19 (fun v => v.feature 3) (fun _ c s => act h.ctx.toNat c s)

/-- A wave of a context, for its attached debugger. -/
def State.debuggable (s : State) (n : Nat) (c : Context) (k : WaveKey) : Bool := c.debugger && s.hasWave k && (s.wave k).ctx = n

/-- DEBUG_ATTACH (R29). -/
def execDebugAttach (h : Hdr) (s : State) : Res :=
  s.debugCommand h (fun n c s => .yes [] (s.setContext n { c with debugger := true }))

/-- The waves of a context go on by an amount: what their watchdogs count from is moved by it (R30). -/
def State.thaw (s : State) (n : Nat) : State :=
  let c := s.context n
  match c.frozenAt with
  | none => s
  | some at_ =>
    let d := s.clock - at_
    let s : State := { s with
      waves := s.waves.map (fun (p : WaveKey × Wave) => if p.2.ctx = n then (p.1, p.2.shiftWaits d) else p)
      teams := s.teams.map (fun (t : Nat × Team) => if t.2.ctx = n then (t.1, { t.2 with preempt := t.2.preempt.map (fun x => (x.1, x.2 + d)) }) else t)
      passes := s.passes.map (fun (p : Pass) => if p.ctx = n then { p with owners := p.owners.map (fun o => { o with movedAt := o.movedAt + d }) } else p) }
    s.setContext n { c with frozenAt := none }

/-- With no wave of a context stopped its watchdogs run again. -/
def State.thawIfFree (s : State) (n : Nat) : State := if s.waves.any (fun p => p.2.ctx = n && p.2.dbgStopped) then s else s.thaw n

/-- A stopped wave goes on: a BKPT that it met counts as executed (R30). -/
def Wave.resume (w : Wave) : Wave :=
  { w.mapLanes w.bkptLanes (fun _ l => { l with pc := l.pc + 4 }) with bkptLanes := 0, dbgStopped := false, dbgStep := false }

/-- DEBUG_DETACH (R29): with no debugger nothing stays stopped. (Log 62: DEDUCED.) -/
def execDebugDetach (h : Hdr) (s : State) : Res :=
  s.debugCommand h (fun n c s =>
    let s := s.setContext n { c with debugger := false, matches_ := [] }
    let s : State := { s with
      waves := s.waves.map (fun (p : WaveKey × Wave) => if p.2.ctx = n && p.2.dbgStopped then (p.1, p.2.resume) else p)
      teams := s.teams.map (fun (t : Nat × Team) => if t.2.ctx = n then (t.1, { t.2 with teamStop := false }) else t) }
    .yes [] (s.thawIfFree n))

/-- DEBUG_STOP (R30). -/
def execDebugStop (h : Hdr) (w : WaveKey) (s : State) : Res :=
  s.debugCommand h (fun n c s => if s.debuggable n c w then .yes [] (s.debugStopWave w) else .no stInvalid)

/-- DEBUG_TEAM_STOP (R30): from now on a stop of one wave of the team stops them all; where one is stopped already, the others stop now. -/
def execDebugTeamStop (h : Hdr) (team : Nat) (on : Bool) (s : State) : Res :=
  s.debugCommand h (fun n c s =>
    if !c.debugger || (s.team team).ctx ≠ n || (assocGet s.teams team).isNone then .no stInvalid
    else
      let s := s.modTeam team (fun t => { t with teamStop := on })
      match (s.teamWaves team).find? (fun p => p.2.dbgStopped) with
      | some p => .yes [] (if on then s.debugStopWave p.1 else s)
      | none => .yes [] s)

/-- Paths of a stepped wave that reach a wave-wide instruction are held there (R20), which issues nothing. -/
def State.stepArrivals (s : State) (k : WaveKey) : Nat → State
  | 0 => s
  | n + 1 =>
    match s.meets k { s.wave k with dbgStep := true } with
    | some (.hold pc m) => State.stepArrivals (s.arrive k pc m) k n
    | _ => s

/-- A step of the wave would issue something: a ready path, or an illegal word of a wave-wide opcode (R31, R80). -/
def State.canStep (s : State) (k : WaveKey) : Bool :=
  let w := { s.wave k with dbgStep := true }
  (s.waveCands k w).any Cand.ready || (s.meets k w matches some (.illegal _ _))

/-- DEBUG_STEP (R31): one instruction of one path, chosen over the wave's ready paths; with none it is reported as held or waiting (payload
1) and nothing issues. Threads that stopped at a BKPT have executed it. (Log 62: DEDUCED.) -/
def execDebugStep (h : Hdr) (w : WaveKey) (s : State) : Res :=
  s.debugCommand h (fun n c s =>
    if !s.debuggable n c w || !(s.wave w).dbgStopped then .no stInvalid
    else
      let s := (s.modWave w (fun x => { x.resume with dbgStopped := true })).stepArrivals w 32
      if s.canStep w then .yes [0] (s.modWave w (fun x => { x with dbgStep := true })) else .yes [1] s)

/-- DEBUG_RESUME (R30). -/
def execDebugResume (h : Hdr) (w : WaveKey) (s : State) : Res :=
  s.debugCommand h (fun n c s =>
    if s.debuggable n c w then .yes [] ((s.modWave w Wave.resume).thawIfFree n) else .no stInvalid)

/-- A register of a wave, as the debugger names it. -/
def Wave.debugGet (w : Wave) : DebugReg → Option Nat
  | .v n lane => if h : lane < 32 then (if n < 62 then some (w.vword n ⟨lane, h⟩).toNat else none) else none
  | .s n => if n < 62 then some (w.sreg (BitVec.ofNat 6 n) 0).toNat else none
  | .p n lane => if h : lane < 32 then (if n < 7 then some (if w.lanes[lane].preds.getLsbD n then 1 else 0) else none) else none
  | .q n => if n < 7 then some (if w.qregs.getLsbD n then 1 else 0) else none
  | .b n => if n < 16 then some (w.brec (BitVec.ofNat 4 n)).toNat else none
  | .pc lane => if h : lane < 32 then some w.lanes[lane].pc.toNat else none
  | .fpc => some w.fpc.toNat
  | .trap n => (w.trapRegs[n]?).map BitVec.toNat

/-- The wave with a trap register written: reserved bits of TCAUSE stay zero (R8). -/
def Wave.setTrapReg (w : Wave) (n : Nat) (x : Word) : Wave :=
  match n with
  | 0 => { w with tcause := x &&& 0x1FF }
  | 1 => { w with tpc := x }
  | 2 => { w with taddrLo := x }
  | 3 => { w with taddrHi := x }
  | 4 => { w with tmask := x }
  | 5 => { w with tinfo := x }
  | 6 => { w with tvec := x }
  | _ => { w with tpaths := x }

/-- A register written by the debugger; none where there is no such register or it does not hold the value: a PC and TPC are aligned (R12); a
thread put elsewhere meets an address match there anew (R30). -/
def Wave.debugSet (w : Wave) (pool : Pool) (r : DebugReg) (v : DWord) : Option Wave :=
  let x := loWord v
  match r with
  | .v n lane => if lane < 32 && n < 62 then some (w.writeV pool n (1#32 <<< lane) (fun _ => x) 0) else none
  | .s n => if n < 62 then some (w.setS (BitVec.ofNat 6 n) x false) else none
  | .p n lane => if lane < 32 && n < 7 then
      some (w.mapLanes (1#32 <<< lane) (fun _ l => l.setP (BitVec.ofNat 3 n) (v.getLsbD 0) false)) else none
  | .q n => if n < 7 then some (w.setQ (BitVec.ofNat 3 n) (v.getLsbD 0) false) else none
  | .b n => if n < 16 then some (w.setB (BitVec.ofNat 4 n) (w.brec (BitVec.ofNat 4 n) &&& ~~~0xFFFFFFFFFFFFFFFF#128 ||| v.setWidth 128) false) else none
  | .pc lane => if lane < 32 && x.toNat % 4 = 0 then
      some { w.mapLanes (1#32 <<< lane) (fun _ l => { l with pc := x }) with matchSkip := w.matchSkip &&& ~~~(1#32 <<< lane) } else none
  | .fpc => if x.toNat % 8 ≤ 4 then some { w with fpc := x &&& 0x00001F1F } else none
  | .trap n => if n < 8 && (n ≠ 1 || x.toNat % 4 = 0) then some (w.setTrapReg n x) else none

/-- DEBUG_READ_STATE (R422). -/
def execDebugReadState (h : Hdr) (w : WaveKey) (reg : DebugReg) (s : State) : Res :=
  s.debugCommand h (fun n c s =>
    if !s.debuggable n c w then .no stInvalid
    else match (s.wave w).debugGet reg with
      | none => .no stInvalid
      | some v => .yes (leBytes 16 v) s)

/-- DEBUG_WRITE_STATE (R422): of a stopped wave. A buffer record takes its low half; a vector register with no row takes one if the pool has
one free. -/
def execDebugWriteState (h : Hdr) (w : WaveKey) (reg : DebugReg) (value : DWord) (s : State) : Res :=
  s.debugCommand h (fun n c s =>
    if !s.debuggable n c w || !(s.wave w).dbgStopped then .no stInvalid
    else
      let lacks := match reg with
        | .v m _ => ((s.wave w).row m).isNone && s.rowsFree w.core = 0
        | _ => false
      if lacks then .no stNoRes
      else match (s.wave w).debugSet (s.pool w.core) reg value with
        | none => .no stInvalid
        | some x => .yes [] (s.setWave w x))

/-- DEBUG_ADDRESS_MATCH (R29): the address-match registers of the context: as many as the command names, since the spec gives no number of them.
(Log 71: DESIGN CHOICE.) -/
def execDebugAddressMatch (h : Hdr) (pcs : List Word) (s : State) : Res :=
  s.debugCommand h (fun n c s => if c.debugger then .yes [] (s.setContext n { c with matches_ := pcs }) else .no stInvalid)

end Sys2Proof.Machine
end

