-- ==== Sys2Proof/Machine/LaneInt.lean ====
section
/-! DEFINITION. Lane integer, logic and predicate instructions, opcodes 0x00 to 0x2D but for the floating compares
(spec/04_lane_integer.md R88 to R104). -/

namespace Sys2Proof.Machine

/-- NOP (R90): no effect in any lane; a poisoned guard still raises POISON (R176). -/
def execNop (f : V3) (s : State) : Res :=
  match s.laneBegin [] f.g f.gn [] [] with
  | .stop s => .next s
  | .go s _ => s.laneDone [] (fun _ w => w)

/-- MOV (R91). -/
def execMov (f : V3) (s : State) : Res := s.v3One f id
/-- MOVI (R91). -/
def execMovi (f : VI) (s : State) : Res := s.laneOp [] [] 7#3 false f.d (fun _ _ => sextImm f.imm) (fun _ => 0)
/-- BCAST (R91): s[A], or WAVE, in every lane; poison of the uniform register passes on (R176). -/
def execBcast (f : VI) (s : State) : Res :=
  s.laneOp [] [] 7#3 false f.d (fun w _ => w.sreg f.a 0) (fun w => if w.sregPois f.a then allLanes else 0)

/-- SEL (R92): G selects in every lane of the path; a poisoned selector raises POISON (R176). The result is poisoned by the
operand it takes. -/
def execSel (f : V3) (s : State) : Res :=
  let gp := s.cur.guardPois s.sel.mask f.g
  if gp ≠ 0 then .next (s.trapHere causePoison gp 0)
  else
    s.laneOp (vname f.a ++ vname f.b) (markNames f.ka f.kb (vname f.a) (vname f.b)) 7#3 false f.d
      (fun w i => if w.lanes[i].p f.g != f.gn then w.vsrc f.a f.lit i else w.vsrc f.b f.lit i)
      (fun w =>
        let t := w.guardLanes s.sel.mask f.g f.gn
        (w.vsrcPois f.a &&& t) ||| (w.vsrcPois f.b &&& ~~~t))

/-- PERM (R93). -/
def execPerm (f : V4) (s : State) : Res := s.v4Op f Int32.perm

/-- IADD (R94). -/
def execIadd (f : V3) (s : State) : Res := s.v3Op f (fun a b => a + b)
/-- ISUB (R94). -/
def execIsub (f : V3) (s : State) : Res := s.v3Op f (fun a b => a - b)
/-- IADDI (R96). -/
def execIaddi (f : VI) (s : State) : Res := s.viOp f (fun a => a + sextImm f.imm)
/-- IMUL (R94). -/
def execImul (f : V3) (s : State) : Res := s.v3Op f (fun a b => a * b)
/-- IMULHS (R94). -/
def execImulhs (f : V3) (s : State) : Res := s.v3Op f Int32.mulhs
/-- IMULHU (R94). -/
def execImulhu (f : V3) (s : State) : Res := s.v3Op f Int32.mulhu
/-- IMAD (R97). -/
def execImad (f : V4) (s : State) : Res := s.v4Op f (fun a b c => a * b + c)

/-- A wide product (R98): single sources, pair result. -/
def State.v3Wide (s : State) (f : V3) (op : Word → Word → DWord) : Res :=
  s.lanePair (vname f.a ++ vname f.b) (markNames f.ka f.kb (vname f.a) (vname f.b)) f.g f.gn f.d
    (fun w i => op (w.vsrc f.a f.lit i) (w.vsrc f.b f.lit i)) (fun w => w.vsrcPois f.a ||| w.vsrcPois f.b)
/-- A pair operation (R98); a mark on a pair covers both registers (R71). -/
def State.v3Pairs (s : State) (f : V3) (op : DWord → DWord → DWord) : Res :=
  s.lanePair (vnames f.a 2 ++ vnames f.b 2) (markNames f.ka f.kb (vnames f.a 2) (vnames f.b 2)) f.g f.gn f.d
    (fun w i => op (w.vpair f.a i) (w.vpair f.b i)) (fun w => w.vpairPois f.a ||| w.vpairPois f.b)

/-- IMULWS (R98). -/
def execImulws (f : V3) (s : State) : Res := s.v3Wide f Int32.mulWideS
/-- IMULWU (R98). -/
def execImulwu (f : V3) (s : State) : Res := s.v3Wide f Int32.mulWideU
/-- IADD64 (R98). -/
def execIadd64 (f : V3) (s : State) : Res := s.v3Pairs f (fun a b => a + b)
/-- ISUB64 (R98). -/
def execIsub64 (f : V3) (s : State) : Res := s.v3Pairs f (fun a b => a - b)

/-- IMIN (R94). -/
def execImin (f : V3) (s : State) : Res := s.v3Op f Int32.smin
/-- IMAX (R94). -/
def execImax (f : V3) (s : State) : Res := s.v3Op f Int32.smax
/-- UMIN (R94). -/
def execUmin (f : V3) (s : State) : Res := s.v3Op f Int32.umin
/-- UMAX (R94). -/
def execUmax (f : V3) (s : State) : Res := s.v3Op f Int32.umax
/-- IABS (R95). -/
def execIabs (f : V3) (s : State) : Res := s.v3One f Int32.abs
/-- AND (R94). -/
def execAnd (f : V3) (s : State) : Res := s.v3Op f (fun a b => a &&& b)
/-- OR (R94). -/
def execOr (f : V3) (s : State) : Res := s.v3Op f (fun a b => a ||| b)
/-- XOR (R94). -/
def execXor (f : V3) (s : State) : Res := s.v3Op f (fun a b => a ^^^ b)
/-- ANDN (R94). -/
def execAndn (f : V3) (s : State) : Res := s.v3Op f Int32.andn
/-- ANDI (R96). -/
def execAndi (f : VI) (s : State) : Res := s.viOp f (fun a => a &&& zextImm f.imm)
/-- ORI (R96). -/
def execOri (f : VI) (s : State) : Res := s.viOp f (fun a => a ||| zextImm f.imm)
/-- XORI (R96). -/
def execXori (f : VI) (s : State) : Res := s.viOp f (fun a => a ^^^ zextImm f.imm)
/-- SHL (R94). -/
def execShl (f : V3) (s : State) : Res := s.v3Op f Int32.shl
/-- SHR (R94). -/
def execShr (f : V3) (s : State) : Res := s.v3Op f Int32.shr
/-- SAR (R94). -/
def execSar (f : V3) (s : State) : Res := s.v3Op f Int32.sar
/-- SHLI (R96). -/
def execShli (f : VI) (s : State) : Res := s.viOp f (fun a => Int32.shl a (zextImm f.imm &&& 31))
/-- SHRI (R96). -/
def execShri (f : VI) (s : State) : Res := s.viOp f (fun a => Int32.shr a (zextImm f.imm &&& 31))
/-- SARI (R96). -/
def execSari (f : VI) (s : State) : Res := s.viOp f (fun a => Int32.sar a (zextImm f.imm &&& 31))
/-- SHF (R99). -/
def execShf (f : V4) (s : State) : Res := s.v4Op f Int32.funnel
/-- BFEU (R100): B is unused. -/
def execBfeu (f : V4) (s : State) : Res :=
  s.laneOp (vname f.a ++ vname f.c) [] 7#3 false f.d (fun w i => Int32.bfeu (w.vsrc f.a f.lit i) (w.vsrc f.c f.lit i))
    (fun w => w.vsrcPois f.a ||| w.vsrcPois f.c)
/-- BFES (R100): B is unused. -/
def execBfes (f : V4) (s : State) : Res :=
  s.laneOp (vname f.a ++ vname f.c) [] 7#3 false f.d (fun w i => Int32.bfes (w.vsrc f.a f.lit i) (w.vsrc f.c f.lit i))
    (fun w => w.vsrcPois f.a ||| w.vsrcPois f.c)
/-- BFI (R100). -/
def execBfi (f : V4) (s : State) : Res := s.v4Op f Int32.bfi
/-- BIT (R101). -/
def execBit (f : VX) (s : State) : Res :=
  s.laneOp (vname f.a) [] 7#3 false f.d (fun w i => Int32.bitOp f.fn.toNat (w.vsrc f.a f.lit i)) (fun w => w.vsrcPois f.a)

/-- ICMP (R102). -/
def execIcmp (f : VC) (s : State) : Res :=
  s.lanePred (vname f.a ++ vname f.b) (markNames f.ka f.kb (vname f.a) (vname f.b)) f.g f.gn f.pd
    (fun w i => Int32.compare f.cc (w.vsrc f.a f.lit i) (w.vsrc f.b f.lit i)) (fun w => w.vsrcPois f.a ||| w.vsrcPois f.b)
/-- ICMP64 (R102). -/
def execIcmp64 (f : VC) (s : State) : Res :=
  s.lanePred (vnames f.a 2 ++ vnames f.b 2) (markNames f.ka f.kb (vnames f.a 2) (vnames f.b 2)) f.g f.gn f.pd
    (fun w i => Int32.compare f.cc (w.vpair f.a i) (w.vpair f.b i)) (fun w => w.vpairPois f.a ||| w.vpairPois f.b)

/-- PLOG (R103). -/
def execPlog (f : VP) (s : State) : Res :=
  s.lanePred [] [] f.g f.gn f.pd
    (fun w i => Int32.truth f.tt (w.lanes[i].p f.pa) (w.lanes[i].p f.pb) (w.lanes[i].p f.pc))
    (fun w => w.laneMask (fun l => l.pp f.pa || l.pp f.pb || l.pp f.pc))

/-- PMOV (R104): .PTOV packs the seven predicates, .VTOP spreads a word over them. -/
def execPmov (f : VX) (s : State) : Res :=
  if f.fn = 0#6 then
    s.laneOp [] [] 7#3 false f.d (fun w i => w.lanes[i].preds.setWidth 32) (fun w => w.laneMask (fun l => l.predPois != 0))
  else
    match s.laneBegin (vname f.a) 7#3 false [] [] with
    | .stop s => .next s
    | .go s e => s.laneDone [] (fun _ w => w.mapLanes e (fun i l =>
        { l with preds := (s.cur.vsrc f.a f.lit i).setWidth 7
                 predPois := if (s.cur.vsrcPois f.a).getLsbD i.val then BitVec.allOnes 7 else 0 }))

end Sys2Proof.Machine
end

