-- ==== Sys2Proof/Machine/Dispatch.lean ====
section
/-! DEFINITION. The meaning of every instruction: one arm per constructor of Instr, each one direct call. -/

namespace Sys2Proof.Machine

def exec (i : Instr) (s : State) : Host.Outcome State Fault Refusal :=
  match i with
  | .nop f => Sys2Proof.Machine.execNop f s
  | .mov f => Sys2Proof.Machine.execMov f s
  | .movi f => Sys2Proof.Machine.execMovi f s
  | .bcast f => Sys2Proof.Machine.execBcast f s
  | .sel f => Sys2Proof.Machine.execSel f s
  | .perm f => Sys2Proof.Machine.execPerm f s
  | .iadd f => Sys2Proof.Machine.execIadd f s
  | .isub f => Sys2Proof.Machine.execIsub f s
  | .iaddi f => Sys2Proof.Machine.execIaddi f s
  | .imul f => Sys2Proof.Machine.execImul f s
  | .imulhs f => Sys2Proof.Machine.execImulhs f s
  | .imulhu f => Sys2Proof.Machine.execImulhu f s
  | .imad f => Sys2Proof.Machine.execImad f s
  | .imulws f => Sys2Proof.Machine.execImulws f s
  | .imulwu f => Sys2Proof.Machine.execImulwu f s
  | .iadd64 f => Sys2Proof.Machine.execIadd64 f s
  | .isub64 f => Sys2Proof.Machine.execIsub64 f s
  | .imin f => Sys2Proof.Machine.execImin f s
  | .imax f => Sys2Proof.Machine.execImax f s
  | .umin f => Sys2Proof.Machine.execUmin f s
  | .umax f => Sys2Proof.Machine.execUmax f s
  | .iabs f => Sys2Proof.Machine.execIabs f s
  | .and f => Sys2Proof.Machine.execAnd f s
  | .or f => Sys2Proof.Machine.execOr f s
  | .xor f => Sys2Proof.Machine.execXor f s
  | .andn f => Sys2Proof.Machine.execAndn f s
  | .andi f => Sys2Proof.Machine.execAndi f s
  | .ori f => Sys2Proof.Machine.execOri f s
  | .xori f => Sys2Proof.Machine.execXori f s
  | .shl f => Sys2Proof.Machine.execShl f s
  | .shr f => Sys2Proof.Machine.execShr f s
  | .sar f => Sys2Proof.Machine.execSar f s
  | .shli f => Sys2Proof.Machine.execShli f s
  | .shri f => Sys2Proof.Machine.execShri f s
  | .sari f => Sys2Proof.Machine.execSari f s
  | .shf f => Sys2Proof.Machine.execShf f s
  | .bfeu f => Sys2Proof.Machine.execBfeu f s
  | .bfes f => Sys2Proof.Machine.execBfes f s
  | .bfi f => Sys2Proof.Machine.execBfi f s
  | .bit f => Sys2Proof.Machine.execBit f s
  | .icmp f => Sys2Proof.Machine.execIcmp f s
  | .icmp64 f => Sys2Proof.Machine.execIcmp64 f s
  | .fcmp f => Sys2Proof.Machine.execFcmp f s
  | .dcmp f => Sys2Proof.Machine.execDcmp f s
  | .plog f => Sys2Proof.Machine.execPlog f s
  | .pmov f => Sys2Proof.Machine.execPmov f s
  | .fadd f => Sys2Proof.Machine.execFadd f s
  | .fsub f => Sys2Proof.Machine.execFsub f s
  | .fmul f => Sys2Proof.Machine.execFmul f s
  | .ffma f => Sys2Proof.Machine.execFfma f s
  | .fmin f => Sys2Proof.Machine.execFmin f s
  | .fmax f => Sys2Proof.Machine.execFmax f s
  | .fminn f => Sys2Proof.Machine.execFminn f s
  | .fmaxn f => Sys2Proof.Machine.execFmaxn f s
  | .fsgn f => Sys2Proof.Machine.execFsgn f s
  | .fdiv f => Sys2Proof.Machine.execFdiv f s
  | .fsqrt f => Sys2Proof.Machine.execFsqrt f s
  | .fsfu f => Sys2Proof.Machine.execFsfu f s
  | .frnd f => Sys2Proof.Machine.execFrnd f s
  | .dadd f => Sys2Proof.Machine.execDadd f s
  | .dsub f => Sys2Proof.Machine.execDsub f s
  | .dmul f => Sys2Proof.Machine.execDmul f s
  | .dfma f => Sys2Proof.Machine.execDfma f s
  | .dmin f => Sys2Proof.Machine.execDmin f s
  | .dmax f => Sys2Proof.Machine.execDmax f s
  | .ddiv f => Sys2Proof.Machine.execDdiv f s
  | .dsqrt f => Sys2Proof.Machine.execDsqrt f s
  | .dsfu f => Sys2Proof.Machine.execDsfu f s
  | .hadd2 f => Sys2Proof.Machine.execHadd2 f s
  | .hmul2 f => Sys2Proof.Machine.execHmul2 f s
  | .hfma2 f => Sys2Proof.Machine.execHfma2 f s
  | .hmnx2 f => Sys2Proof.Machine.execHmnx2 f s
  | .badd2 f => Sys2Proof.Machine.execBadd2 f s
  | .bmul2 f => Sys2Proof.Machine.execBmul2 f s
  | .bfma2 f => Sys2Proof.Machine.execBfma2 f s
  | .cvt f => Sys2Proof.Machine.execCvt f s
  | .ncvt f => Sys2Proof.Machine.execNcvt f s
  | .regrp f => Sys2Proof.Machine.execRegrp f s
  | .bra f => Sys2Proof.Machine.execBra f s
  | .call f => Sys2Proof.Machine.execCall f s
  | .brx f => Sys2Proof.Machine.execBrx f s
  | .callx f => Sys2Proof.Machine.execCallx f s
  | .ret f => Sys2Proof.Machine.execRet f s
  | .exit f => Sys2Proof.Machine.execExit f s
  | .trap f => Sys2Proof.Machine.execTrap f s
  | .bkpt f => Sys2Proof.Machine.execBkpt f s
  | .vote f => Sys2Proof.Machine.execVote f s
  | .shfl f => Sys2Proof.Machine.execShfl f s
  | .wred f => Sys2Proof.Machine.execWred f s
  | .wscan f => Sys2Proof.Machine.execWscan f s
  | .wargx f => Sys2Proof.Machine.execWargx f s
  | .matchEq f => Sys2Proof.Machine.execMatchEq f s
  | .elect f => Sys2Proof.Machine.execElect f s
  | .ldb f => Sys2Proof.Machine.execLdb f s
  | .ldbu f => Sys2Proof.Machine.execLdbu f s
  | .ldh f => Sys2Proof.Machine.execLdh f s
  | .ldhu f => Sys2Proof.Machine.execLdhu f s
  | .ldw f => Sys2Proof.Machine.execLdw f s
  | .ldd f => Sys2Proof.Machine.execLdd f s
  | .ldq f => Sys2Proof.Machine.execLdq f s
  | .stb f => Sys2Proof.Machine.execStb f s
  | .sth f => Sys2Proof.Machine.execSth f s
  | .stw f => Sys2Proof.Machine.execStw f s
  | .std f => Sys2Proof.Machine.execStd f s
  | .stq f => Sys2Proof.Machine.execStq f s
  | .ldaq f => Sys2Proof.Machine.execLdaq f s
  | .strl f => Sys2Proof.Machine.execStrl f s
  | .atom f => Sys2Proof.Machine.execAtom f s
  | .atoms f => Sys2Proof.Machine.execAtoms f s
  | .ldsw f => Sys2Proof.Machine.execLdsw f s
  | .ldsd f => Sys2Proof.Machine.execLdsd f s
  | .ldsq f => Sys2Proof.Machine.execLdsq f s
  | .stsw f => Sys2Proof.Machine.execStsw f s
  | .stsd f => Sys2Proof.Machine.execStsd f s
  | .stsq f => Sys2Proof.Machine.execStsq f s
  | .stsr f => Sys2Proof.Machine.execStsr f s
  | .mmad f => Sys2Proof.Machine.execMmad f s
  | .mmas f => Sys2Proof.Machine.execMmas f s
  | .mmah f => Sys2Proof.Machine.execMmah f s
  | .mmab f => Sys2Proof.Machine.execMmab f s
  | .mman f => Sys2Proof.Machine.execMman f s
  | .mmaq f => Sys2Proof.Machine.execMmaq f s
  | .mmasp f => Sys2Proof.Machine.execMmasp f s
  | .accst f => Sys2Proof.Machine.execAccst f s
  | .pxlock f => Sys2Proof.Machine.execPxlock f s
  | .pxexp f => Sys2Proof.Machine.execPxexp f s
  | .pxkill f => Sys2Proof.Machine.execPxkill f s
  | .pxrel f => Sys2Proof.Machine.execPxrel f s
  | .unop f => Sys2Proof.Machine.execUnop f s
  | .umov f => Sys2Proof.Machine.execUmov f s
  | .umovi f => Sys2Proof.Machine.execUmovi f s
  | .uadd f => Sys2Proof.Machine.execUadd f s
  | .usub f => Sys2Proof.Machine.execUsub f s
  | .uaddi f => Sys2Proof.Machine.execUaddi f s
  | .umul f => Sys2Proof.Machine.execUmul f s
  | .umulhu f => Sys2Proof.Machine.execUmulhu f s
  | .uadd64 f => Sys2Proof.Machine.execUadd64 f s
  | .usub64 f => Sys2Proof.Machine.execUsub64 f s
  | .uminUniform f => Sys2Proof.Machine.execUminUniform f s
  | .umaxUniform f => Sys2Proof.Machine.execUmaxUniform f s
  | .uminu f => Sys2Proof.Machine.execUminu f s
  | .umaxu f => Sys2Proof.Machine.execUmaxu f s
  | .uand f => Sys2Proof.Machine.execUand f s
  | .uor f => Sys2Proof.Machine.execUor f s
  | .uxor f => Sys2Proof.Machine.execUxor f s
  | .uandi f => Sys2Proof.Machine.execUandi f s
  | .uori f => Sys2Proof.Machine.execUori f s
  | .ushl f => Sys2Proof.Machine.execUshl f s
  | .ushr f => Sys2Proof.Machine.execUshr f s
  | .usar f => Sys2Proof.Machine.execUsar f s
  | .ushli f => Sys2Proof.Machine.execUshli f s
  | .ushri f => Sys2Proof.Machine.execUshri f s
  | .ubfe f => Sys2Proof.Machine.execUbfe f s
  | .ubit f => Sys2Proof.Machine.execUbit f s
  | .ucmp f => Sys2Proof.Machine.execUcmp f s
  | .usel f => Sys2Proof.Machine.execUsel f s
  | .qlog f => Sys2Proof.Machine.execQlog f s
  | .ufadd f => Sys2Proof.Machine.execUfadd f s
  | .ufmul f => Sys2Proof.Machine.execUfmul f s
  | .ucvt f => Sys2Proof.Machine.execUcvt f s
  | .ubra f => Sys2Proof.Machine.execUbra f s
  | .ucall f => Sys2Proof.Machine.execUcall f s
  | .ubrx f => Sys2Proof.Machine.execUbrx f s
  | .uret f => Sys2Proof.Machine.execUret f s
  | .uloop f => Sys2Proof.Machine.execUloop f s
  | .rdlane f => Sys2Proof.Machine.execRdlane f s
  | .actm f => Sys2Proof.Machine.execActm f s
  | .sread f => Sys2Proof.Machine.execSread f s
  | .swrite f => Sys2Proof.Machine.execSwrite f s
  | .fence f => Sys2Proof.Machine.execFence f s
  | .wait f => Sys2Proof.Machine.execWait f s
  | .waitx f => Sys2Proof.Machine.execWaitx f s
  | .barinit f => Sys2Proof.Machine.execBarinit f s
  | .bararv f => Sys2Proof.Machine.execBararv f s
  | .barwt f => Sys2Proof.Machine.execBarwt f s
  | .barsync f => Sys2Proof.Machine.execBarsync f s
  | .gbarv f => Sys2Proof.Machine.execGbarv f s
  | .gbwt f => Sys2Proof.Machine.execGbwt f s
  | .gbset f => Sys2Proof.Machine.execGbset f s
  | .racq f => Sys2Proof.Machine.execRacq f s
  | .rcmt f => Sys2Proof.Machine.execRcmt f s
  | .rpeek f => Sys2Proof.Machine.execRpeek f s
  | .rrel f => Sys2Proof.Machine.execRrel f s
  | .tload f => Sys2Proof.Machine.execTload f s
  | .tstore f => Sys2Proof.Machine.execTstore f s
  | .tgath f => Sys2Proof.Machine.execTgath f s
  | .tmcast f => Sys2Proof.Machine.execTmcast f s
  | .nmv f => Sys2Proof.Machine.execNmv f s
  | .rgnb f => Sys2Proof.Machine.execRgnb f s
  | .rgnc f => Sys2Proof.Machine.execRgnc f s
  | .rgna f => Sys2Proof.Machine.execRgna f s
  | .safept f => Sys2Proof.Machine.execSafept f s
  | .free f => Sys2Proof.Machine.execFree f s
  | .yield f => Sys2Proof.Machine.execYield f s
  | .ttake f => Sys2Proof.Machine.execTtake f s
  | .tspawn f => Sys2Proof.Machine.execTspawn f s
  | .ttrig f => Sys2Proof.Machine.execTtrig f s
  | .prim f => Sys2Proof.Machine.execPrim f s
  | .coll f => Sys2Proof.Machine.execColl f s
  | .recld f => Sys2Proof.Machine.execRecld f s
  | .trapu f => Sys2Proof.Machine.execTrapu f s
  | .rtt f => Sys2Proof.Machine.execRtt f s
  | .errinjWrite w value => Sys2Proof.Machine.execErrinjWrite w value s
  | .clockReadLatch w time d => Sys2Proof.Machine.execClockReadLatch w time d s
  | .yieldExpiry w lanes => Sys2Proof.Machine.execYieldExpiry w lanes s
  | .addressMatchStop w pc => Sys2Proof.Machine.execAddressMatchStop w pc s
  | .loadDataArrival w op => Sys2Proof.Machine.execLoadDataArrival w op s
  | .storeAcknowledge w op => Sys2Proof.Machine.execStoreAcknowledge w op s
  | .waitComplete w pc => Sys2Proof.Machine.execWaitComplete w pc s
  | .fenceActionComplete w => Sys2Proof.Machine.execFenceActionComplete w s
  | .waveRetire w => Sys2Proof.Machine.execWaveRetire w s
  | .rowGrant core => Sys2Proof.Machine.execRowGrant core s
  | .swapCandidacyTimeout w => Sys2Proof.Machine.execSwapCandidacyTimeout w s
  | .swapOut w => Sys2Proof.Machine.execSwapOut w s
  | .swapGranuleDrain w => Sys2Proof.Machine.execSwapGranuleDrain w s
  | .swapRestore w => Sys2Proof.Machine.execSwapRestore w s
  | .splitChange core => Sys2Proof.Machine.execSplitChange core s
  | .rowRelocation w name => Sys2Proof.Machine.execRowRelocation w name s
  | .l1Eviction core ctx line => Sys2Proof.Machine.execL1Eviction core ctx line s
  | .teamAdmission team core => Sys2Proof.Machine.execTeamAdmission team core s
  | .crewAdmission crew cluster => Sys2Proof.Machine.execCrewAdmission crew cluster s
  | .crewReservation crew die => Sys2Proof.Machine.execCrewReservation crew die s
  | .preemptRequest team => Sys2Proof.Machine.execPreemptRequest team s
  | .forcedStop w => Sys2Proof.Machine.execForcedStop w s
  | .teamSave team => Sys2Proof.Machine.execTeamSave team s
  | .teamRestore crew cluster => Sys2Proof.Machine.execTeamRestore crew cluster s
  | .priorityPreemption => Sys2Proof.Machine.execPriorityPreemption s
  | .thermalMigration team => Sys2Proof.Machine.execThermalMigration team s
  | .laneRetirement core quarter phys => Sys2Proof.Machine.execLaneRetirement core quarter phys s
  | .replayPlacement team => Sys2Proof.Machine.execReplayPlacement team s
  | .rendezvousComplete team => Sys2Proof.Machine.execRendezvousComplete team s
  | .rgncCompletion team => Sys2Proof.Machine.execRgncCompletion team s
  | .barTimeout w pc => Sys2Proof.Machine.execBarTimeout w pc s
  | .rendezvousTimeout w => Sys2Proof.Machine.execRendezvousTimeout w s
  | .groupBarrierTimeout w pc => Sys2Proof.Machine.execGroupBarrierTimeout w pc s
  | .ringRetry w pc => Sys2Proof.Machine.execRingRetry w pc s
  | .ringTimeout w pc => Sys2Proof.Machine.execRingTimeout w pc s
  | .armedMapUpdate w core => Sys2Proof.Machine.execArmedMapUpdate w core s
  | .barinitRepliesDone w pc => Sys2Proof.Machine.execBarinitRepliesDone w pc s
  | .stsrPerform w op => Sys2Proof.Machine.execStsrPerform w op s
  | .ttrigMark w => Sys2Proof.Machine.execTtrigMark w s
  | .dependenceReevaluation => Sys2Proof.Machine.execDependenceReevaluation s
  | .taskSelect => Sys2Proof.Machine.execTaskSelect s
  | .priorityAging ctx qid => Sys2Proof.Machine.execPriorityAging ctx qid s
  | .rangeSplit cluster => Sys2Proof.Machine.execRangeSplit cluster s
  | .dispatcherAccessFault ctx qid access => Sys2Proof.Machine.execDispatcherAccessFault ctx qid access s
  | .l2Request req => Sys2Proof.Machine.execL2Request req s
  | .rdcFill req => Sys2Proof.Machine.execRdcFill req s
  | .deadlockProbeSend die router port cls outRouter outPort => Sys2Proof.Machine.execDeadlockProbeSend die router port cls outRouter outPort s
  | .probeForward die probe head => Sys2Proof.Machine.execProbeForward die probe head s
  | .recoveryToken die token => Sys2Proof.Machine.execRecoveryToken die token s
  | .recoveryShift die token => Sys2Proof.Machine.execRecoveryShift die token s
  | .linkReplay die link => Sys2Proof.Machine.execLinkReplay die link s
  | .linkDead die link => Sys2Proof.Machine.execLinkDead die link s
  | .requestTimeout req => Sys2Proof.Machine.execRequestTimeout req s
  | .packetAgeDiscard req die => Sys2Proof.Machine.execPacketAgeDiscard req die s
  | .staleReplyDrop req die => Sys2Proof.Machine.execStaleReplyDrop req die s
  | .copyTransfer w op => Sys2Proof.Machine.execCopyTransfer w op s
  | .copyArrival w op => Sys2Proof.Machine.execCopyArrival w op s
  | .tmcastMemberDelivery w op member linkDead => Sys2Proof.Machine.execTmcastMemberDelivery w op member linkDead s
  | .cloveMissRead w op => Sys2Proof.Machine.execCloveMissRead w op s
  | .tileOpStart w op => Sys2Proof.Machine.execTileOpStart w op s
  | .tileOpComplete w op => Sys2Proof.Machine.execTileOpComplete w op s
  | .accstComplete w op => Sys2Proof.Machine.execAccstComplete w op s
  | .nmvComplete w op => Sys2Proof.Machine.execNmvComplete w op s
  | .scoutBatchServiced w answers => Sys2Proof.Machine.execScoutBatchServiced w answers s
  | .migrationRetry w => Sys2Proof.Machine.execMigrationRetry w s
  | .migrationTimeout w => Sys2Proof.Machine.execMigrationTimeout w s
  | .invalidationComplete ctx => Sys2Proof.Machine.execInvalidationComplete ctx s
  | .quiescenceAdvance => Sys2Proof.Machine.execQuiescenceAdvance s
  | .fetchFault w pc => Sys2Proof.Machine.execFetchFault w pc s
  | .primAccept w pc => Sys2Proof.Machine.execPrimAccept w pc s
  | .exchangeForward ctx qid => Sys2Proof.Machine.execExchangeForward ctx qid s
  | .recordBin ctx qid die => Sys2Proof.Machine.execRecordBin ctx qid die s
  | .closeMarkerArrival ctx qid die grain => Sys2Proof.Machine.execCloseMarkerArrival ctx qid die grain s
  | .tileFlush ctx qid die tx ty => Sys2Proof.Machine.execTileFlush ctx qid die tx ty s
  | .tileBufferGrant ctx qid tx ty core => Sys2Proof.Machine.execTileBufferGrant ctx qid tx ty core s
  | .passRender ctx qid die => Sys2Proof.Machine.execPassRender ctx qid die s
  | .passEnd ctx qid => Sys2Proof.Machine.execPassEnd ctx qid s
  | .pixelWaveLaunch ctx qid tx ty => Sys2Proof.Machine.execPixelWaveLaunch ctx qid tx ty s
  | .blendApply ctx qid tx ty => Sys2Proof.Machine.execBlendApply ctx qid tx ty s
  | .sectionAcquire w pc => Sys2Proof.Machine.execSectionAcquire w pc s
  | .rasterWatchdog ctx qid die => Sys2Proof.Machine.execRasterWatchdog ctx qid die s
  | .sectionTimeout w lane => Sys2Proof.Machine.execSectionTimeout w lane s
  | .rasterAccessFault ctx qid addr cause => Sys2Proof.Machine.execRasterAccessFault ctx qid addr cause s
  | .hbmScrub stack sector correctable => Sys2Proof.Machine.execHbmScrub stack sector correctable s
  | .bankRowRetirement stack bank row => Sys2Proof.Machine.execBankRowRetirement stack bank row s
  | .nodeReply req data => Sys2Proof.Machine.execNodeReply req data s
  | .notReadyRetry req => Sys2Proof.Machine.execNotReadyRetry req s
  | .nodeNegativeReply req code => Sys2Proof.Machine.execNodeNegativeReply req code s
  | .ualinkKeyInstall port key => Sys2Proof.Machine.execUalinkKeyInstall port key s
  | .keySwitch port => Sys2Proof.Machine.execKeySwitch port s
  | .keyRetire port => Sys2Proof.Machine.execKeyRetire port s
  | .flitAuthFail port => Sys2Proof.Machine.execFlitAuthFail port s
  | .ualinkPortDead port => Sys2Proof.Machine.execUalinkPortDead port s
  | .collMemberDrop w op rank => Sys2Proof.Machine.execCollMemberDrop w op rank s
  | .collExchangeComplete w op contribs => Sys2Proof.Machine.execCollExchangeComplete w op contribs s
  | .moduleReset patches localGib => Sys2Proof.Machine.execModuleReset patches localGib s
  | .hostRdmaRead mkey va n => Sys2Proof.Machine.execHostRdmaRead mkey va n s
  | .hostRdmaWrite mkey va data => Sys2Proof.Machine.execHostRdmaWrite mkey va data s
  | .shortMessageDrop bytes qp srcIp => Sys2Proof.Machine.execShortMessageDrop bytes qp srcIp s
  | .hostOpen h hostMax features => Sys2Proof.Machine.execHostOpen h hostMax features s
  | .hostClose h => Sys2Proof.Machine.execHostClose h s
  | .createCtx h p => Sys2Proof.Machine.execCreateCtx h p s
  | .destroyCtx h => Sys2Proof.Machine.execDestroyCtx h s
  | .hostMap h p => Sys2Proof.Machine.execHostMap h p s
  | .createQueue h p => Sys2Proof.Machine.execCreateQueue h p s
  | .loadCode h image => Sys2Proof.Machine.execLoadCode h image s
  | .codeSync h => Sys2Proof.Machine.execCodeSync h s
  | .submit h qid p => Sys2Proof.Machine.execSubmit h qid p s
  | .readLog h fromSeq => Sys2Proof.Machine.execReadLog h fromSeq s
  | .setPolicyBinpool h mib => Sys2Proof.Machine.execSetPolicyBinpool h mib s
  | .setPolicyJournal h mib => Sys2Proof.Machine.execSetPolicyJournal h mib s
  | .setPolicyGroup h group claim => Sys2Proof.Machine.execSetPolicyGroup h group claim s
  | .setPolicyFabmap h windows => Sys2Proof.Machine.execSetPolicyFabmap h windows s
  | .setPolicyCgroup h p => Sys2Proof.Machine.execSetPolicyCgroup h p s
  | .setPolicyCtimeout h us => Sys2Proof.Machine.execSetPolicyCtimeout h us s
  | .debugAttach h => Sys2Proof.Machine.execDebugAttach h s
  | .debugDetach h => Sys2Proof.Machine.execDebugDetach h s
  | .debugStop h w => Sys2Proof.Machine.execDebugStop h w s
  | .debugTeamStop h team on => Sys2Proof.Machine.execDebugTeamStop h team on s
  | .debugStep h w => Sys2Proof.Machine.execDebugStep h w s
  | .debugResume h w => Sys2Proof.Machine.execDebugResume h w s
  | .debugReadState h w reg => Sys2Proof.Machine.execDebugReadState h w reg s
  | .debugWriteState h w reg value => Sys2Proof.Machine.execDebugWriteState h w reg value s
  | .debugAddressMatch h pcs => Sys2Proof.Machine.execDebugAddressMatch h pcs s
  | .getVersion h => Sys2Proof.Machine.execGetVersion h s
  | .getCapabilities h => Sys2Proof.Machine.execGetCapabilities h s
  | .negotiateAlgorithms h offered => Sys2Proof.Machine.execNegotiateAlgorithms h offered s
  | .getDigests h => Sys2Proof.Machine.execGetDigests h s
  | .getCertificate h offset length => Sys2Proof.Machine.execGetCertificate h offset length s
  | .challenge h nonce => Sys2Proof.Machine.execChallenge h nonce s
  | .getMeasurements h index => Sys2Proof.Machine.execGetMeasurements h index s
  | .keyExchange h hostKey => Sys2Proof.Machine.execKeyExchange h hostKey s
  | .spdmFinish h verified => Sys2Proof.Machine.execSpdmFinish h verified s
  | .endSession h => Sys2Proof.Machine.execEndSession h s
  | .illegalEncoding op word => Sys2Proof.Machine.execIllegalEncoding op word s
  | .pageFaultServiced fault answer => Sys2Proof.Machine.execPageFaultServiced fault answer s
  | .pageMigration ctx va toStack => Sys2Proof.Machine.execPageMigration ctx va toStack s
  | .deadPortRestore port => Sys2Proof.Machine.execDeadPortRestore port s
  | .hostPortFailure port => Sys2Proof.Machine.execHostPortFailure port s
  | .ptimeDiscipline ns => Sys2Proof.Machine.execPtimeDiscipline ns s

end Sys2Proof.Machine
end

