-- ==== Sys2Proof/Machine/Internal.lean ====
section
/-! DEFINITION. The moves that the module makes of itself, with no word from outside: the first of them, in a fixed order, that changes
the state (log 1: DESIGN CHOICE). A move that is not enabled leaves the state as it is. What needs an answer from outside (a page service, a fabric
node, another module, the host) comes by the agenda only; what strikes stored
bits, and heat, by the list of accidents (log 44: DESIGN CHOICE). -/

namespace Sys2Proof.Machine

/-- An internal move: the event of the table that it is, with what it is about; the steps of a request that the table names no event for; and two
that end what nothing waits for any more: waits whose generation has gone by (R200, R275), allocations kept for remote stores (R269). -/
inductive Move where
  | replayPlacement (team : Nat)
  | fenceActionComplete (w : WaveKey)
  | ttrigMark (w : WaveKey)
  | waitComplete (w : WaveKey) (pc : Word)
  | loadDataArrival (w : WaveKey) (op : Nat)
  | storeAcknowledge (w : WaveKey) (op : Nat)
  | stsrPerform (w : WaveKey) (op : Nat)
  | copyTransfer (w : WaveKey) (op : Nat)
  | tmcastMemberDelivery (w : WaveKey) (op member : Nat)
  | copyArrival (w : WaveKey) (op : Nat)
  | cloveMissRead (w : WaveKey) (op : Nat)
  | tileOpStart (w : WaveKey) (op : Nat)
  | tileOpComplete (w : WaveKey) (op : Nat)
  | accstComplete (w : WaveKey) (op : Nat)
  | nmvComplete (w : WaveKey) (op : Nat)
  | armedMapUpdate (w : WaveKey) (core : Nat)
  | barinitRepliesDone (w : WaveKey) (pc : Word)
  | ringRetry (w : WaveKey) (pc : Word)
  | ringTimeout (w : WaveKey) (pc : Word)
  | barTimeout (w : WaveKey) (pc : Word)
  | groupBarrierTimeout (w : WaveKey) (pc : Word)
  | rendezvousTimeout (w : WaveKey)
  | sectionAcquire (w : WaveKey) (pc : Word)
  | primAccept (w : WaveKey) (pc : Word)
  | migrationTimeout (w : WaveKey)
  | migrationRetry (w : WaveKey)
  | waveRetire (w : WaveKey)
  | yieldExpiry (w : WaveKey)
  | forcedStop (w : WaveKey)
  | swapCandidacyTimeout (w : WaveKey)
  | swapOut (w : WaveKey)
  | swapRestore (w : WaveKey)
  | swapGranuleDrain (w : WaveKey)
  | rowRelocation (w : WaveKey) (name : Nat)
  | sectionTimeout (w : WaveKey) (lane : Nat)
  | requestStep (req : Nat)
  | l2Request (req : Nat)
  | rdcFill (req : Nat)
  | requestTimeout (req : Nat)
  | staleReplyDrop (req die : Nat)
  | packetAgeDiscard (req die : Nat)
  | rowGrant (core : Nat)
  | splitChange (core : Nat)
  | laneRetirement (core quarter phys : Nat)
  | rendezvousComplete (team : Nat)
  | rgncCompletion (team : Nat)
  | teamSave (team : Nat)
  | teamRestore (crew cluster : Nat)
  | dependenceReevaluation
  | taskSelect
  | crewReservation (crew die : Nat)
  | priorityPreemption
  | priorityAging (ctx qid : Nat)
  | rangeSplit (cluster : Nat)
  | recordAccess (ctx qid : Nat)
  | exchangeForward (ctx qid : Nat)
  | recordBin (ctx qid die : Nat)
  | closeMarkerArrival (ctx qid die grain : Nat)
  | blendApply (ctx qid tx ty : Nat)
  | pixelWaveLaunch (ctx qid tx ty : Nat)
  | tileFlush (ctx qid die tx ty : Nat)
  | tileBufferGrant (ctx qid tx ty core : Nat)
  | passRender (ctx qid die : Nat)
  | passEnd (ctx qid : Nat)
  | rasterWatchdog (ctx qid die : Nat)
  | invalidationComplete (ctx : Nat)
  | pageMigration (ctx va : Nat)
  | quiescenceAdvance
  | bankRowRetirement (stack bank row : Nat)
  | probeSend (router port cls : Nat)
  | probeForward (die probe : Nat)
  | recoveryToken (die token : Nat)
  | recoveryShift (die token : Nat)
  | waitRecheck (w : WaveKey)
  | freeKept
  deriving DecidableEq, Repr

/-- The meaning of a move: that of its event. -/
def Move.run (s : State) : Move → Res
  | .replayPlacement t => execReplayPlacement t s
  | .fenceActionComplete w => execFenceActionComplete w s
  | .ttrigMark w => execTtrigMark w s
  | .waitComplete w pc => execWaitComplete w pc s
  | .loadDataArrival w op => execLoadDataArrival w op s
  | .storeAcknowledge w op => execStoreAcknowledge w op s
  | .stsrPerform w op => execStsrPerform w op s
  | .copyTransfer w op => execCopyTransfer w op s
  | .tmcastMemberDelivery w op m => execTmcastMemberDelivery w op m false s
  | .copyArrival w op => execCopyArrival w op s
  | .cloveMissRead w op => execCloveMissRead w op s
  | .tileOpStart w op => execTileOpStart w op s
  | .tileOpComplete w op => execTileOpComplete w op s
  | .accstComplete w op => execAccstComplete w op s
  | .nmvComplete w op => execNmvComplete w op s
  | .armedMapUpdate w c => execArmedMapUpdate w c s
  | .barinitRepliesDone w pc => execBarinitRepliesDone w pc s
  | .ringRetry w pc => execRingRetry w pc s
  | .ringTimeout w pc => execRingTimeout w pc s
  | .barTimeout w pc => execBarTimeout w pc s
  | .groupBarrierTimeout w pc => execGroupBarrierTimeout w pc s
  | .rendezvousTimeout w => execRendezvousTimeout w s
  | .sectionAcquire w pc => execSectionAcquire w pc s
  | .primAccept w pc => execPrimAccept w pc s
  | .migrationTimeout w => execMigrationTimeout w s
  | .migrationRetry w => execMigrationRetry w s
  | .waveRetire w => execWaveRetire w s
  | .yieldExpiry w => execYieldExpiry w (BitVec.allOnes 32) s
  | .forcedStop w => execForcedStop w s
  | .swapCandidacyTimeout w => execSwapCandidacyTimeout w s
  | .swapOut w => execSwapOut w s
  | .swapRestore w => execSwapRestore w s
  | .swapGranuleDrain w => execSwapGranuleDrain w s
  | .rowRelocation w n => execRowRelocation w n s
  | .sectionTimeout w l => execSectionTimeout w l s
  | .requestStep q => execRequestStep q s
  | .l2Request q => execL2Request q s
  | .rdcFill q => execRdcFill q s
  | .requestTimeout q => execRequestTimeout q s
  | .staleReplyDrop q d => execStaleReplyDrop q d s
  | .packetAgeDiscard q d => execPacketAgeDiscard q d s
  | .rowGrant c => execRowGrant c s
  | .splitChange c => execSplitChange c s
  | .laneRetirement c q p => execLaneRetirement c q p s
  | .rendezvousComplete t => execRendezvousComplete t s
  | .rgncCompletion t => execRgncCompletion t s
  | .teamSave t => execTeamSave t s
  | .teamRestore c k => execTeamRestore c k s
  | .dependenceReevaluation => execDependenceReevaluation s
  | .taskSelect => execTaskSelect s
  | .crewReservation c d => execCrewReservation c d s
  | .priorityPreemption => execPriorityPreemption s
  | .priorityAging c q => execPriorityAging c q s
  | .rangeSplit k => execRangeSplit k s
  | .recordAccess c q => execDispatcherAccessFault c q 3 s
  | .exchangeForward c q => execExchangeForward c q s
  | .recordBin c q d => execRecordBin c q d s
  | .closeMarkerArrival c q d g => execCloseMarkerArrival c q d g s
  | .blendApply c q x y => execBlendApply c q x y s
  | .pixelWaveLaunch c q x y => execPixelWaveLaunch c q x y s
  | .tileFlush c q d x y => execTileFlush c q d x y s
  | .tileBufferGrant c q x y k => execTileBufferGrant c q x y k s
  | .passRender c q d => execPassRender c q d s
  | .passEnd c q => execPassEnd c q s
  | .rasterWatchdog c q d => execRasterWatchdog c q d s
  | .invalidationComplete c => execInvalidationComplete c s
  | .pageMigration c va => execPageMigration c va 0 s
  | .quiescenceAdvance => execQuiescenceAdvance s
  | .bankRowRetirement k b r => execBankRowRetirement k b r s
  | .probeSend r p c => execDeadlockProbeSend (r / 16) r p c 0 0 s
  | .probeForward d p => execProbeForward d p none s
  | .recoveryToken d t => execRecoveryToken d t s
  | .recoveryShift d t => execRecoveryShift d t s
  | .waitRecheck k => .next (s.retest k)
  | .freeKept => .next s.freeKept

/-! ### What may move -/

/-- The moves that one outstanding operation may make. -/
def opMoves (k : WaveKey) (o : Op) : List Move :=
  if o.done then []
  else match o.kind with
    | .load .. => [.loadDataArrival k o.id]
    | .store _ _ => [.storeAcknowledge k o.id]
    | .release .. => [.storeAcknowledge k o.id]
    | .atom .. => [.loadDataArrival k o.id, .storeAcknowledge k o.id]
    | .copy .. => .copyTransfer k o.id :: (List.range 4).map (fun m => .tmcastMemberDelivery k o.id m) ++ [.copyArrival k o.id]
    | .tile .. => [.tileOpComplete k o.id, .tileOpStart k o.id, .cloveMissRead k o.id]
    | .accst _ => [.accstComplete k o.id]
    | .nmv .. => [.nmvComplete k o.id]
    | .stsr _ => [.stsrPerform k o.id]
    | .coll .. => []

/-- The moves that one wait in place may make. -/
def waitMoves (k : WaveKey) (wt : Wait) : List Move :=
  match wt.why with
  | .counters _ => [.waitComplete k wt.pc]
  | .barrier .. => [.barTimeout k wt.pc]
  | .arming _ _ cores => cores.map (fun c => .armedMapUpdate k c.1) ++ [.barinitRepliesDone k wt.pc]
  | .syncDue _ => []
  | .group .. => [.groupBarrierTimeout k wt.pc]
  | .groupLeft _ => []
  | .ring .. => [.ringRetry k wt.pc, .ringTimeout k wt.pc]
  | .rendezvous _ => [.rendezvousTimeout k]
  | .prim .. => [.primAccept k wt.pc]
  | .pixelSection _ => [.sectionAcquire k wt.pc]
  | .exit => [.waveRetire k]
  | .page _ => []
  | .migrating .. => [.migrationTimeout k, .migrationRetry k]

/-- The moves of one wave. -/
def State.waveMoves (s : State) (k : WaveKey) (w : Wave) : List Move :=
  (if w.fences.isEmpty then [] else [.fenceActionComplete k, .ttrigMark k])
    ++ w.waits.flatMap (waitMoves k) ++ w.ops.flatMap (opMoves k)
    ++ [.waitRecheck k, .yieldExpiry k, .forcedStop k, .swapRestore k, .swapCandidacyTimeout k, .swapOut k]
    ++ ((w.rows.filter (fun r => (s.core k.core).draining.contains (granOf r.2.place))).map (fun r => .rowRelocation k r.1))
    ++ (match w.pixel with
      | some p => p.frags.map (fun f => .sectionTimeout k f.lane)
      | none => [])

/-- The moves of one request. -/
def reqMoves (q : Request) : List Move :=
  [.requestStep q.id, .l2Request q.id, .rdcFill q.id, .staleReplyDrop q.id (dieOf q.core), .requestTimeout q.id]
    ++ (q.spot.place.map (fun x => .packetAgeDiscard q.id (x.1 / 16))).toList
    ++ (match q.spot with
      | .input r p => [.probeSend r p q.cls]
      | _ => [])

/-- A core has rows, a split change or a retirement to see to. -/
def CoreSt.hasWork (c : CoreSt) : Bool := !(c.rowQueue.isEmpty && c.swapRows.isEmpty && c.laneErrors.isEmpty) || c.split.isSome
/-- The cores that hold a wave or have something to see to. -/
def State.busyCores (s : State) : List Nat :=
  ((s.cores.filter (fun c => c.2.hasWork)).map Prod.fst ++ s.waves.map (fun p => p.1.core)).dedup

/-- The moves of one core. -/
def State.coreMoves (s : State) (c : Nat) : List Move :=
  let x := s.core c
  [.rowGrant c, .splitChange c] ++ ((x.swapRows.map Prod.fst).dedup.map (fun n => .swapGranuleDrain ⟨c, n⟩))
    ++ x.laneErrors.map (fun e => .laneRetirement c e.1 e.2.1)

/-- The next evaluation of the queue heads is due (R304): 10 µs after the last one, and at once after a completion, a commit or a head's start. -/
def State.evalDue (s : State) : Bool :=
  !s.allQueues.isEmpty && (match s.lastDepEval with
    | none => true
    | some t => t + 10 * Config.clocksPerUs ≤ s.clock)

/-- The moves of the package dispatcher. -/
def State.dispatchMoves (s : State) : List Move :=
  (if s.evalDue then [.dependenceReevaluation] else []) ++ [.taskSelect]
    ++ (s.allQueues.map (fun q => .priorityAging q.1 q.2))
    ++ ((s.tasks.filter (fun t => t.2.complete)).map (fun t => .recordAccess t.2.ctx t.2.queue))
    ++ ((s.restoreDue.map (fun c => Move.teamRestore c (match s.restorePlacing c with
        | .at k _ => k
        | _ => 0))).toList)
    ++ (match s.chosenCrew with
      | some c => .priorityPreemption :: (List.range Config.dies).map (fun d => .crewReservation c d)
      | none => [])
    ++ (if s.tasks.all (fun t => t.2.noSplit) then [] else (List.range 256).map (fun k => .rangeSplit k))

/-- The moves of one tile. -/
def State.tileMoves (s : State) (p : Pass) (t : TileSt) : List Move :=
  [.pixelWaveLaunch p.ctx p.qid t.tx t.ty,
   .tileFlush p.ctx p.qid (PassRec.owner p.rec_ t.tx t.ty) t.tx t.ty]
    ++ (if t.wantsBuffer then
      (match s.bufCore p t with
        | some c => [.tileBufferGrant p.ctx p.qid t.tx t.ty c]
        | none => ((s.bufSplitCore p t).map (fun c => Move.tileBufferGrant p.ctx p.qid t.tx t.ty c.1)).toList)
      else [])

/-- The moves of one open pass. -/
def State.passMoves (s : State) (p : Pass) : List Move :=
  .exchangeForward p.ctx p.qid :: (List.range Config.dies).map (fun d => .recordBin p.ctx p.qid d)
    ++ p.markers.map (fun m => .closeMarkerArrival p.ctx p.qid m.1 m.2.1)
    ++ p.tiles.flatMap (s.tileMoves p)
    ++ (List.range Config.dies).map (fun d => .passRender p.ctx p.qid d) ++ [.passEnd p.ctx p.qid]
    ++ (List.range Config.dies).map (fun d => .rasterWatchdog p.ctx p.qid d)

/-- The moves of memory, of the network and of the firmware's own services. The quiescence counter is advanced while freed frames wait
for it. -/
def State.memoryMoves (s : State) : List Move :=
  ((s.invalidations.map (fun i => i.ctx)).dedup.map .invalidationComplete)
    ++ s.migrations.map (fun m => .pageMigration m.ctx m.va)
    ++ (if s.spoil.isEmpty then [] else [.quiescenceAdvance])
    ++ (s.hbm.flatMap (fun h => h.2.errs.map (fun e => Move.bankRowRetirement h.1 e.1 e.2.1)))
    ++ (s.dies.flatMap (fun d => d.2.tokens.flatMap (fun t => [Move.recoveryShift d.1 t.id, Move.recoveryToken d.1 t.id])
      ++ (d.2.probes.filter (fun p => p.at_.2.2 ≠ 2)).map (fun p => Move.probeForward d.1 p.id)))

/-- Every move that may be enabled, in the order in which they are tried. (Log 1: DESIGN CHOICE.) -/
def State.moves (s : State) : List Move :=
  (s.replayDue.map Move.replayPlacement).toList
    ++ s.net.flatMap reqMoves
    ++ s.waves.flatMap (fun p => s.waveMoves p.1 p.2)
    ++ s.busyCores.flatMap s.coreMoves
    ++ s.teams.flatMap (fun t => [Move.rendezvousComplete t.1, .rgncCompletion t.1, .teamSave t.1])
    ++ (if s.cores.any (fun c => !c.2.kept.isEmpty) then [Move.freeKept] else []) ++ s.dispatchMoves ++ s.openPasses.flatMap s.passMoves ++ s.memoryMoves

/-- The first move of a list that changes the state. -/
def State.tryMoves (s : State) : List Move → Option Res
  | [] => none
  | m :: t =>
    match m.run s with
    | .next s' => if s' = s then s.tryMoves t else some (.next s')
    | r => some r

/-- The next internal move, if one changes the state. -/
def State.internal (s : State) : Option Res := s.tryMoves s.moves

/-- The blend unit applies a fragment's exports when the fragment ends (R393): before anything else moves, while some fragment that has
ended can be applied. -/
def State.blendNext (s : State) : Option Res :=
  s.tryMoves (s.openPasses.flatMap (fun p => p.tiles.map (fun t => Move.blendApply p.ctx p.qid t.tx t.ty)))

/-! ### Events of the agenda that wait -/

/-- The command header that an event carries. (Log 65: DESIGN CHOICE.) -/
def eventHdr : Instr → Option Hdr
  | .hostOpen h _ _ => some h
  | .hostClose h => some h
  | .createCtx h _ => some h
  | .destroyCtx h => some h
  | .hostMap h _ => some h
  | .createQueue h _ => some h
  | .loadCode h _ => some h
  | .codeSync h => some h
  | .submit h _ _ => some h
  | .readLog h _ => some h
  | .setPolicyBinpool h _ => some h
  | .setPolicyJournal h _ => some h
  | .setPolicyGroup h _ _ => some h
  | .setPolicyFabmap h _ => some h
  | .setPolicyCgroup h _ => some h
  | .setPolicyCtimeout h _ => some h
  | .debugAttach h => some h
  | .debugDetach h => some h
  | .debugStop h _ => some h
  | .debugTeamStop h _ _ => some h
  | .debugStep h _ => some h
  | .debugResume h _ => some h
  | .debugReadState h _ _ => some h
  | .debugWriteState h _ _ _ => some h
  | .debugAddressMatch h _ => some h
  | .getVersion h => some h
  | .getCapabilities h => some h
  | .negotiateAlgorithms h _ => some h
  | .getDigests h => some h
  | .getCertificate h _ _ => some h
  | .challenge h _ => some h
  | .getMeasurements h _ => some h
  | .keyExchange h _ => some h
  | .spdmFinish h _ => some h
  | .endSession h => some h
  | _ => none

/-- A command waits at the module while an earlier one of its session is still being performed, and a SUBMIT while another agent's
reservation in its ring is not yet committed (R422, R425). (Log 65: DESIGN CHOICE.) -/
def State.mustWait (s : State) (ev : Instr) : Bool :=
  match eventHdr ev with
  | none => false
  | some h => s.sessionBusy h.session || (match ev with
    | .submit h qid _ => s.submitWaits h.ctx.toNat (s.queue h.ctx.toNat qid) && (s.ownCtx h).isSome
    | _ => false)

/-! ### A step, given the meaning of an instruction -/

/-- What a fetched word does: its instruction's meaning, the trap of a word that no entry accepts (R80), the end of a fetch that did not get
through (R119, R370). -/
def Fetched.act (run : Instr → State → Res) (g : Fetched) (s : State) : Res := match g with
  | .instr i _ _ => run i s
  | .reject op word => execIllegalEncoding op word s
  | .fail _ => execFetchFault s.sel.key s.sel.pc s

/-- What threads meet on reaching their PC takes effect before anything issues: an address match stops their wave (R30), a wave-wide
instruction holds them (R20), an illegal wave-wide word traps (R80). -/
def State.settle (s : State) : Option Res := s.nextMeet.map (fun p => match p.2 with
  | .matched pc => execAddressMatchStop p.1 pc s
  | .hold pc m => .next (s.arrive p.1 pc m)
  | .illegal op sel => execIllegalEncoding op sel.word
      (({ s with sel := sel } : State).fetchMark (s.wave p.1).ctx sel.pc |>.modWave p.1 (fun w => { w with dbgStep := false })))

/-- A clock begins, and the first of its issues runs; with none the clock passes. -/
def State.issueStep (s : State) (run : Instr → State → Res) : Res :=
  let t := s.startClock
  if t.pending.isEmpty then .next t else t.runPending (Fetched.act run)

/-- A turn of the arithmetic clock: an internal move, when it is their turn and one is enabled, or a clock (log 1: DESIGN CHOICE). -/
def State.turn (s : State) (run : Instr → State → Res) : Res :=
  if s.phase then State.issueStep { s with phase := false } run
  else
    match State.internal { s with phase := true } with
    | some r => r
    | none => State.issueStep { s with phase := true } run

/-- One step of the module: a move of a scouting wave, the blend unit where it has work, an issue of the clock that is still to run, what
threads meet where they stand, an event of the agenda that is due, then a turn of the clock (log 1, 2: DESIGN CHOICE). -/
def State.stepWith (s : State) (run : Instr → State → Res) : Res :=
  match s.scouts with
  | (k, sc) :: _ => .next (s.scoutMove k sc run)
  | [] =>
    match s.blendNext with
    | some r => r
    | none =>
      if !s.pending.isEmpty then s.runPending (Fetched.act run)
      else match s.settle with
        | some r => r
        | none =>
          match s.agenda with
          | ⟨0, ev⟩ :: rest => if s.mustWait ev then s.turn run else run ev { s with agenda := rest }
          | _ => s.turn run

end Sys2Proof.Machine
end

