-- ==== Sys2Proof/Machine/Step.lean ====
section
/-! DEFINITION. One step of the module, and an instruction placed where the next step fetches. -/

namespace Sys2Proof.Machine

/-- One step. -/
def step (s : State) : Host.Outcome State Fault Refusal := s.stepWith exec

/-! ### An instruction placed where the next step fetches -/

/-- The tables and the page of a code window of 64 KiB at virtual address 0: tables at 10000H to 40000H, the page at 50000H (R351 to R353). (Log 9: DESIGN CHOICE.) -/
def codeTables (m : List Host.Cell) : List Host.Cell :=
  let put := fun (m : List Host.Cell) (a : Nat) (e : BitVec 64) => cellPut m a (leBytes 8 e.toNat)
  put (put (put (put m 0x10000 (Pte.table 0x20000)) 0x20000 (Pte.table 0x30000)) 0x30000 (Pte.table 0x40000)) 0x40000
    (Pte.mk 0x50000 true true true 0 0 0 false)

/-- The bytes of an instruction in the code window, from virtual address 0. -/
def codeBytes (w : Nat) : List Byte := wordBytes (BitVec.ofNat 32 w) ++ wordBytes (BitVec.ofNat 32 (w / 2 ^ 32))

/-- The state with an instruction where the next step fetches: context 0 with a code window of one page holds it, and one wave of one
team of it stands at its first word, alone and with nothing due before it; at a wave-wide instruction all its threads are held (R20; log 9: DESIGN CHOICE). -/
def State.withFetchWord (s : State) (_nbits w : Nat) : State :=
  { s with
    agenda := []
    accidents := []
    pending := []
    prior := none
    phase := true
    scouts := []
    mem := cellPut (codeTables s.mem) 0x50000 (codeBytes w)
    contexts := [(0, { Context.absent with num := 0, ptbase := 0x10000, window := 0x10000, tables := [0x10000, 0x20000, 0x30000, 0x40000],
                                           code := cellPut [] 0 (codeBytes w) })]
    crews := [(0, { Crew.absent with place := some 0, retired := false })]
    teams := [(0, { Team.absent with declared := 1, liveWaves := 1, resident := true })]
    waves := [(⟨0, 0⟩, (Wave.launch 0 0 0 0 0 0 0 0 [] 0).blockAs (BitVec.allOnes 32) (if isWaveWide (w / 2 ^ 24 % 256) then .held else .none))]
    nextId := s.nextId + 1 }

end Sys2Proof.Machine
end

