-- ==== Sys2Proof/Safety.lean ====
section
/-! DEFINITION. The terms in which the statements are made: what it is to complete, the conditions on a state under which an instruction
of a kind has its own effect, and the tables that say of each instruction word which registers it reads and what it computes. -/

namespace Sys2Proof

namespace Machine

/-- The instruction completes at the state with a next state that has a property. -/
def Completes (i : Instr) (s : State) (post : State → Prop) : Prop := ∃ t, exec i s = .next t ∧ post t

/-! ### Lane instructions that write vector registers -/

/-- The register pool of the issuing core gives n rows at once (R167). -/
def State.room (s : State) (n : Nat) : Prop :=
  (s.core s.sel.key.core).rowQueue = [] ∧ n ≤ s.rowsFree s.sel.key.core

/-- The issuing wave and its team meet no parity error: no injection is armed in the wave (R147), and no parity bit that is kept with a word of its
registers or of the scratchpad disagrees (R165, R174). -/
def State.unarmed (s : State) : Prop :=
  s.cur.errinj.getLsbD 31 = false ∧ (∀ n r, s.cur.row n = some r → r.par = 0) ∧ s.curTeam.spPar = []

/-- The names that an instruction reads are mapped, or FPC.UNINIT lets it read the others as zero (R35, R88). -/
def State.canRead (s : State) (reads : List Nat) : Prop :=
  s.cur.fpc.getLsbD 4 = false ∨ ∀ n ∈ reads, (assocGet s.readRows n).isSome

/-- What a lane instruction reads and writes: the names it reads, the names its last-read marks clear (R71), its guard (R70), its D field,
whether D is a pair (R66); the result of a lane with its flags, the low word alone where D is one register; the lanes poisoned (R176). -/
structure LaneForm where
  reads : List Nat
  marks : List Nat
  g : BitVec 3
  gn : Bool
  d : BitVec 6
  wide : Bool
  res : State → Fin 32 → DWord × Flags
  pois : State → LaneMask

/-- The lanes that execute: those of the path whose guard is 1 (R70). -/
def LaneForm.lanes (fm : LaneForm) (s : State) : LaneMask := s.cur.guardLanes s.sel.mask fm.g fm.gn

/-- The destination names; D = 63 names none (R65, R66). -/
def LaneForm.dests (fm : LaneForm) : List Nat := if fm.wide then vnames fm.d 2 else vname fm.d

/-- The word of the result that belongs to a destination name. -/
def LaneForm.word (fm : LaneForm) (s : State) (n : Nat) (i : Fin 32) : Word :=
  if n = fm.d.toNat then loWord (fm.res s i).1 else hiWord (fm.res s i).1

/-- The lane instruction has its own effect: no lane's guard is poisoned (R176), no unmapped name is read under FPC.UNINIT (R35), the pool
has room (R167), no injection is armed (R147). -/
def LaneForm.ready (fm : LaneForm) (s : State) : Prop :=
  s.cur.guardPois s.sel.mask fm.g = 0 ∧ s.canRead fm.reads ∧ s.room 2 ∧ s.unarmed

/-- The wave after the instruction: w with other rows, its path at the next word, and the flags of the executing lanes ORed into FPC (R42). -/
def LaneForm.after (fm : LaneForm) (s : State) (rows : List (Nat × Row)) (granted : Nat) : Wave :=
  { s.cur with
    rows := rows
    granted := granted
    lanes := (s.cur.moveTo s.sel.mask s.sel.next).lanes
    fpc := s.cur.fpc ||| ((laneFlags (fm.lanes s) (fun i => (fm.res s i).2)).setWidth 32 <<< 8) }

/-- A marked name loses the path's claims, and its row with the last of them (R71, R166). -/
def unclaimed (m : LaneMask) : Option Row → Option Row
  | none => none
  | some r => if r.readers &&& ~~~m = 0 then none else some { r with readers := r.readers &&& ~~~m }

/-- The effect of a lane instruction of a form: in the executing lanes the destinations take the result and its poison; a destination that
is not marked keeps its other lanes; a marked name loses the path's claims; every other row of the wave, everything else of the wave but
the PC of the path and the flags, and everything outside the wave, memory included, is as it was. -/
def LaneForm.does (fm : LaneForm) (i : Instr) (s : State) : Prop :=
  ∃ rows granted,
    exec i s = .next (s.setWave s.sel.key (fm.after s rows granted)) ∧
    (∀ n ∈ fm.dests, ∀ j : Fin 32, (fm.lanes s).getLsbD j.val →
      (fm.after s rows granted).vword n j = fm.word s n j ∧
      ((fm.after s rows granted).vpois n).getLsbD j.val = (fm.pois s).getLsbD j.val) ∧
    (∀ n ∈ fm.dests, n ∉ fm.marks → ∀ j : Fin 32, (fm.lanes s).getLsbD j.val = false →
      (fm.after s rows granted).vword n j = s.cur.vword n j ∧
      ((fm.after s rows granted).vpois n).getLsbD j.val = (s.cur.vpois n).getLsbD j.val) ∧
    (∀ n, (n ∉ fm.dests ∨ fm.lanes s = 0) →
      assocGet rows n = if n ∈ fm.marks then unclaimed s.sel.mask (s.cur.row n) else s.cur.row n)

/-- A lane form of two single sources (R64, R69, R71). -/
def formV3 (f : V3) (op : Word → Word → Word) : LaneForm where
  reads := vname f.a ++ vname f.b
  marks := markNames f.ka f.kb (vname f.a) (vname f.b)
  g := f.g
  gn := f.gn
  d := f.d
  wide := false
  res := fun s i => ((op (s.cur.vsrc f.a f.lit i) (s.cur.vsrc f.b f.lit i)).setWidth 64, 0)
  pois := fun s => s.cur.vsrcPois f.a ||| s.cur.vsrcPois f.b

/-- A lane form of one single source A. -/
def formOne (f : V3) (op : Word → Word) : LaneForm where
  reads := vname f.a
  marks := markNames f.ka false (vname f.a) []
  g := f.g
  gn := f.gn
  d := f.d
  wide := false
  res := fun s i => ((op (s.cur.vsrc f.a f.lit i)).setWidth 64, 0)
  pois := fun s => s.cur.vsrcPois f.a

/-- A lane form without guard and marks. -/
def formPlain (d : BitVec 6) (wide : Bool) (reads : List Nat) (res : State → Fin 32 → DWord × Flags) (pois : State → LaneMask) : LaneForm where
  reads := reads
  marks := []
  g := 7
  gn := false
  d := d
  wide := wide
  res := res
  pois := pois

/-- A register or LANE and an immediate (R96). -/
def formVI (f : VI) (op : Word → Word) : LaneForm :=
  formPlain f.d false (vname f.a) (fun s i => ((op (s.cur.vsrc f.a 0 i)).setWidth 64, 0)) (fun s => s.cur.vsrcPois f.a)

/-- Three single sources (R97). -/
def formV4 (f : V4) (op : Word → Word → Word → Word) : LaneForm :=
  formPlain f.d false (vname f.a ++ vname f.b ++ vname f.c)
    (fun s i => ((op (s.cur.vsrc f.a f.lit i) (s.cur.vsrc f.b f.lit i) (s.cur.vsrc f.c f.lit i)).setWidth 64, 0))
    (fun s => s.cur.vsrcPois f.a ||| s.cur.vsrcPois f.b ||| s.cur.vsrcPois f.c)

/-- The shift amounts of R94 as shifts of 32-bit words: 32 to 63 shift every bit out. -/
def shiftAmount (b : Word) : Nat := (b &&& 63#32).toNat

/-- The field of BFEU, BFES and BFI (R100): pos is bits [4:0] of C and len bits [13:8], at most 32. -/
def bfPos (c : Word) : Nat := (c.extractLsb' 0 5).toNat
def bfLen (c : Word) : Nat := min (c.extractLsb' 8 6).toNat 32
/-- The bits of a from pos, len of them and none past bit 31, at the foot of a word; above them zeros, or copies of the field's top bit. -/
def bitsFrom (a : Word) (pos len : Nat) (sign : Bool) : Word :=
  BitVec.ofFnLE (fun j : Fin 32 =>
    if j.val < len ∧ pos + j.val < 32 then a.getLsbD (pos + j.val) else sign && len ≠ 0 && a.getLsbD (min (pos + len) 32 - 1))
def bfTake (a c : Word) (sign : Bool) : Word := bitsFrom a (bfPos c) (bfLen c) sign
/-- a with its field replaced by the low bits of b. -/
def bfPut (a b c : Word) : Word :=
  BitVec.ofFnLE (fun j : Fin 32 => if bfPos c ≤ j.val ∧ j.val < bfPos c + bfLen c then b.getLsbD (j.val - bfPos c) else a.getLsbD j.val)

/-- The instruction has the effect of the form wherever the form is ready. -/
def LaneForm.of (i : Instr) (fm : LaneForm) (s : State) : Prop := fm.ready s → fm.does i s

/-- Two single sources and a pair destination (R98). -/
def formWide (f : V3) (op : Word → Word → DWord) : LaneForm :=
  { formV3 f (fun a _ => a) with wide := true, res := fun s i => (op (s.cur.vsrc f.a f.lit i) (s.cur.vsrc f.b f.lit i), 0) }

/-- Two pairs and a pair destination (R66, R98); a mark on a pair covers both registers (R71). -/
def formPairs (f : V3) (op : DWord → DWord → DWord × Flags) : LaneForm where
  reads := vnames f.a 2 ++ vnames f.b 2
  marks := markNames f.ka f.kb (vnames f.a 2) (vnames f.b 2)
  g := f.g
  gn := f.gn
  d := f.d
  wide := true
  res := fun s i => op (s.cur.vpair f.a i) (s.cur.vpair f.b i)
  pois := fun s => s.cur.vpairPois f.a ||| s.cur.vpairPois f.b

/-- A result code as a register value with its flags. -/
def asResult (r : Nat × Flags) : DWord × Flags := (BitVec.ofNat 64 r.1, r.2)

/-- A floating operation on two single sources under FPC.FTZ (R107, R110). -/
def formF32 (f : V3) (op : Bool → Nat → Nat → Nat × Flags) : LaneForm :=
  { formV3 f (fun a _ => a) with
    res := fun s i => asResult (op s.cur.ftz (s.cur.vsrc f.a f.lit i).toNat (s.cur.vsrc f.b f.lit i).toNat) }

/-- A fused operation on three single sources (R109, R110). -/
def formFma (f : V4) (op : Bool → Nat → Nat → Nat → Nat × Flags) : LaneForm :=
  { formV4 f (fun a _ _ => a) with
    res := fun s i => asResult (op s.cur.ftz (s.cur.vsrc f.a f.lit i).toNat (s.cur.vsrc f.b f.lit i).toNat (s.cur.vsrc f.c f.lit i).toNat) }

/-- A floating operation on two pairs (R107). -/
def formF64 (f : V3) (op : Nat → Nat → Nat × Flags) : LaneForm := formPairs f (fun a b => asResult (op a.toNat b.toNat))

/-- A floating operation of VX on one single source, or on two. -/
def formVX (f : VX) (op : State → Word → DWord × Flags) : LaneForm :=
  formPlain f.d false (vname f.a) (fun s i => op s (s.cur.vsrc f.a f.lit i)) (fun s => s.cur.vsrcPois f.a)
def formVX2 (f : VX) (op : State → Word → Word → DWord × Flags) : LaneForm :=
  formPlain f.d false (vname f.a ++ vname f.b) (fun s i => op s (s.cur.vsrc f.a f.lit i) (s.cur.vsrc f.b f.lit i))
    (fun s => s.cur.vsrcPois f.a ||| s.cur.vsrcPois f.b)

/-- The rounding code of FRND, DSFU, CVT and NCVT: code 5 takes FPC.RM (R36, R105). -/
def State.roundingOf (s : State) (f : VX) : Nat := if f.fn.extractLsb' 0 3 = 5#3 then (s.cur.fpc.extractLsb' 0 3).toNat else (f.fn.extractLsb' 0 3).toNat

/-- The source of a conversion: a pair for the 64-bit types, the low half of the word for the 16-bit ones (R117). -/
def State.cvtSource (s : State) (f : VX) (i : Fin 32) : DWord :=
  match f.b.toNat % 8 with
  | 0 | 6 | 7 => s.cur.vpair f.a i
  | 2 | 3 => (s.cur.vsrc f.a f.lit i).setWidth 64 &&& 0xFFFF
  | _ => (s.cur.vsrc f.a f.lit i).setWidth 64

/-- A 64-bit type of CVT (R117). -/
def cvtWide (t : Nat) : Bool := t == 0 || t == 6 || t == 7

/-- The lanes of the path in which a predicate is 1 (R128). -/
def State.voters (s : State) (p : BitVec 3) : LaneMask := s.sel.mask &&& s.cur.laneMask (fun l => l.p p)
def State.poisonedVoters (s : State) (p : BitVec 3) : LaneMask := s.sel.mask &&& s.cur.laneMask (fun l => l.pp p)
def lanesBelow (i : Fin 32) : LaneMask := (1#32 <<< i.val) - 1

/-- The lane from which SHFL takes a lane's value (R129): its source within its group, or itself where no thread of the path stands. -/
def State.shflLane (s : State) (f : VX) (i : Fin 32) : Fin 32 :=
  let width := 32 / 2 ^ (f.fn.extractLsb' 2 3).toNat
  let b := (s.cur.vsrc f.b f.lit i).toNat % width
  let o := i.val % width
  let inGroup := match (f.fn.extractLsb' 0 2).toNat with
    | 0 => b
    | 1 => (o + width - b) % width
    | 2 => (o + b) % width
    | _ => o ^^^ b
  let src : Fin 32 := Fin.ofNat 32 (i.val / width * width + inGroup)
  if s.sel.mask.getLsbD src.val then src else i

/-- The lanes that a prefix of lane i combines (R130): those of the path below it, and itself unless .EXCL. -/
def State.scanned (s : State) (f : VX) (i : Fin 32) : LaneMask :=
  s.sel.mask &&& (if f.fn.getLsbD 0 then lanesBelow i else lanesBelow i ||| (1#32 <<< i.val))

/-- The value and the index of the winner of WARGX, a canonical NaN for a NaN (R131). -/
def State.argResult (s : State) (f : VX) : DWord :=
  let ty := (f.fn.extractLsb' 1 2).toNat
  let val := fun (i : Fin 32) => if ty = 0 then s.cur.vsrc f.a f.lit i &&& 0xFFFF else s.cur.vsrc f.a f.lit i
  match argWinner ty (f.fn.getLsbD 0) ((maskLanes s.sel.mask).map (fun i => ⟨i.val, val i, s.cur.vsrc f.b f.lit i⟩)) with
  | none => 0
  | some a => pairOf (if argNan ty a.val then (if ty = 0 then 0x00007E00 else 0x7FC00000) else a.val) a.idx

/-- A predicate result (R102, R103, R111, R133): names read and marked, guard, the predicate, its value and its poison, flags. -/
structure PredForm where
  reads : List Nat
  marks : List Nat
  g : BitVec 3
  gn : Bool
  pd : BitVec 3
  res : State → Fin 32 → Bool × Flags
  pois : State → LaneMask

def PredForm.lanes (fm : PredForm) (s : State) : LaneMask := s.cur.guardLanes s.sel.mask fm.g fm.gn

def PredForm.ready (fm : PredForm) (s : State) : Prop :=
  s.cur.guardPois s.sel.mask fm.g = 0 ∧ s.canRead fm.reads ∧ s.unarmed

/-- The effect of an instruction with a predicate result: in the executing lanes p[PD] takes the value and its poison (p7 discards, R68);
the path moves on; marked names lose the path's claims; every other lane field, row and part of the state is as it was. -/
def PredForm.does (fm : PredForm) (i : Instr) (s : State) : Prop :=
  ∃ rows, exec i s = .next (s.setWave s.sel.key { s.cur with
      rows := rows
      lanes := ((s.cur.mapLanes (fm.lanes s) (fun j l => l.setP fm.pd (fm.res s j).1 ((fm.pois s).getLsbD j.val))).moveTo s.sel.mask s.sel.next).lanes
      fpc := s.cur.fpc ||| ((laneFlags (fm.lanes s) (fun j => (fm.res s j).2)).setWidth 32 <<< 8) }) ∧
    ∀ n, assocGet rows n = if n ∈ fm.marks then unclaimed s.sel.mask (s.cur.row n) else s.cur.row n

def PredForm.of (i : Instr) (fm : PredForm) (s : State) : Prop := fm.ready s → fm.does i s

/-- The compares of two single sources, and of two pairs (R102, R111). -/
def cmpForm (f : VC) (op : State → Word → Word → Bool × Flags) : PredForm where
  reads := vname f.a ++ vname f.b
  marks := markNames f.ka f.kb (vname f.a) (vname f.b)
  g := f.g
  gn := f.gn
  pd := f.pd
  res := fun s i => op s (s.cur.vsrc f.a f.lit i) (s.cur.vsrc f.b f.lit i)
  pois := fun s => s.cur.vsrcPois f.a ||| s.cur.vsrcPois f.b
def cmpPairForm (f : VC) (op : DWord → DWord → Bool × Flags) : PredForm where
  reads := vnames f.a 2 ++ vnames f.b 2
  marks := markNames f.ka f.kb (vnames f.a 2) (vnames f.b 2)
  g := f.g
  gn := f.gn
  pd := f.pd
  res := fun s i => op (s.cur.vpair f.a i) (s.cur.vpair f.b i)
  pois := fun s => s.cur.vpairPois f.a ||| s.cur.vpairPois f.b

/-- The integer comparison codes .EQ .NE .LT .LE .GT .GE .LTU .GEU (R75, R102). -/
def intCompare {n : Nat} (cc : BitVec 3) (a b : BitVec n) : Bool :=
  match cc.toNat with
  | 0 => decide (a = b)
  | 1 => decide (a ≠ b)
  | 2 => a.slt b
  | 3 => a.sle b
  | 4 => b.slt a
  | 5 => b.sle a
  | 6 => a.ult b
  | _ => b.ule a

/-! ### Uniform instructions -/

/-- The lanes of the wave with its path at a PC and no other change. -/
def State.pathAt (s : State) (pc : Word) : Lanes Lane :=
  Vector.ofFn (fun i => if s.sel.mask.getLsbD i.val then { s.cur.lanes[i] with pc := pc } else s.cur.lanes[i])

/-- What a uniform instruction writes: its guard (7, false for none; R70), the value and poison that a uniform register takes, if any, the
value and poison that a uniform predicate takes, if any, flags, and where the path goes. -/
structure UniForm where
  qg : BitVec 3
  qn : Bool
  regs : State → BitVec 6 → Option (Word × Bool)
  qs : State → BitVec 3 → Option (Bool × Bool)
  flags : State → Flags
  pc : State → Word

/-- The guard is clean and true (R70, R176). -/
def UniForm.ready (fm : UniForm) (s : State) : Prop := s.cur.qp fm.qg = false ∧ s.cur.q fm.qg ≠ fm.qn

/-- The effect of a uniform instruction: the registers s0 to s61 and q0 to q6 that it writes take their values and poison, the others keep
theirs; the flags are ORed into FPC; every thread of the path goes to the PC; nothing else changes. -/
def UniForm.does (fm : UniForm) (i : Instr) (s : State) : Prop :=
  ∃ (sregs : Vector Word 62) (sPois : BitVec 62) (qregs qPois : BitVec 7),
    exec i s = .next (s.setWave s.sel.key { s.cur with
      sregs := sregs
      sPois := sPois
      qregs := qregs
      qPois := qPois
      fpc := s.cur.fpc ||| ((fm.flags s).setWidth 32 <<< 8)
      lanes := s.pathAt (fm.pc s) }) ∧
    (∀ n : Fin 62, sregs[n] = ((fm.regs s (BitVec.ofNat 6 n.val)).map Prod.fst).getD s.cur.sregs[n] ∧
      sPois.getLsbD n.val = ((fm.regs s (BitVec.ofNat 6 n.val)).map Prod.snd).getD (s.cur.sPois.getLsbD n.val)) ∧
    (∀ n : Fin 7, qregs.getLsbD n.val = ((fm.qs s (BitVec.ofNat 3 n.val)).map Prod.fst).getD (s.cur.qregs.getLsbD n.val) ∧
      qPois.getLsbD n.val = ((fm.qs s (BitVec.ofNat 3 n.val)).map Prod.snd).getD (s.cur.qPois.getLsbD n.val))

def UniForm.of (i : Instr) (fm : UniForm) (s : State) : Prop := fm.ready s → fm.does i s

/-- A guarded uniform instruction that writes one register; the path moves to the next word. -/
def uniOne (qg : BitVec 3) (qn : Bool) (d : BitVec 6) (val : State → Word × Bool) : UniForm where
  qg := qg
  qn := qn
  regs := fun s n => if n = d then some (val s) else none
  qs := fun _ _ => none
  flags := fun _ => 0
  pc := fun s => s.sel.next

/-- U3 of two sources (R137). -/
def uni3 (f : U3) (op : Word → Word → Word) : UniForm :=
  uniOne f.qg f.qn f.d (fun s => (op (s.cur.sreg f.a f.lit) (s.cur.sreg f.b f.lit), s.cur.sregPois f.a || s.cur.sregPois f.b))

/-- U3 on pairs (R66, R137). -/
def uniPair (f : U3) (op : DWord → DWord → DWord) : UniForm :=
  { uniOne f.qg f.qn f.d (fun _ => (0, false)) with
    regs := fun s n =>
      let x := op (s.cur.spair f.a) (s.cur.spair f.b)
      let p := s.cur.spairPois f.a || s.cur.spairPois f.b
      if n = f.d + 1 then some (hiWord x, p) else if n = f.d then some (loWord x, p) else none }

/-- UI of a register and an immediate (R137). -/
def uniImm (f : UI) (op : Word → Word) : UniForm := uniOne 7 false f.d (fun s => (op (s.cur.sreg f.a 0), s.cur.sregPois f.a))

/-- A uniform predicate result (R139). -/
def uniQ (qg : BitVec 3) (qn : Bool) (qd : BitVec 3) (val : State → Bool × Bool) : UniForm :=
  { uniOne qg qn 63 (fun _ => (0, false)) with
    regs := fun _ _ => none
    qs := fun s n => if n = qd then some (val s) else none }

/-- A uniform floating result (R140): a code and its flags. -/
def uniFloat (qg : BitVec 3) (qn : Bool) (d : BitVec 6) (val : State → Nat × Flags) (pois : State → Bool) : UniForm :=
  { uniOne qg qn d (fun s => (BitVec.ofNat 32 (val s).1, pois s)) with flags := fun s => (val s).2 }

/-- A uniform transfer that writes nothing. -/
def uniJump (qg : BitVec 3) (qn : Bool) (pc : State → Word) : UniForm :=
  { uniOne qg qn 63 (fun _ => (0, false)) with regs := fun _ _ => none, pc := pc }

/-! ### Lane transfers -/

/-- Each thread of the wave after a lane transfer: an executing one at its target, the rest of the path at the next word. -/
def State.jumped (s : State) (e : LaneMask) (target : Fin 32 → Word) : Lanes Lane :=
  Vector.ofFn (fun i =>
    if e.getLsbD i.val then { s.cur.lanes[i] with pc := target i }
    else if s.sel.mask.getLsbD i.val then { s.cur.lanes[i] with pc := s.sel.next }
    else s.cur.lanes[i])

/-- A lane transfer (R120, R121): the executing lanes go to their targets, linking v61 to the next word for a call; marked names lose the
path's claims; nothing else changes. -/
def State.jumps (s : State) (i : Instr) (e : LaneMask) (target : Fin 32 → Word) (link : Bool) (marks : List Nat) : Prop :=
  ∃ rows granted,
    exec i s = .next (s.setWave s.sel.key { s.cur with rows := rows, granted := granted, lanes := s.jumped e target }) ∧
    (∀ n, (n ≠ 61 ∨ link = false ∨ e = 0) → assocGet rows n = if n ∈ marks then unclaimed s.sel.mask (s.cur.row n) else s.cur.row n) ∧
    (link = true → ∀ j : Fin 32, e.getLsbD j.val →
      (match assocGet rows 61 with
        | some r => r.words[j] = s.sel.next ∧ r.pois.getLsbD j.val = false
        | none => False))

/-! ### Traps -/

/-- A wave that has taken a trap as R151 says: the trap registers written, the live threads of the mask at TVEC, unblocked, as the handler
path, every other live thread stopped where it stands, the threads of the handler path out of their waits and of suppressed matches; nothing
else of the wave differs. -/
def Wave.entered (w : Wave) (tcause tpc : Word) (mask : LaneMask) (addr : DWord) (info : Word) : Wave :=
  { w with
    lanes := Vector.ofFn (fun i =>
      if w.lanes[i].status = .live then
        if mask.getLsbD i.val then { w.lanes[i] with pc := alignPc w.tvec, block := .none, stopped := false, yieldSpan := .none }
        else { w.lanes[i] with stopped := true }
      else w.lanes[i])
    tcause := tcause
    tpc := tpc
    taddrLo := addr.setWidth 32
    taddrHi := (addr >>> 32).setWidth 32
    tmask := mask
    tinfo := info
    tpaths := maskOf (fun i => decide (w.lanes[i].status = .live) && !mask.getLsbD i.val)
    handler := true
    matchSkip := w.matchSkip &&& ~~~(maskOf (fun i => decide (w.lanes[i].status = .live)) &&& mask)
    waits := w.waits.filterMap (fun x =>
      let left := x.lanes &&& ~~~(maskOf (fun i => decide (w.lanes[i].status = .live)) &&& mask)
      if left = 0 then none else some { x with lanes := left }) }

/-- The wave is not at handler level and has a handler (R151, R152). -/
def Wave.canTrap (w : Wave) : Prop := w.handler = false ∧ w.tvec ≠ 0

/-- The instruction traps: the issuing wave, and nothing else, enters its handler, from a wave w. -/
def State.traps (s : State) (i : Instr) (w : Wave) (tcause tpc : Word) (mask : LaneMask) (addr : DWord) (info : Word) : Prop :=
  s.cur.canTrap → exec i s = .next (s.setWave s.sel.key (w.entered tcause tpc mask addr info))

/-- The issuing wave with its path at the next word. -/
def State.moved (s : State) : Wave := { s.cur with lanes := s.pathAt s.sel.next }

/-! ### Global memory accesses -/

/-- The operands can be read, the pool has room for the n rows that may be needed, and no injection is armed (R35, R147, R167). -/
def State.begins (s : State) (reads : List Nat) (n : Nat) : Prop :=
  s.canRead reads ∧ (n = 0 ∨ s.room n) ∧ s.unarmed

/-- Every line of an access translates, in the fabric window only where the record allows it (R181, R360). -/
def State.reaches (s : State) (lanes : List (Fin 32 × List Nat)) (acc : Access) (fab : Bool) : Prop :=
  ∀ l ∈ lanes, ∀ va ∈ l.2, ∃ pa e ea, s.translate s.cur.ctx (lineAddr va) acc = .ok pa e ea ∧ (fab = true ∨ s.isFabric pa = false)

/-- An access through a record meets none of the traps of R179, R183, R189 and R360. -/
structure State.Accessible (s : State) (a : BitVec 6) (br : BitVec 4) (imm width : Nat) (acc : Access) : Prop where
  valid : Rec.invalid (s.cur.brec br) = false
  clean : s.cur.bPois.getLsbD br.toNat = false ∧ s.sel.mask &&& s.cur.vsrcPois a = 0
  permitted : (acc = .write ∨ Rec.readable (s.cur.brec br) = true) ∧ (acc.writes = false ∨ Rec.writable (s.cur.brec br) = true)
  inside : Rec.foob (s.cur.brec br) = false ∨
    ∀ i : Fin 32, s.sel.mask.getLsbD i.val = true → Rec.outOfBounds (s.cur.brec br) (s.cur.elem a imm i) = false
  aligned : ∀ i : Fin 32, s.sel.mask.getLsbD i.val = true → Rec.outOfBounds (s.cur.brec br) (s.cur.elem a imm i) = false →
    Rec.addr (s.cur.brec br) i.val (s.cur.elem a imm i) % Rec.align (s.cur.brec br) width = 0
  mapped : s.reaches (s.accessLanes a br imm width) acc (Rec.fab (s.cur.brec br))

/-- A page that serves an access as plain data: neither discarded, migrating nor poisoned, and not uncached (R353, R360, R364, R366). -/
def plainEntry (e : BitVec 64) : Prop := Pte.state e = 0 ∧ Pte.psn e = false ∧ Pte.mtype e ≠ 1
def State.plainPage (s : State) (va : Nat) (acc : Access) : Prop :=
  ∀ pa e ea, s.translate s.cur.ctx (lineAddr va) acc = .ok pa e ea → plainEntry e

/-- Home memory after an access: as before, but for the accessed and, after a write, the dirty bit that the walker sets in the page entries
of its lines (R358). -/
def State.walked (s t : State) (lanes : List (Fin 32 × List Nat)) (acc : Access) : Prop :=
  t.poisoned = s.poisoned ∧ ∀ a, cellGet t.mem a = cellGet s.mem a ∨
    (cellGet t.mem a = cellGet s.mem a ||| (if acc.writes then 0x60#8 else 0x20#8)) ∧
      ∃ l ∈ lanes, ∃ va ∈ l.2, ∃ pa e, s.translate s.cur.ctx (lineAddr va) acc = .ok pa e a

/-- The other waves of the module are as they were. -/
def State.othersKept (s t : State) : Prop := ∀ k, k ≠ s.sel.key → assocGet t.waves k = assocGet s.waves k

/-- Each lane access of an operation names the bytes of the access, in order. -/
def accsOf (accs : List LaneAcc) (lanes : List (Fin 32 × List Nat)) : Prop :=
  accs.map (fun a => (a.lane, a.bytes.map ByteAcc.va)) = lanes.map (fun l => (l.1.val, l.2))

/-- The names of dests are mapped, those that were not with a fresh row; no lane of any name is written (R165, R185). -/
def State.mapsRows (s : State) (rows : List (Nat × Row)) (dests : List Nat) : Prop :=
  (∀ n, n ∉ dests ∨ (s.cur.row n).isSome = true → assocGet rows n = s.cur.row n) ∧
  (∀ n ∈ dests, s.cur.row n = none → ∃ g, assocGet rows n = some (Row.fresh s.cur.live g))

/-- The bytes that an operation has not found are asked for: a read request for their line, of the operation's own or of an older one whose reply it
shares (R296). -/
def State.asksFor (t : State) (k : WaveKey) (id : Nat) (accs : List LaneAcc) : Prop :=
  ∀ x ∈ accs, ∀ b ∈ x.bytes, b.got = none → ∃ q ∈ t.net, ((q.key = k ∧ q.op = id) ∨ (k, id) ∈ q.sharers) ∧
    q.vline = lineAddr b.va ∧ q.pline = lineAddr b.pa ∧ ∃ bypass noCopy, q.kind = .read bypass noCopy
/-- The bytes that the issuing operation has not found are asked for. -/
def State.asks (s t : State) (accs : List LaneAcc) : Prop := t.asksFor s.sel.key s.nextId accs

/-- The addresses of a range of bytes, as an engine reads it. -/
def rangeVas (r : Nat × Nat) : List Nat := (List.range r.2).map (fun i => va56 (r.1 + i))
/-- An engine asks for ranges of bytes on behalf of an operation, which keeps what it has asked for (R213, R219). -/
def State.engineAsks (s : State) (i : Instr) (k : WaveKey) (o : Op) (ranges : List (Nat × Nat)) (mk : List LaneAcc → OpKind) : Prop :=
  ∃ t accs, exec i s = .next t ∧ t.teams = s.teams ∧ (t.wave k).op o.id = some { o with kind := mk accs } ∧
    accs.map (fun a => a.bytes.map ByteAcc.va) = ranges.map rangeVas ∧ t.asksFor k o.id accs

/-- The issue of a load-like operation (R185, R193): it is counted in LD and its registers are mapped, not written; a byte that the L1 holds
is captured unless the load bypasses it, before it what a release store of the wave that is held back there will write (R323), every byte not
found is asked for; the path goes on. The other registers, waves, teams and all of
memory but the walker's bits are as they were, and no L1 byte changes. -/
def State.loads (s : State) (i : Instr) (lanes : List (Fin 32 × List Nat)) (dests : List Nat) (bypass : Bool) (kind : List LaneAcc → OpKind) : Prop :=
  ∃ t accs rows granted,
    exec i s = .next t ∧
    t = { s with waves := t.waves, cores := t.cores, mem := t.mem, net := t.net, nextId := t.nextId } ∧
    t.cur = { s.moved with
      rows := rows, granted := granted, refused := []
      ops := s.cur.ops ++ [⟨s.nextId, .ld, s.sel.pc, s.sel.mask, kind accs, false, none, s.clock⟩] } ∧
    s.othersKept t ∧ accsOf accs lanes ∧ s.mapsRows rows dests ∧ s.walked t lanes .read ∧
    (∀ c ctx va held, ((t.core c).byteIn ctx va held).map (fun b => (b.val, b.pois, b.dirty)) =
      ((s.core c).byteIn ctx va held).map (fun b => (b.val, b.pois, b.dirty))) ∧
    (bypass = false → ∀ x ∈ accs, ∀ b ∈ x.bytes, s.plainPage b.va .read →
      (∀ m, s.releaseByte s.sel.key b.pa = some m → b.got = some m) ∧
      (s.releaseByte s.sel.key b.pa = none → ∀ lb, s.l1Byte s.sel.key.core s.cur.ctx s.cur.team b.va = some lb → b.got = some ⟨lb.val, lb.pois⟩)) ∧
    s.asks t accs

/-- The bytes that an access stores, lane by lane in ascending order (R184). -/
def storedBytes (lanes : List (Fin 32 × List Nat)) (data : Fin 32 → List MByte) : List (Nat × MByte) := lanes.flatMap (fun l => l.2.zip (data l.1))

/-- The issuing wave after an access that counts an operation: its path at the next word, its refusals spent. -/
def State.counted (s : State) (cls : Class) (kind : OpKind) : Wave :=
  { s.moved with refused := [], ops := s.cur.ops ++ [⟨s.nextId, cls, s.sel.pc, s.sel.mask, kind, false, none, s.clock⟩] }

/-- The identities of operations rise: no request serves an operation yet to come, and none of the issuing wave has its number (log 2: DESIGN
CHOICE). -/
def State.idsRise (s : State) : Prop :=
  (∀ q ∈ s.net, q.op < s.nextId ∧ ∀ x ∈ q.sharers, x.2 < s.nextId) ∧ ∀ o ∈ s.cur.ops, o.id < s.nextId

/-- No release store of the issuing wave is held back (R187). -/
def State.noneHeldBack (s : State) : Prop := ∀ q ∈ s.net, q.key = s.sel.key → s.heldBack q = false

/-- The L1 of the issuing core has room for the lines of an access. -/
def State.l1Room (s : State) (lanes : List (Fin 32 × List Nat)) : Prop :=
  (s.core s.sel.key.core).l1.length + (linesOf lanes).length ≤ (s.core s.sel.key.core).l1Cap

/-- The copies of the L1 in which a store of the issuing wave lands: its team's held ones while its region is open (R233). -/
def State.heldOf (s : State) : Option Nat := if s.regionOpen s.cur.team then some s.cur.team else none

/-- A store into the core's L1 (R184, R186, R233): each byte takes its last writer's value, dirty, as the wave's own, among the team's held
bytes while its region is open; no other byte of an L1 changes, nor any byte of home memory but the walker's bits; the operation is counted
in ST and completes at once. -/
def State.storesL1 (s : State) (i : Instr) (lanes : List (Fin 32 × List Nat)) (data : Fin 32 → List MByte) (bypass : Bool) : Prop :=
  ∃ t, exec i s = .next t ∧
    t = { s with waves := t.waves, cores := t.cores, mem := t.mem, nextId := t.nextId } ∧
    (∃ accs, accsOf accs lanes ∧ t.cur = (s.counted .st (.store bypass accs)).finish s.nextId none) ∧
    s.othersKept t ∧ s.walked t lanes .write ∧
    (∀ c, c ≠ s.sel.key.core → assocGet t.cores c = assocGet s.cores c) ∧
    (∀ va, (t.core s.sel.key.core).byteIn s.cur.ctx va s.heldOf =
      match assocGet (storedBytes lanes data).reverse va with
      | some m => some ⟨m.val, m.pois, true, [s.cur.uid]⟩
      | none => (s.core s.sel.key.core).byteIn s.cur.ctx va s.heldOf) ∧
    (∀ ctx va held, ¬ (ctx = s.cur.ctx ∧ held = s.heldOf) →
      (t.core s.sel.key.core).byteIn ctx va held = (s.core s.sel.key.core).byteIn ctx va held)

/-- A store that goes to its homes (R186, R193): it stays counted in ST, no copy of its lines stays in the L1, and a write request carries the
bytes of each of them. -/
def State.storesHome (s : State) (i : Instr) (lanes : List (Fin 32 × List Nat)) (data : Fin 32 → List MByte) : Prop :=
  ∃ t, exec i s = .next t ∧
    t = { s with waves := t.waves, cores := t.cores, mem := t.mem, net := t.net, nextId := t.nextId } ∧
    (∃ accs, accsOf accs lanes ∧ t.cur = s.counted .st (.store true accs)) ∧
    s.othersKept t ∧ s.walked t lanes .write ∧
    ∀ v ∈ linesOf lanes, (t.core s.sel.key.core).line s.cur.ctx v none = none ∧
      ∃ q ∈ t.net, q.key = s.sel.key ∧ q.op = s.nextId ∧ q.vline = v ∧ q.pline = lineAddr (s.paOf s.cur.ctx v .write) ∧
        q.kind = .write ((lineBytes v (storedBytes lanes data)).map (fun b => (q.pline + b.1, b.2))) []

/-- The issue of an operation that waits to be performed, STRL or ATOM: counted in its class with its lanes, addresses and data; its
registers are mapped, not written. -/
def State.waits (s t : State) (cls : Class) (lanes : List (Fin 32 × List Nat)) (data : Fin 32 → List MByte) (dests : List Nat)
    (kind : List LaneAcc → OpKind) (accs : List LaneAcc) : Prop :=
  (∃ rows granted, t.cur = { s.counted cls (kind accs) with rows := rows, granted := granted } ∧ s.mapsRows rows dests) ∧
  s.othersKept t ∧ accsOf accs lanes ∧ accs.map LaneAcc.data = lanes.map (fun l => data l.1)

/-! ### Scratchpad and barriers -/

/-- Every lane of the path reaches the scratchpad: clean, aligned, inside the allocation, and for a store clear of armed objects (R190, R199). -/
def State.spReaches (s : State) (a : BitVec 6) (off width : Nat) (store : Bool) : Prop :=
  s.sel.mask &&& s.cur.vsrcPois a = 0 ∧ ∀ i : Fin 32, s.sel.mask.getLsbD i.val = true →
    s.cur.spAddr a off i % width = 0 ∧ s.cur.spAddr a off i + width ≤ s.curTeam.spSize ∧
    (store = true → s.curTeam.armedAt (s.cur.spAddr a off i) width = none)

/-- The names d, d + 1 .. of a result of n words take the words of a lane, poison with them; other lanes and names keep theirs. -/
def Wave.takes (w w' : Wave) (m : LaneMask) (d : BitVec 6) (n : Nat) (word : Nat → Fin 32 → Word) (pois : Nat → Fin 32 → Bool) : Prop :=
  (∀ j, j < n → d.toNat < 62 → ∀ i : Fin 32,
    (m.getLsbD i.val = true → w'.vword (d.toNat + j) i = word j i ∧ (w'.vpois (d.toNat + j)).getLsbD i.val = pois j i) ∧
    (m.getLsbD i.val = false → w'.vword (d.toNat + j) i = w.vword (d.toNat + j) i ∧
      (w'.vpois (d.toNat + j)).getLsbD i.val = (w.vpois (d.toNat + j)).getLsbD i.val)) ∧
  (∀ x, x ∉ vnames d n → w'.row x = w.row x)

/-- The bytes that a scratchpad store writes, lanes ascending (R190). -/
def State.spWrites (s : State) (a d : BitVec 6) (off width : Nat) : List (Nat × MByte) :=
  (maskLanes s.sel.mask).flatMap (fun i => ((s.cur.storeBytes d width i).zipIdx).map (fun b => (s.cur.spAddr a off i + b.2, b.1)))

/-- The threads of the path wait in place at their instruction for a reason (R15). -/
def State.waiting (s : State) (w : Wave) (why : WaitWhy) : Wave :=
  { w with
    lanes := Vector.ofFn (fun i => if s.sel.mask.getLsbD i.val then { w.lanes[i] with block := .waiting } else w.lanes[i])
    waits := w.waits ++ [s.pathWait why] }

/-- A wait that is over: its threads unblocked at its next word (R17). -/
def Wave.resumed (w : Wave) (x : Wait) : Wave :=
  { w with
    lanes := Vector.ofFn (fun i => if x.lanes.getLsbD i.val then { w.lanes[i] with block := .none, pc := x.next } else w.lanes[i])
    waits := w.waits.filter (fun y => y != x)
    swapCandidate := false }

/-- A wait that ends in a trap: its threads unblocked where they stand. -/
def Wave.unblocked (w : Wave) (x : Wait) : Wave :=
  { w with
    lanes := Vector.ofFn (fun i => if x.lanes.getLsbD i.val then { w.lanes[i] with block := .none } else w.lanes[i])
    waits := w.waits.filter (fun y => y != x)
    swapCandidate := false }

/-- No thread of a wait is stopped in trap handling (R151). -/
def Wave.canEnd (w : Wave) (x : Wait) : Prop := ∀ i : Fin 32, x.lanes.getLsbD i.val = true → w.lanes[i].stopped = false

/-- A failure that a wait for some classes delivers: of an operation that has been counted off; at handler level only a precise one (R152, R196,
R294). -/
def Wave.due (w : Wave) (classes : List Class) (p : Pending) : Prop :=
  p ∈ w.pend ∧ p.cls ∈ classes ∧ (p.fail.precise = true ∨ w.handler = false)
/-- The one of the oldest operation (R196). -/
def Wave.oldestDue (w : Wave) (classes : List Class) (p : Pending) : Prop :=
  w.due classes p ∧ ∀ p', w.due classes p' → p' ≠ p → p.op < p'.op
/-- The wave has taken the trap of a delivered failure: asynchronous with TPC at the next word, precise at the instruction's own (R196, R294). -/
def Wave.delivered (w : Wave) (p : Pending) (pc next : Word) : Wave :=
  { w with pend := w.pend.filter (fun y => y != p) }.entered (BitVec.ofNat 32 (p.fail.cause + if p.fail.precise then 0 else 256))
    (if p.fail.precise then pc else next) p.fail.lanes p.fail.addr p.fail.info

/-- What an acquire of a wave at a scope leaves (R187, R197, R291): at die scope or wider no clean byte of its context in the core's L1, at package
scope or wider no remote copy on its die; home memory, the teams, and below crew scope the caches and the requests, are as they were. -/
def State.acquired (s t : State) (k : WaveKey) (scope : Nat) : Prop :=
  t.mem = s.mem ∧ t.teams = s.teams ∧ (scope < 2 → t.cores = s.cores ∧ t.dies = s.dies ∧ t.net = s.net) ∧
  (3 ≤ scope → ∀ l ∈ (t.core k.core).l1, l.ctx = (s.wave k).ctx → l.held = none → ∀ b ∈ l.bytes, b.2.dirty = true) ∧
  (4 ≤ scope → (t.die (dieOf k.core)).copies = [] ∧ (t.die (dieOf k.core)).epoch = (s.die (dieOf k.core)).epoch + 1)

/-- A barrier instruction reaches its object: guard clean and true, address clean, aligned and inside, no injection, no poisoned word (R189, R200). -/
structure State.AtObject (s : State) (f : U3) : Prop where
  guard : s.cur.qp f.qg = false ∧ s.cur.q f.qg ≠ f.qn
  address : s.cur.sregPois f.a = false ∧ (s.cur.sreg f.a f.lit).toNat % 16 = 0 ∧ (s.cur.sreg f.a f.lit).toNat + 16 ≤ s.curTeam.spSize
  clean : s.unarmed ∧ s.curTeam.objPois (s.cur.sreg f.a f.lit).toNat = false

/-- The team after n arrivals at an object that end no phase (R201), a wave's index among them at a team-waves object. -/
def Team.counted (x : Team) (a n : Nat) (idx : BitVec 5) : Team :=
  let y := if x.kindAt a = 1 then { x with arrived := assocSet x.arrived a (x.maskAt a ||| (1#32 <<< idx.toNat)) } else x
  (y.putWord (a + 4) (BitVec.ofNat 32 (y.arrivedAt a + n)) false).putWord (a + 8) (y.gen a) false
/-- The team after arrivals that end one phase exactly. -/
def Team.advanced (x : Team) (a : Nat) : Team :=
  let y := (x.putWord (a + 4) 0 false).putWord (a + 8) (x.gen a + 1) false
  { y with arrived := assocErase y.arrived a }

/-- No wave of the team waits at the object for a generation already past. -/
def State.noStale (s : State) (t a : Nat) : Prop :=
  ∀ p ∈ s.waves, p.2.team = t → ∀ x ∈ p.2.waits, ∀ g, x.why = .barrier a g → g = (s.team t).gen a

/-! ### Rings -/

/-- A ring operation on a scratchpad block meets no trap: R203 to R205. -/
structure State.RingReady (s : State) (f : UR) (readsD : Bool) : Prop where
  block : f.sp = true ∧ s.cur.sregPois f.a = false ∧ (s.cur.sreg f.a 0).toNat % 32 = 0 ∧ (s.cur.sreg f.a 0).toNat + 32 ≤ s.curTeam.spSize
  data : readsD = true → s.cur.sregPois f.d = false
  clean : s.unarmed ∧ ∀ i, i < 32 → s.curTeam.wordPois ((s.cur.sreg f.a 0).toNat + i) = false
  slots : slotsIllegal (s.curTeam.spWord ((s.cur.sreg f.a 0).toNat + 12)) = false
  scope : f.sc.toNat < 2

/-- The wave after a ring operation that succeeds: s[D], if it writes one, then q[QD], unless it is RCMT. -/
def Wave.ringDone (w : Wave) (f : UR) (sd : Option Word) (q : Bool) : Wave :=
  let w := match sd with
    | some x => w.setS f.d x false
    | none => w
  if q then w.setQ f.qd true false else w

/-! ### Tasks and teams -/

/-- A crew that has started on a cluster (R155, R171, R301, R303): its slot runs, and every wave of its teams stands at ENTRY under the launch
state, with the team index, the argument block and the record table in its registers; where the pool has no row for it v0 waits swapped out
(R167, R171). -/
def State.launched (s t : State) (crew : Nat) (places : List (Nat × Nat)) (cluster : Nat) : Prop :=
  let x := s.task (s.crew crew).task
  let b := x.bytes
  (t.crew crew).place = some cluster ∧ (t.crew crew).startedAt = s.clock ∧ t.chosen = none ∧
  (t.queue x.ctx x.queue).head = none ∧ (t.queue x.ctx x.queue).running = (s.queue x.ctx x.queue).running ++ [(x.slot, false)] ∧
  ∀ p ∈ places, (t.team p.1).resident = true ∧ (t.team p.1).core = p.2 ∧
    ∀ i, i < TaskRec.waves b → ∃ e ∈ t.waves, e.1.core = p.2 ∧ e.2.team = p.1 ∧ e.2.index = BitVec.ofNat 5 i ∧
      e.2.lanes = Vector.replicate 32 (Lane.launch (TaskRec.entry b)) ∧
      (∃ r, (e.2.row 0 = some r ∨ e.2.swapped = some [(0, r)]) ∧ ∀ j : Fin 32, r.words[j] = BitVec.ofNat 32 (32 * i + j.val)) ∧
      e.2.sreg 0 0 = (s.team p.1).teamId ∧ e.2.spair 1 = BitVec.ofNat 64 (TaskRec.args b) ∧ e.2.tvec = (s.context x.ctx).tvec ∧
      ∀ n : Fin 4, e.2.brec (BitVec.ofNat 4 n.val) = BitVec.ofNat 128 (bytesNat (s.vaBytes x.ctx (s.rtabVa x.ctx b + 16 * n.val) 16))

/-- The chosen crew can start at its places: no replay and no saved crew goes ahead of it, the record table can be read,
every team is as the task's record shapes it. -/
structure State.CanStart (s : State) (crew : Nat) (places : List (Nat × Nat)) : Prop where
  waits : s.crewWaits crew = true
  table : s.rtabReach (s.task (s.crew crew).task).ctx (s.task (s.crew crew).task).bytes = .ok
  keys : (s.teams.map Prod.fst).Nodup ∧ (places.map Prod.fst).Nodup ∧ (places.map Prod.snd).Nodup
  shape : ∀ p ∈ places, (s.team p.1).declared = TaskRec.waves (s.task (s.crew crew).task).bytes ∧ (s.team p.1).saved = none
  range : TaskRec.args (s.task (s.crew crew).task).bytes < 2 ^ 56

/-- Every resident member of a crew, and nothing else, is asked to stop (R172, R267). -/
def State.asksToStop (s t : State) (crew : Nat) (why : PreemptWhy) : Prop :=
  t = { s with teams := t.teams } ∧ ∀ n x, assocGet s.teams n = some x →
    assocGet t.teams n = some (if x.crew = crew ∧ x.resident = true ∧ x.preempt = none then { x with preempt := some (why, s.clock) } else x)

/-- A TASKINV record of a task's slot, with the address that cannot be accessed and the access (R445, R451). -/
def State.taskInvLogged (s t : State) (qid slot rec_ va access : Nat) : Prop :=
  ∃ r ∈ t.log, r.kind = 0x000A ∧ r.seq = s.logSeq ∧ r.body = [BitVec.ofNat 32 qid, BitVec.ofNat 32 slot, BitVec.ofNat 32 rec_,
    BitVec.ofNat 32 (rec_ / 2 ^ 32), BitVec.ofNat 32 va, BitVec.ofNat 32 (va / 2 ^ 32), BitVec.ofNat 32 access]

/-! ### Tiles, copies, near-memory products -/

/-- One tile of an MMA (R221, R222): its header clean, aligned and inside, of the kind, type and format of the instruction, with the step's
elements and their bytes inside the scratchpad. -/
structure Team.TileOk (x : Team) (m : MmaSpec) (v : Word) (kind kt : Nat) : Prop where
  reserved : v.getLsbD 19 = false
  place : v.toNat % 2 ^ 19 % 32 = 0 ∧ v.toNat % 2 ^ 19 + 32 ≤ x.spSize ∧ x.headerPois (v.toNat % 2 ^ 19) = false
  data : dataStart (v.toNat % 2 ^ 19) + (tileRows kind m.typ - 1) * rstride (TileHdr.klen (x.header (v.toNat % 2 ^ 19))) m.bits
    + ((v.toNat / 2 ^ 20 + 1) * kt * m.bits + 7) / 8 ≤ x.spSize
  header : TileHdr.kind (x.header (v.toNat % 2 ^ 19)) = kind ∧ TileHdr.typ (x.header (v.toNat % 2 ^ 19)) = m.typ ∧
    TileHdr.reserved (x.header (v.toNat % 2 ^ 19)) = false ∧ (kind = 1 → TileHdr.gath (x.header (v.toNat % 2 ^ 19)) = false)
  format : (m.typ ≠ 4 → TileHdr.fmt (x.header (v.toNat % 2 ^ 19)) = 0) ∧ (m.typ = 4 → Narrow.valid (TileHdr.fmt (x.header (v.toNat % 2 ^ 19))) = true ∧
    m.lo ≤ Narrow.width (TileHdr.fmt (x.header (v.toNat % 2 ^ 19))) ∧ Narrow.width (TileHdr.fmt (x.header (v.toNat % 2 ^ 19))) ≤ m.hi)
  steps : (v.toNat / 2 ^ 20 + 1) * kt ≤ TileHdr.klen (x.header (v.toNat % 2 ^ 19))

/-- An MMA meets no trap of R222; the pool has room for its accumulators, and no injection is armed. -/
structure State.MmaReady (s : State) (f : VT) (m : MmaSpec) : Prop where
  begins : s.begins [] 16
  clean : s.cur.sregPois f.sa = false ∧ s.cur.sregPois f.sb = false ∧ (m.sparse = true → s.cur.sregPois f.fn = false)
  a : s.curTeam.TileOk m (s.cur.sreg f.sa 0) 0 m.ktA
  b : s.curTeam.TileOk m (s.cur.sreg f.sb 0) 1 m.kt
  meta_ : m.sparse = true → (s.cur.sreg f.fn 0).toNat % 256 = 0 ∧
    (s.cur.sreg f.fn 0).toNat + 31 * metaStride (TileHdr.klen (s.curTeam.header ((s.cur.sreg f.sa 0).toNat % 2 ^ 19)))
      + 16 * ((s.cur.sreg f.sa 0).toNat / 2 ^ 20) + 16 ≤ s.curTeam.spSize

/-- The state after an instruction that only counts an operation: the next identity taken, the operation the wave's newest, the path moved. -/
def State.issued (s : State) (cls : Class) (kind : OpKind) : State :=
  ({ s with nextId := s.nextId + 1 }).setWave s.sel.key { s.moved with
    ops := s.cur.ops ++ [(⟨s.nextId, cls, s.sel.pc, s.sel.mask, kind, false, none, s.clock⟩ : Op)] }

/-- A copy command meets no trap of R212. -/
structure State.CopyReady (s : State) (f : UC) (mcast : Bool) : Prop where
  region : mcast = true → s.regionOpen s.cur.team = false
  clean : s.cur.spairPois f.a = false ∧ s.cur.spairPois f.b = false ∧ s.cur.sregPois f.c = false ∧ s.cur.sregPois f.fn = false
  reserved : (s.cur.sreg (f.a + 1) 0).extractLsb' 24 8 = 0 ∧
    s.cur.sreg f.c 0 &&& (if mcast then 0xF0F80000 else 0xFFF80000) = 0
  members : mcast = true → (s.cur.sreg f.c 0).extractLsb' 24 4 ≠ 0 ∧
    ((s.cur.sreg f.c 0).extractLsb' 24 4).toNat ≤ 2 ^ s.crewSize s.cur.team - 1
  aligned : (s.cur.sreg f.c 0).toNat % 2 ^ 19 % 32 = 0 ∧ (s.cur.spair f.a).toNat % 2 ^ 56 % 64 = 0 ∧
    (s.cur.sreg f.fn 0 ≠ 0xFFFFFFFF → (s.cur.sreg f.fn 0).toNat % 16 = 0)
  inside : (mcast = false ∨ ((s.cur.sreg f.c 0).extractLsb' 24 4).getLsbD s.curTeam.member = true) →
    (s.cur.sreg f.c 0).toNat % 2 ^ 19 + 32 ≤ s.curTeam.spSize ∧ (s.cur.sreg f.fn 0 ≠ 0xFFFFFFFF →
      (s.cur.sreg f.fn 0).toNat + 16 ≤ s.curTeam.spSize ∧ s.curTeam.kind2At (s.cur.sreg f.fn 0).toNat = true)

/-- A copy command stands at a stage of its transfer: it has not failed, and every request that it has made has been answered. -/
def State.CopyAt (s : State) (k : WaveKey) (o : Op) (c : CopyOp) (rec_ : Option (List Byte)) (accs : List LaneAcc) : Prop :=
  (s.wave k).op o.id = some o ∧ o.done = false ∧ o.fail = none ∧ o.kind = .copy c rec_ accs none ∧ s.replied k o.id = true

/-! ### The host -/

/-- A command whose header is accepted (R421 to R426): its session is open and has no invalidation to report, its reserved and response bits are
zero, its SEQ is the next, its version the session's, its length at most 1 MiB, its code the command's. -/
structure State.Accepts (s : State) (h : Hdr) (v : Session) (op : Nat) : Prop where
  link : s.hostPorts ≠ 0
  idle : s.sessionBusy h.session = false
  session : assocGet s.sessions h.session = some v
  clean : h.resv = 0 ∧ h.event = false ∧ h.resp = false ∧ h.status = 0 ∧ h.resv2 = 0
  inOrder : h.seq = v.nextSeq
  version : h.vmaj.toNat * 256 + h.vmin.toNat = v.version
  short : h.length.toNat ≤ 1048576
  code : h.op.toNat = op

/-- The state with a command's SEQ taken and its session's stored response gone (R425). -/
def State.taken (s : State) (h : Hdr) (v : Session) : State :=
  { s with sessions := assocSet s.sessions h.session { v with nextSeq := h.seq + 1, stored := none } }

/-- A command that is performed: OK with a payload after a state t, its response stored and sent. -/
def State.done (s : State) (i : Instr) (h : Hdr) (t : State) (payload : List Byte) : Prop := exec i s = .next (t.respond h 0 payload)

/-- A command that is refused by its payload: nothing changes but the session's SEQ, the log if the status breaks a rule, and the response. -/
def State.refused (s : State) (i : Instr) (h : Hdr) (v : Session) (status : Nat) : Prop :=
  ∃ t, exec i s = .next t ∧ t = { (s.taken h v).respond h status [] with log := t.log, logSeq := t.logSeq, logLost := t.logLost } ∧
    (status = 7 ∨ status = 9 → t.log = s.log)

/-- An accepted command on a context of its session that has not been terminated (R423). -/
def State.acceptsOn (s : State) (h : Hdr) (v : Session) (c : Context) (op : Nat) : Prop :=
  s.Accepts h v op ∧ assocGet s.contexts h.ctx.toNat = some c ∧ c.session = h.session ∧ c.ended = false

end Machine

end Sys2Proof
end

