-- ==== Sys2Proof/Certificates/Slice0/Obligations.lean ====
section
/-! DEFINITION. The statements about the model, from the numbered rules of the spec. -/

open Sys2Proof
open Sys2Proof.Machine

/-! ### Lane instructions -/

/-- R91 to R101, R104: what each integer lane instruction with one result word computes, with its frame. -/
def Obligations.LaneIntegerResults : Prop := ∀ s : State,
  (∀ f, LaneForm.of (.mov f) (formOne f (fun a => a)) s) ∧
  (∀ f, LaneForm.of (.movi f) (formPlain f.d false [] (fun _ _ => ((f.imm.signExtend 32).setWidth 64, 0)) (fun _ => 0)) s) ∧
  (∀ f, LaneForm.of (.bcast f) (formPlain f.d false [] (fun s _ => ((s.cur.sreg f.a 0).setWidth 64, 0))
      (fun s => if s.cur.sregPois f.a then BitVec.allOnes 32 else 0)) s) ∧
  (∀ f, LaneForm.of (.perm f) (formV4 f Sys2Proof.Machine.Int32.perm) s) ∧
  (∀ f, LaneForm.of (.iadd f) (formV3 f (fun a b => a + b)) s) ∧
  (∀ f, LaneForm.of (.isub f) (formV3 f (fun a b => a - b)) s) ∧
  (∀ f, LaneForm.of (.iaddi f) (formVI f (fun a => a + f.imm.signExtend 32)) s) ∧
  (∀ f, LaneForm.of (.imul f) (formV3 f (fun a b => a * b)) s) ∧
  (∀ f, LaneForm.of (.imulhs f) (formV3 f (fun a b => BitVec.ofInt 32 (a.toInt * b.toInt / 2 ^ 32))) s) ∧
  (∀ f, LaneForm.of (.imulhu f) (formV3 f (fun a b => BitVec.ofNat 32 (a.toNat * b.toNat / 2 ^ 32))) s) ∧
  (∀ f, LaneForm.of (.imad f) (formV4 f (fun a b c => a * b + c)) s) ∧
  (∀ f, LaneForm.of (.imin f) (formV3 f (fun a b => if b.slt a then b else a)) s) ∧
  (∀ f, LaneForm.of (.imax f) (formV3 f (fun a b => if a.sle b then b else a)) s) ∧
  (∀ f, LaneForm.of (.umin f) (formV3 f (fun a b => if b.ult a then b else a)) s) ∧
  (∀ f, LaneForm.of (.umax f) (formV3 f (fun a b => if a.ule b then b else a)) s) ∧
  (∀ f, LaneForm.of (.iabs f) (formOne f (fun a => if a.slt 0 then -a else a)) s) ∧
  (∀ f, LaneForm.of (.and f) (formV3 f (fun a b => a &&& b)) s) ∧
  (∀ f, LaneForm.of (.or f) (formV3 f (fun a b => a ||| b)) s) ∧
  (∀ f, LaneForm.of (.xor f) (formV3 f (fun a b => a ^^^ b)) s) ∧
  (∀ f, LaneForm.of (.andn f) (formV3 f (fun a b => a &&& ~~~b)) s) ∧
  (∀ f, LaneForm.of (.andi f) (formVI f (fun a => a &&& f.imm.setWidth 32)) s) ∧
  (∀ f, LaneForm.of (.ori f) (formVI f (fun a => a ||| f.imm.setWidth 32)) s) ∧
  (∀ f, LaneForm.of (.xori f) (formVI f (fun a => a ^^^ f.imm.setWidth 32)) s) ∧
  (∀ f, LaneForm.of (.shl f) (formV3 f (fun a b => a <<< shiftAmount b)) s) ∧
  (∀ f, LaneForm.of (.shr f) (formV3 f (fun a b => a >>> shiftAmount b)) s) ∧
  (∀ f, LaneForm.of (.sar f) (formV3 f (fun a b => a.sshiftRight (shiftAmount b))) s) ∧
  (∀ f, LaneForm.of (.shli f) (formVI f (fun a => a <<< (f.imm.toNat % 32))) s) ∧
  (∀ f, LaneForm.of (.shri f) (formVI f (fun a => a >>> (f.imm.toNat % 32))) s) ∧
  (∀ f, LaneForm.of (.sari f) (formVI f (fun a => a.sshiftRight (f.imm.toNat % 32))) s) ∧
  (∀ f, LaneForm.of (.shf f) (formV4 f (fun a b c => loWord (pairOf a c >>> shiftAmount b))) s) ∧
  (∀ f, LaneForm.of (.bfeu f) (formPlain f.d false (vname f.a ++ vname f.c)
      (fun s i => ((bfTake (s.cur.vsrc f.a f.lit i) (s.cur.vsrc f.c f.lit i) false).setWidth 64, 0))
      (fun s => s.cur.vsrcPois f.a ||| s.cur.vsrcPois f.c)) s) ∧
  (∀ f, LaneForm.of (.bfes f) (formPlain f.d false (vname f.a ++ vname f.c)
      (fun s i => ((bfTake (s.cur.vsrc f.a f.lit i) (s.cur.vsrc f.c f.lit i) true).setWidth 64, 0))
      (fun s => s.cur.vsrcPois f.a ||| s.cur.vsrcPois f.c)) s) ∧
  (∀ f, LaneForm.of (.bfi f) (formV4 f bfPut) s) ∧
  (∀ f, LaneForm.of (.bit f) (formPlain f.d false (vname f.a) (fun s i => ((Sys2Proof.Machine.Int32.bitOp f.fn.toNat (s.cur.vsrc f.a f.lit i)).setWidth 64, 0))
      (fun s => s.cur.vsrcPois f.a)) s) ∧
  (∀ f : V3, s.cur.guardPois s.sel.mask f.g = 0 → LaneForm.of (.sel f)
    { formV3 f (fun a _ => a) with
      g := 7
      gn := false
      res := fun s i => ((if s.cur.lanes[i].p f.g = f.gn then s.cur.vsrc f.b f.lit i else s.cur.vsrc f.a f.lit i).setWidth 64, 0)
      pois := fun s =>
        let taken := s.cur.guardLanes s.sel.mask f.g f.gn
        (s.cur.vsrcPois f.a &&& taken) ||| (s.cur.vsrcPois f.b &&& ~~~taken) } s) ∧
  (∀ f : VX, f.fn = 0 → LaneForm.of (.pmov f)
    (formPlain f.d false [] (fun s i => ((s.cur.lanes[i].preds).setWidth 64, 0)) (fun s => s.cur.laneMask (fun l => l.predPois != 0))) s)

/-- R98: the lane instructions that write a pair of registers from integers. -/
def Obligations.LaneWideResults : Prop := ∀ s : State,
  (∀ f, LaneForm.of (.imulws f) (formWide f (fun a b => a.signExtend 64 * b.signExtend 64)) s) ∧
  (∀ f, LaneForm.of (.imulwu f) (formWide f (fun a b => a.setWidth 64 * b.setWidth 64)) s) ∧
  (∀ f, LaneForm.of (.iadd64 f) (formPairs f (fun a b => (a + b, 0))) s) ∧
  (∀ f, LaneForm.of (.isub64 f) (formPairs f (fun a b => (a - b, 0))) s)

/-- R107, R109: FP32 arithmetic in every executing lane, the flags of the executing lanes ORed into FPC (R42). -/
def Obligations.LaneFloat32Results : Prop := ∀ s : State,
  (∀ f, LaneForm.of (.fadd f) (formF32 f (fun z => Fp.add Fp.f32 z)) s) ∧
  (∀ f, LaneForm.of (.fsub f) (formF32 f (fun z => Fp.sub Fp.f32 z)) s) ∧
  (∀ f, LaneForm.of (.fmul f) (formF32 f (fun z => Fp.mul Fp.f32 z)) s) ∧
  (∀ f, LaneForm.of (.fdiv f) (formF32 f (fun z => Fp.div Fp.f32 z)) s) ∧
  (∀ f, LaneForm.of (.fmin f) (formF32 f (fun z => Fp.minMax Fp.f32 z false true)) s) ∧
  (∀ f, LaneForm.of (.fmax f) (formF32 f (fun z => Fp.minMax Fp.f32 z true true)) s) ∧
  (∀ f, LaneForm.of (.fminn f) (formF32 f (fun z => Fp.minMax Fp.f32 z false false)) s) ∧
  (∀ f, LaneForm.of (.fmaxn f) (formF32 f (fun z => Fp.minMax Fp.f32 z true false)) s) ∧
  (∀ f : V3, LaneForm.of (.fsqrt f) { formOne f (fun a => a) with
    res := fun s i => asResult (Fp.sqrt Fp.f32 s.cur.ftz (s.cur.vsrc f.a f.lit i).toNat) } s) ∧
  (∀ f : V4, LaneForm.of (.ffma f) (formFma f (fun z => Fp.fma Fp.f32 z)) s)

/-- R107, R109: FP64 arithmetic on pairs. -/
def Obligations.LaneFloat64Results : Prop := ∀ s : State,
  (∀ f, LaneForm.of (.dadd f) (formF64 f (Fp.add Fp.f64 false)) s) ∧
  (∀ f, LaneForm.of (.dsub f) (formF64 f (Fp.sub Fp.f64 false)) s) ∧
  (∀ f, LaneForm.of (.dmul f) (formF64 f (Fp.mul Fp.f64 false)) s) ∧
  (∀ f, LaneForm.of (.ddiv f) (formF64 f (Fp.div Fp.f64 false)) s) ∧
  (∀ f, LaneForm.of (.dmin f) (formF64 f (Fp.minMax Fp.f64 false false true)) s) ∧
  (∀ f, LaneForm.of (.dmax f) (formF64 f (Fp.minMax Fp.f64 false true true)) s) ∧
  (∀ f : V3, LaneForm.of (.dsqrt f) { formPairs f (fun a _ => (a, 0)) with
    reads := vnames f.a 2
    marks := markNames f.ka false (vnames f.a 2) []
    res := fun s i => asResult (Fp.sqrt Fp.f64 false (s.cur.vpair f.a i).toNat)
    pois := fun s => s.cur.vpairPois f.a } s) ∧
  (∀ f : V4, LaneForm.of (.dfma f) (formPlain f.d true (vnames f.a 2 ++ vnames f.b 2 ++ vnames f.c 2)
    (fun s i => asResult (Fp.fma Fp.f64 false (s.cur.vpair f.a i).toNat (s.cur.vpair f.b i).toNat (s.cur.vpair f.c i).toNat))
    (fun s => s.cur.vpairPois f.a ||| s.cur.vpairPois f.b ||| s.cur.vpairPois f.c)) s)

/-- R110: packed FP16 and BF16, each half of a word on its own. -/
def Obligations.LanePackedResults : Prop := ∀ s : State,
  (∀ f, LaneForm.of (.hadd2 f) (formF32 f (fun z => packed2 (Fp.add Fp.f16 z))) s) ∧
  (∀ f, LaneForm.of (.hmul2 f) (formF32 f (fun z => packed2 (Fp.mul Fp.f16 z))) s) ∧
  (∀ f, LaneForm.of (.hfma2 f) (formFma f (fun z => packed3 (Fp.fma Fp.f16 z))) s) ∧
  (∀ f : VX, LaneForm.of (.hmnx2 f) (formVX2 f (fun s a b => asResult
    (packed2 (Fp.minMax (if f.fn.getLsbD 2 then Fp.bf16 else Fp.f16) s.cur.ftz (f.fn.getLsbD 0) (!f.fn.getLsbD 1)) a.toNat b.toNat))) s) ∧
  (∀ f, LaneForm.of (.badd2 f) (formF32 f (fun z => packed2 (Fp.add Fp.bf16 z))) s) ∧
  (∀ f, LaneForm.of (.bmul2 f) (formF32 f (fun z => packed2 (Fp.mul Fp.bf16 z))) s) ∧
  (∀ f, LaneForm.of (.bfma2 f) (formFma f (fun z => packed3 (Fp.fma Fp.bf16 z))) s)

/-- R112 to R118: sign operations, functions, rounding and conversions. -/
def Obligations.LaneConversionResults : Prop := ∀ s : State,
  (∀ f : VX, f.fn.toNat = 0 → LaneForm.of (.fsgn f) (formVX f (fun _ a => ((a &&& 0x7FFFFFFF#32).setWidth 64, 0))) s) ∧
  (∀ f : VX, f.fn.toNat = 1 → LaneForm.of (.fsgn f) (formVX f (fun _ a => ((a ^^^ 0x80000000#32).setWidth 64, 0))) s) ∧
  (∀ f : VX, f.fn.toNat = 2 → LaneForm.of (.fsgn f)
    (formVX2 f (fun _ a b => (((a &&& 0x7FFFFFFF#32) ||| (b &&& 0x80000000#32)).setWidth 64, 0))) s) ∧
  (∀ f : VX, f.fn.toNat = 3 → LaneForm.of (.fsgn f) (formVX2 f (fun _ a b => ((a ^^^ (b &&& 0x80000000#32)).setWidth 64, 0))) s) ∧
  (∀ f : VX, LaneForm.of (.fsfu f) (formVX f (fun s a => asResult (Fp.sfu f.fn.toNat s.cur.ftz a.toNat))) s) ∧
  (∀ f : VX, LaneForm.of (.frnd f) (formVX f (fun s a => asResult (Fp.rint Fp.f32 s.cur.ftz (s.roundingOf f) a.toNat))) s) ∧
  (∀ f : VX, f.fn.extractLsb' 3 3 = 0#3 → LaneForm.of (.dsfu f) (formPlain f.d true (vnames f.a 2)
    (fun s i => asResult (Fp.rint Fp.f64 false (s.roundingOf f) (s.cur.vpair f.a i).toNat)) (fun s => s.cur.vpairPois f.a)) s) ∧
  (∀ f : VX, f.fn.extractLsb' 3 3 = 1#3 → LaneForm.of (.dsfu f) (formPlain f.d false (vnames f.a 2)
    (fun s i => ((Fp.getExp (s.cur.vpair f.a i).toNat).1.setWidth 64, (Fp.getExp (s.cur.vpair f.a i).toNat).2)) (fun s => s.cur.vpairPois f.a)) s) ∧
  (∀ f : VX, f.fn.extractLsb' 3 3 = 2#3 → LaneForm.of (.dsfu f) (formPlain f.d true (vnames f.a 2 ++ vname f.b)
    (fun s i => asResult (Fp.scale (s.roundingOf f) (s.cur.vpair f.a i).toNat (s.cur.vsrc f.b f.lit i).toInt))
    (fun s => s.cur.vpairPois f.a ||| s.cur.vsrcPois f.b)) s) ∧
  (∀ f : VX, LaneForm.of (.cvt f) (formPlain f.d (cvtWide (f.b.toNat / 8)) (if cvtWide (f.b.toNat % 8) then vnames f.a 2 else vname f.a)
    (fun s i => Fp.cvt (f.b.toNat / 8) (f.b.toNat % 8) (s.roundingOf f) s.cur.ftz (s.cvtSource f i))
    (fun s => if cvtWide (f.b.toNat % 8) then s.cur.vpairPois f.a else s.cur.vsrcPois f.a)) s) ∧
  (∀ f : VX, (∀ i : Fin 32, s.sel.mask.getLsbD i.val → Narrow.valid (s.cur.vsrc f.b f.lit i)) → LaneForm.of (.ncvt f)
    (formVX2 f (fun s a b => asResult (ncvtOp (f.fn.extractLsb' 3 3).toNat (s.roundingOf f) s.cur.ftz a b))) s)

/-- R128 to R132: the collectives of the issuing path, which is every live thread of the wave. -/
def Obligations.LaneCollectiveResults : Prop := ∀ s : State,
  (∀ f : VX, f.fn.toNat = 0 → LaneForm.of (.vote f) (formPlain f.d false []
    (fun s _ => ((s.voters (f.a.extractLsb' 0 3)).setWidth 64, 0))
    (fun s => if s.poisonedVoters (f.a.extractLsb' 0 3) = 0 then 0 else BitVec.allOnes 32)) s) ∧
  (∀ f : VX, f.fn.toNat = 1 → LaneForm.of (.vote f) (formPlain f.d false []
    (fun s _ => ((BitVec.ofNat 32 (maskCount (s.voters (f.a.extractLsb' 0 3)))).setWidth 64, 0))
    (fun s => if s.poisonedVoters (f.a.extractLsb' 0 3) = 0 then 0 else BitVec.allOnes 32)) s) ∧
  (∀ f : VX, f.fn.toNat = 2 → LaneForm.of (.vote f) (formPlain f.d false []
    (fun s i => ((BitVec.ofNat 32 (maskCount (s.voters (f.a.extractLsb' 0 3) &&& lanesBelow i))).setWidth 64, 0))
    (fun s => maskOf (fun i => (lanesBelow i &&& s.poisonedVoters (f.a.extractLsb' 0 3)) != 0))) s) ∧
  (∀ f : VX, f.fn.toNat = 3 → LaneForm.of (.vote f) (formPlain f.d false []
    (fun s _ => ((match lowestLane (s.voters (f.a.extractLsb' 0 3)) with
      | some i => BitVec.ofNat 32 i.val
      | none => 32#32).setWidth 64, 0))
    (fun s => if s.poisonedVoters (f.a.extractLsb' 0 3) = 0 then 0 else BitVec.allOnes 32)) s) ∧
  (∀ f : VX, LaneForm.of (.shfl f) (formPlain f.d false (vname f.a ++ vname f.b)
    (fun s i => ((s.cur.vsrc f.a f.lit (s.shflLane f i)).setWidth 64, 0))
    (fun s => s.cur.vsrcPois f.b ||| maskOf (fun i => (s.cur.vsrcPois f.a).getLsbD (s.shflLane f i).val))) s) ∧
  (∀ f : VX, f.fn.extractLsb' 1 2 ≠ 3#2 → LaneForm.of (.wred f) (formPlain f.d false (vname f.a)
    (fun s i => ((loWord (s.cur.reduce f s.sel.mask i).1).setWidth 64, (s.cur.reduce f s.sel.mask i).2))
    (fun s => if s.sel.mask &&& s.cur.vsrcPois f.a = 0 then 0 else BitVec.allOnes 32)) s) ∧
  (∀ f : VX, f.fn.extractLsb' 1 2 = 3#2 → LaneForm.of (.wred f) (formPlain f.d true (vnames f.a 2)
    (fun s i => s.cur.reduce f s.sel.mask i)
    (fun s => if s.sel.mask &&& s.cur.vpairPois f.a = 0 then 0 else BitVec.allOnes 32)) s) ∧
  (∀ f : VX, f.fn.extractLsb' 1 2 ≠ 3#2 → LaneForm.of (.wscan f) (formPlain f.d false (vname f.a)
    (fun s i => ((loWord (s.cur.reduce f (s.scanned f i) i).1).setWidth 64, (s.cur.reduce f (s.scanned f i) i).2))
    (fun s => maskOf (fun i => (s.scanned f i &&& s.cur.vsrcPois f.a) != 0))) s) ∧
  (∀ f : VX, f.fn.extractLsb' 1 2 = 3#2 → LaneForm.of (.wscan f) (formPlain f.d true (vnames f.a 2)
    (fun s i => s.cur.reduce f (s.scanned f i) i)
    (fun s => maskOf (fun i => (s.scanned f i &&& s.cur.vpairPois f.a) != 0))) s) ∧
  (∀ f : VX, LaneForm.of (.wargx f) (formPlain f.d true (vname f.a ++ vname f.b)
    (fun s _ => (s.argResult f, 0))
    (fun s => if (s.cur.vsrcPois f.a ||| s.cur.vsrcPois f.b) &&& s.sel.mask = 0 then 0 else BitVec.allOnes 32)) s) ∧
  (∀ f : V3, LaneForm.of (.matchEq f) { formWide f (fun _ _ => 0) with
    reads := vname f.a
    marks := markNames f.ka false (vname f.a) []
    res := fun s i =>
      let e := s.cur.guardLanes s.sel.mask f.g f.gn
      let cls := e &&& maskOf (fun j => decide (s.cur.vsrc f.a f.lit j = s.cur.vsrc f.a f.lit i))
      (pairOf cls (BitVec.ofNat 32 (maskCount (cls &&& lanesBelow i) * 2048 + maskCount cls * 32 + ((lowestLane cls).map Fin.val).getD 0)), 0)
    pois := fun s => if s.cur.vsrcPois f.a &&& s.cur.guardLanes s.sel.mask f.g f.gn = 0 then 0 else BitVec.allOnes 32 } s)

/-- R102, R103, R104, R111, R133: the lane instructions that write predicates. -/
def Obligations.LanePredicateResults : Prop := ∀ s : State,
  (∀ f : VC, PredForm.of (.icmp f) (cmpForm f (fun _ a b => (intCompare f.cc a b, 0))) s) ∧
  (∀ f : VC, PredForm.of (.icmp64 f) (cmpPairForm f (fun a b => (intCompare f.cc a b, 0))) s) ∧
  (∀ f : VC, PredForm.of (.fcmp f) (cmpForm f (fun s a b => Fp.fcompare Fp.f32 s.cur.ftz f.cc.toNat a.toNat b.toNat)) s) ∧
  (∀ f : VC, PredForm.of (.dcmp f) (cmpPairForm f (fun a b => Fp.fcompare Fp.f64 false f.cc.toNat a.toNat b.toNat)) s) ∧
  (∀ f : VP, PredForm.of (.plog f) ⟨[], [], f.g, f.gn, f.pd,
    fun s i => (f.tt.getLsbD (4 * (s.cur.lanes[i].p f.pa).toNat + 2 * (s.cur.lanes[i].p f.pb).toNat + (s.cur.lanes[i].p f.pc).toNat), 0),
    fun s => s.cur.laneMask (fun l => l.pp f.pa || l.pp f.pb || l.pp f.pc)⟩ s) ∧
  (∀ f : VC, PredForm.of (.elect f) ⟨[], [], f.g, f.gn, f.pd,
    fun s i => (decide ((if f.cc = 0 then lowestLane (s.cur.guardLanes s.sel.mask f.g f.gn)
      else (maskLanes (s.cur.guardLanes s.sel.mask f.g f.gn)).getLast?) = some i), 0),
    fun _ => 0⟩ s) ∧
  (∀ f : VX, f.fn ≠ 0 → s.unarmed → s.canRead (vname f.a) →
    exec (.pmov f) s = .next (s.setWave s.sel.key { s.cur with
      lanes := Vector.ofFn (fun i => if s.sel.mask.getLsbD i.val then
        { s.cur.lanes[i] with
          preds := (s.cur.vsrc f.a f.lit i).setWidth 7
          predPois := if (s.cur.vsrcPois f.a).getLsbD i.val then BitVec.allOnes 7 else 0
          pc := s.sel.next }
        else s.cur.lanes[i]) }))

/-! ### Lane control -/

/-- R90, R137: NOP and UNOP change nothing but the PC of the issuing path; the words that R90 gives for NOP, and those it forbids. -/
def Obligations.NopsOnlyAdvance : Prop :=
  (∀ s : State,
    (∀ f : V3, s.cur.guardPois s.sel.mask f.g = 0 → s.unarmed → exec (.nop f) s = .next (s.setWave s.sel.key s.moved)) ∧
    (∀ f : U3, s.cur.qp f.qg = false → exec (.unop f) s = .next (s.setWave s.sel.key s.moved))) ∧
  (∀ l : Word, decodeWords 0x00000000 l = .ok (.nop ⟨0, 0, 0, false, false, 0, false, 0⟩)) ∧
  (∀ l : Word, decodeWords 0x0000000E l = .ok (.nop ⟨0, 0, 0, false, false, 7, false, 0⟩)) ∧
  (∀ w l : Word, w.extractLsb' 24 8 = 0 → w.extractLsb' 4 20 ≠ 0 → decodeWords w l = .error .illegalOperand)

/-- R120, R121: the lane transfers. A clean, aligned target in every executing lane is where that lane goes; CALL and CALLX link v61. -/
def Obligations.LaneTransfers : Prop := ∀ s : State, s.unarmed → s.room 1 →
  (∀ f : VB, s.cur.guardPois s.sel.mask f.p = 0 →
    s.jumps (.bra f) (s.cur.guardLanes s.sel.mask f.p f.pn) (fun _ => s.sel.next + (f.off.signExtend 32 <<< 2)) false []) ∧
  (∀ f : VB, s.cur.guardPois s.sel.mask f.p = 0 →
    s.jumps (.call f) (s.cur.guardLanes s.sel.mask f.p f.pn) (fun _ => s.sel.next + (f.off.signExtend 32 <<< 2)) true []) ∧
  (∀ f : V3, s.cur.guardPois s.sel.mask f.g = 0 →
    s.canRead (vname f.a) →
    s.cur.vsrcPois f.a &&& s.cur.guardLanes s.sel.mask f.g f.gn = 0 →
    (∀ i : Fin 32, (s.cur.guardLanes s.sel.mask f.g f.gn).getLsbD i.val → (s.cur.vsrc f.a f.lit i).extractLsb' 0 2 = 0#2) →
    s.jumps (.brx f) (s.cur.guardLanes s.sel.mask f.g f.gn) (s.cur.vsrc f.a f.lit) false (markNames f.ka false (vname f.a) []) ∧
    s.jumps (.ret f) (s.cur.guardLanes s.sel.mask f.g f.gn) (s.cur.vsrc f.a f.lit) false (markNames f.ka false (vname f.a) []) ∧
    s.jumps (.callx f) (s.cur.guardLanes s.sel.mask f.g f.gn) (s.cur.vsrc f.a f.lit) true (markNames f.ka false (vname f.a) []))

/-- R122: an indirect lane target that is not a multiple of 4 raises MISALIGN for the lanes that have one, with the target of the lowest of
them as its address, before any lane moves. -/
def Obligations.MisalignedTargetTraps : Prop := ∀ (s : State) (f : V3) (i : Fin 32), s.unarmed → s.room 1 →
  s.cur.guardPois s.sel.mask f.g = 0 → s.canRead (vname f.a) →
  s.cur.vsrcPois f.a &&& s.cur.guardLanes s.sel.mask f.g f.gn = 0 →
  (s.cur.guardLanes s.sel.mask f.g f.gn).getLsbD i.val → (s.cur.vsrc f.a f.lit i).extractLsb' 0 2 ≠ 0#2 →
  (∀ j : Fin 32, j < i → (s.cur.guardLanes s.sel.mask f.g f.gn).getLsbD j.val → (s.cur.vsrc f.a f.lit j).extractLsb' 0 2 = 0#2) →
  let bad := s.cur.guardLanes s.sel.mask f.g f.gn &&& maskOf (fun j => (s.cur.vsrc f.a f.lit j).extractLsb' 0 2 != 0#2)
  let addr := (s.cur.vsrc f.a f.lit i).setWidth 64
  s.traps (.brx f) s.cur 0x06 s.sel.pc bad addr s.sel.word ∧ s.traps (.callx f) s.cur 0x06 s.sel.pc bad addr s.sel.word ∧
    s.traps (.ret f) s.cur 0x06 s.sel.pc bad addr s.sel.word

/-- R14, R27, R123: EXIT ends the guard-true threads of the path and gives up their claims, while other threads live; where they are the
last live ones they wait in place for the wave's counters. -/
def Obligations.ExitEndsThreads : Prop := ∀ (s : State) (f : V3), s.unarmed → s.cur.guardPois s.sel.mask f.g = 0 →
  let e := s.cur.guardLanes s.sel.mask f.g f.gn
  ((e = 0 ∨ s.cur.live &&& ~~~e ≠ 0) → exec (.exit f) s = .next (s.setWave s.sel.key { s.cur with
    lanes := Vector.ofFn (fun i =>
      if e.getLsbD i.val then { s.cur.lanes[i] with status := .exited, block := .none, stopped := false, pc := s.sel.pc }
      else if s.sel.mask.getLsbD i.val then { s.cur.lanes[i] with pc := s.sel.next } else s.cur.lanes[i])
    rows := (s.cur.rows.map (fun p => (p.1, { p.2 with readers := p.2.readers &&& ~~~e }))).filter (fun p => p.2.readers ≠ 0)
    exitPc := s.sel.pc })) ∧
  (e ≠ 0 → s.cur.live &&& ~~~e = 0 → exec (.exit f) s = .next (s.setWave s.sel.key { s.cur with
    lanes := Vector.ofFn (fun i => if e.getLsbD i.val then { s.cur.lanes[i] with block := .waiting } else s.cur.lanes[i])
    waits := s.cur.waits ++ [⟨e, s.sel.pc, s.sel.next, s.clock, 0, .exit⟩]
    exitPc := s.sel.pc }))

/-- R124, R125, R151, R154: TRAP, BKPT without a debugger and TRAPU outside handler level count as executed and enter the handler. -/
def Obligations.SoftwareTraps : Prop := ∀ s : State,
  (∀ f : VI, s.traps (.trap f) s.moved 0x04 s.sel.next s.sel.mask 0 (f.imm.setWidth 32)) ∧
  (∀ f : UI, s.traps (.trapu f) s.moved 0x04 s.sel.next s.sel.mask 0 (0x1000 + f.imm.setWidth 32)) ∧
  (∀ f : V3, s.unarmed → s.cur.guardPois s.sel.mask f.g = 0 → (s.context s.cur.ctx).debugger = false →
    s.cur.guardLanes s.sel.mask f.g f.gn ≠ 0 →
    s.traps (.bkpt f) s.moved 0x05 s.sel.next (s.cur.guardLanes s.sel.mask f.g f.gn) 0 0)

/-- R79, R80, R151: a word that no entry accepts traps precisely at its own PC with the word in TINFO and no other effect. -/
def Obligations.IllegalWordsTrap : Prop := ∀ (s : State) (op : Bool) (word : Word),
  s.traps (.illegalEncoding op word) s.cur (if op then 0x01 else 0x02) s.sel.pc s.sel.mask 0 word

/-- R153: RTT at handler level resumes every live thread of TMASK at TPC, out of the waits it stood in and of suppressed matches, and gives
every stopped thread back its block state; outside handler level it raises PRIV; its unused fields must be 0 and its guard 7. -/
def Obligations.RttReturns : Prop :=
  (∀ (s : State) (f : U3), s.cur.handler = true →
    exec (.rtt f) s = .next (s.setWave s.sel.key { s.cur with
      lanes := Vector.ofFn (fun i =>
        if s.cur.lanes[i].status = .live ∧ s.cur.tmask.getLsbD i.val then
          { s.cur.lanes[i] with pc := s.cur.tpc, block := .none, yieldSpan := .none, stopped := false }
        else { s.cur.lanes[i] with stopped := false })
      handler := false
      matchSkip := s.cur.matchSkip &&& ~~~(maskOf (fun i => decide (s.cur.lanes[i].status = .live)) &&& s.cur.tmask)
      waits := s.cur.waits.filterMap (fun x =>
        let left := x.lanes &&& ~~~(maskOf (fun i => decide (s.cur.lanes[i].status = .live)) &&& s.cur.tmask)
        if left = 0 then none else some { x with lanes := left }) })) ∧
  (∀ (s : State) (f : U3), s.cur.handler = false → s.traps (.rtt f) s.cur 0x03 s.sel.pc s.sel.mask 0 s.sel.word) ∧
  (∀ w l : Word, w.extractLsb' 24 8 = 0xC9 → (w.extractLsb' 6 18 ≠ 0 ∨ w.extractLsb' 3 3 ≠ 7) → decodeWords w l = .error .illegalOperand)

/-- R152, R427, R450: a trap raised at handler level is not taken: its context ends, with a record of both causes in the log. -/
def Obligations.NestedTrapEndsContext : Prop := ∀ (s : State) (op : Bool) (word : Word), s.cur.handler = true →
  (∀ p ∈ s.passes, p.ctx ≠ s.cur.ctx) →
  ∃ t, exec (.illegalEncoding op word) s = .next t ∧
    (∀ p ∈ t.waves, p.2.ctx ≠ s.cur.ctx) ∧ (∀ p ∈ t.teams, p.2.ctx ≠ s.cur.ctx) ∧ (∀ p ∈ t.tasks, p.2.ctx ≠ s.cur.ctx) ∧
    (∀ p ∈ t.contexts, p.1 = s.cur.ctx → p.2.ended = true) ∧
    ∃ r ∈ t.log, r.kind = 0x0001 ∧
      r.body = [s.cur.tcause, s.cur.tpc, s.cur.taddrLo, s.cur.taddrHi, s.cur.tmask, s.cur.tinfo, s.cur.tvec, s.cur.tpaths,
        0x01000000 + (if op then 0x01 else 0x02)]

/-! ### Uniform instructions -/

/-- R137 to R140, R143: what each uniform instruction that writes a register computes, with its frame. -/
def Obligations.UniformResults : Prop := ∀ s : State,
  (∀ f : U3, UniForm.of (.umov f) (uniOne f.qg f.qn f.d (fun s => (s.cur.sreg f.a f.lit, s.cur.sregPois f.a))) s) ∧
  (∀ f : UW, UniForm.of (.umovi f) (uniOne 7 false f.d (fun _ => (f.imm.signExtend 32, false))) s) ∧
  (∀ f : U3, UniForm.of (.uadd f) (uni3 f (fun a b => a + b)) s) ∧
  (∀ f : U3, UniForm.of (.usub f) (uni3 f (fun a b => a - b)) s) ∧
  (∀ f : UI, UniForm.of (.uaddi f) (uniImm f (fun a => a + f.imm.signExtend 32)) s) ∧
  (∀ f : U3, UniForm.of (.umul f) (uni3 f (fun a b => a * b)) s) ∧
  (∀ f : U3, UniForm.of (.umulhu f) (uni3 f (fun a b => BitVec.ofNat 32 (a.toNat * b.toNat / 2 ^ 32))) s) ∧
  (∀ f : U3, UniForm.of (.uadd64 f) (uniPair f (fun a b => a + b)) s) ∧
  (∀ f : U3, UniForm.of (.usub64 f) (uniPair f (fun a b => a - b)) s) ∧
  (∀ f : U3, UniForm.of (.uminUniform f) (uni3 f (fun a b => if b.slt a then b else a)) s) ∧
  (∀ f : U3, UniForm.of (.umaxUniform f) (uni3 f (fun a b => if a.sle b then b else a)) s) ∧
  (∀ f : U3, UniForm.of (.uminu f) (uni3 f (fun a b => if b.ult a then b else a)) s) ∧
  (∀ f : U3, UniForm.of (.umaxu f) (uni3 f (fun a b => if a.ule b then b else a)) s) ∧
  (∀ f : U3, UniForm.of (.uand f) (uni3 f (fun a b => a &&& b)) s) ∧
  (∀ f : U3, UniForm.of (.uor f) (uni3 f (fun a b => a ||| b)) s) ∧
  (∀ f : U3, UniForm.of (.uxor f) (uni3 f (fun a b => a ^^^ b)) s) ∧
  (∀ f : UI, UniForm.of (.uandi f) (uniImm f (fun a => a &&& f.imm.setWidth 32)) s) ∧
  (∀ f : UI, UniForm.of (.uori f) (uniImm f (fun a => a ||| f.imm.setWidth 32)) s) ∧
  (∀ f : U3, UniForm.of (.ushl f) (uni3 f (fun a b => a <<< shiftAmount b)) s) ∧
  (∀ f : U3, UniForm.of (.ushr f) (uni3 f (fun a b => a >>> shiftAmount b)) s) ∧
  (∀ f : U3, UniForm.of (.usar f) (uni3 f (fun a b => a.sshiftRight (shiftAmount b))) s) ∧
  (∀ f : UI, UniForm.of (.ushli f) (uniImm f (fun a => a <<< (f.imm.toNat % 32))) s) ∧
  (∀ f : UI, UniForm.of (.ushri f) (uniImm f (fun a => a >>> (f.imm.toNat % 32))) s) ∧
  (∀ f : UI, UniForm.of (.ubfe f) (uniImm f (fun a =>
    bitsFrom a (f.imm.extractLsb' 0 5).toNat (min (f.imm.extractLsb' 5 6).toNat 32) (f.imm.getLsbD 11))) s) ∧
  (∀ f : UI, UniForm.of (.ubit f) (uniImm f (Sys2Proof.Machine.Int32.bitOp (f.imm.extractLsb' 0 3).toNat)) s) ∧
  (∀ f : U3, s.cur.qp f.qg = false → UniForm.of (.usel f) (uniOne 7 false f.d (fun s =>
    if s.cur.q f.qg = f.qn then (s.cur.sreg f.b f.lit, s.cur.sregPois f.b) else (s.cur.sreg f.a f.lit, s.cur.sregPois f.a))) s) ∧
  (∀ f : U3, UniForm.of (.ufadd f) (uniFloat f.qg f.qn f.d (fun s => Fp.add Fp.f32 s.cur.ftz (s.cur.sreg f.a f.lit).toNat (s.cur.sreg f.b f.lit).toNat)
    (fun s => s.cur.sregPois f.a || s.cur.sregPois f.b)) s) ∧
  (∀ f : U3, UniForm.of (.ufmul f) (uniFloat f.qg f.qn f.d (fun s => Fp.mul Fp.f32 s.cur.ftz (s.cur.sreg f.a f.lit).toNat (s.cur.sreg f.b f.lit).toNat)
    (fun s => s.cur.sregPois f.a || s.cur.sregPois f.b)) s) ∧
  (∀ f : UI, UniForm.of (.ucvt f) (uniFloat 7 false f.d (fun s =>
    let x := (s.cur.sreg f.a 0).setWidth 64
    let r := match (f.imm.extractLsb' 0 2).toNat with
      | 0 => Fp.cvt 1 4 0 s.cur.ftz x
      | 1 => Fp.cvt 1 5 0 s.cur.ftz x
      | 2 => Fp.cvt 4 1 0 s.cur.ftz x
      | _ => Fp.cvt 5 1 0 s.cur.ftz x
    (r.1.toNat, r.2)) (fun s => s.cur.sregPois f.a)) s) ∧
  (∀ f : U3, UniForm.of (.actm f) (uniOne f.qg f.qn f.d (fun s => (s.sel.mask, false))) s) ∧
  (∀ f : UCC, UniForm.of (.ucmp f) (uniQ f.qg f.qn f.qd (fun s =>
    (intCompare f.cc (s.cur.sreg f.a f.lit) (s.cur.sreg f.b f.lit), s.cur.sregPois f.a || s.cur.sregPois f.b))) s) ∧
  (∀ f : VP, UniForm.of (.qlog f) (uniQ f.g f.gn f.pd (fun s =>
    (f.tt.getLsbD (4 * (s.cur.q f.pa).toNat + 2 * (s.cur.q f.pb).toNat + (s.cur.q f.pc).toNat),
      s.cur.qp f.pa || s.cur.qp f.pb || s.cur.qp f.pc))) s)

/-- R141, R142: the uniform transfers: every thread of the path goes to the one target; UCALL links s61; ULOOP counts s[A] down. -/
def Obligations.UniformTransfers : Prop := ∀ s : State,
  (∀ f : VB, UniForm.of (.ubra f) (uniJump f.p f.pn (fun s => s.sel.next + (f.off.signExtend 32 <<< 2))) s) ∧
  (∀ f : VB, UniForm.of (.ucall f) { uniOne f.p f.pn 61 (fun s => (s.sel.next, false)) with
    pc := fun s => s.sel.next + (f.off.signExtend 32 <<< 2) } s) ∧
  (∀ f : U3, s.cur.sregPois f.a = false → (s.cur.sreg f.a f.lit).extractLsb' 0 2 = 0#2 →
    UniForm.of (.ubrx f) (uniJump f.qg f.qn (fun s => s.cur.sreg f.a f.lit)) s ∧
    UniForm.of (.uret f) (uniJump f.qg f.qn (fun s => s.cur.sreg f.a f.lit)) s) ∧
  (∀ f : UL, s.cur.sregPois f.a = false → UniForm.of (.uloop f) { uniOne 7 false f.a (fun s => (s.cur.sreg f.a 0 - 1, false)) with
    pc := fun s => if s.cur.sreg f.a 0 - 1 = 0 then s.sel.next else s.sel.next + (f.off.signExtend 32 <<< 2) } s)

/-- R143: RDLANE reads a live lane's copy, poison with it, and zero from a lane that holds no live thread. -/
def Obligations.RdlaneReads : Prop := ∀ (s : State) (f : UI), s.unarmed → s.cur.fpc.getLsbD 4 = false →
  let i : Fin 32 := Fin.ofNat 32 f.imm.toNat
  UniForm.of (.rdlane f) (uniOne 7 false f.d (fun s =>
    if s.cur.lanes[i].status = .live then (s.cur.vsrc f.a 0 i, (s.cur.vsrcPois f.a).getLsbD i.val) else (0, false))) s

/-- R70: a false guard skips a guarded uniform instruction: only the PC of the path changes. R176: a poisoned guard traps. -/
def Obligations.UniformGuards : Prop := ∀ (s : State) (i : Instr) (qg : BitVec 3) (qn : Bool),
  ((∃ f : U3, f.qg = qg ∧ f.qn = qn ∧ (i = .unop f ∨ i = .umov f ∨ i = .uadd f ∨ i = .usub f ∨ i = .umul f ∨ i = .umulhu f ∨ i = .uadd64 f ∨
      i = .usub64 f ∨ i = .uminUniform f ∨ i = .umaxUniform f ∨ i = .uminu f ∨ i = .umaxu f ∨ i = .uand f ∨ i = .uor f ∨ i = .uxor f ∨ i = .ushl f ∨
      i = .ushr f ∨ i = .usar f ∨ i = .ufadd f ∨ i = .ufmul f ∨ i = .ubrx f ∨ i = .uret f ∨ i = .actm f ∨ i = .free f ∨ i = .yield f ∨
      i = .barinit f ∨ i = .bararv f ∨ i = .barwt f ∨ i = .barsync f ∨ i = .gbset f ∨ i = .gbarv f ∨ i = .gbwt f ∨ i = .ttrig f)) ∨
    (∃ f : UCC, f.qg = qg ∧ f.qn = qn ∧ (i = .ucmp f ∨ i = .ttake f)) ∨ (∃ f : VP, f.g = qg ∧ f.gn = qn ∧ i = .qlog f) ∨
    (∃ f : VB, f.p = qg ∧ f.pn = qn ∧ (i = .ubra f ∨ i = .ucall f))) →
  (s.cur.qp qg = false → s.cur.q qg = qn → exec i s = .next (s.setWave s.sel.key s.moved)) ∧
  (s.cur.qp qg = true → s.traps i s.cur 0x0D s.sel.pc s.sel.mask 0 s.sel.word)

/-! ### Special registers, register release, yield and safe points -/

/-- R144, R145, R151: what SREAD answers, register by register, at the level that may read it. -/
def Obligations.SpecialRegisterReads : Prop := ∀ (s : State) (f : UI),
  let reads := fun (index : Nat) (v : Word) => f.imm.toNat = index → UniForm.of (.sread f) (uniOne 7 false f.d (fun _ => (v, false))) s
  reads 0x000 s.cur.fpc ∧ reads 0x002 (s.cur.index.setWidth 32) ∧ reads 0x003 (BitVec.ofNat 32 s.curTeam.liveWaves) ∧
  reads 0x004 s.curTeam.teamId ∧ reads 0x005 (BitVec.ofNat 32 (s.sel.key.core % 4)) ∧
  reads 0x006 (BitVec.ofNat 32 (s.sel.key.core / 4 % 32 * 256 + s.sel.key.core / 128)) ∧ reads 0x007 (BitVec.ofNat 32 s.cur.ctx) ∧
  reads 0x009 s.cur.clockHi ∧ reads 0x00B s.cur.ptimeHi ∧ reads 0x060 s.curTeam.rgnstat ∧ reads 0x061 s.curTeam.rgnatt ∧
  reads 0x080 0x00000100 ∧ reads 0x081 (if (s.context s.cur.ctx).debugger then 0x0000001F else 0x0000000F) ∧
  reads 0x082 0x00001008 ∧ reads 0x083 0 ∧ reads 0x090 (s.context s.cur.ctx).bwdt ∧ reads 0x091 (s.context s.cur.ctx).rwdt ∧
  reads 0x092 (s.context s.cur.ctx).pxwdt ∧
  (s.cur.handler = true → reads 0x040 s.cur.tcause ∧ reads 0x041 s.cur.tpc ∧ reads 0x042 s.cur.taddrLo ∧ reads 0x043 s.cur.taddrHi ∧
    reads 0x044 s.cur.tmask ∧ reads 0x045 s.cur.tinfo ∧ reads 0x046 s.cur.tvec ∧ reads 0x047 s.cur.tpaths) ∧
  ((s.context s.cur.ctx).debugger = true → reads 0x070 s.cur.errinj)

/-- R146: reading CLOCKLO or PTIMELO returns the low half and latches the high half of the same reading in the wave, by SREAD and as the
event itself. -/
def Obligations.ClockReadsLatch : Prop := ∀ (s : State) (f : UI),
  (f.imm.toNat = 0x008 → ∃ w', exec (.sread f) s = .next (s.setWave s.sel.key w') ∧
    w'.clockHi = s.clock64.extractLsb' 32 32 ∧ w'.ptimeHi = s.cur.ptimeHi ∧
    (∀ n : Fin 62, w'.sregs[n] = if n.val = f.d.toNat then s.clock64.extractLsb' 0 32 else s.cur.sregs[n]) ∧
    w' = { s.cur with lanes := s.pathAt s.sel.next, clockHi := w'.clockHi, sregs := w'.sregs, sPois := w'.sPois }) ∧
  (f.imm.toNat = 0x00A → ∃ w', exec (.sread f) s = .next (s.setWave s.sel.key w') ∧
    w'.ptimeHi = s.ptime.extractLsb' 32 32 ∧ w'.clockHi = s.cur.clockHi ∧
    (∀ n : Fin 62, w'.sregs[n] = if n.val = f.d.toNat then s.ptime.extractLsb' 0 32 else s.cur.sregs[n]) ∧
    w' = { s.cur with lanes := s.pathAt s.sel.next, ptimeHi := w'.ptimeHi, sregs := w'.sregs, sPois := w'.sPois }) ∧
  (∀ (k : WaveKey) (time : Bool) (d : BitVec 6), s.hasWave k = true → ∃ w', exec (.clockReadLatch k time d) s = .next (s.setWave k w') ∧
    w'.clockHi = (if time then (s.wave k).clockHi else s.clock64.extractLsb' 32 32) ∧
    w'.ptimeHi = (if time then s.ptime.extractLsb' 32 32 else (s.wave k).ptimeHi) ∧
    (∀ n : Fin 62, w'.sregs[n] = if n.val = d.toNat then (if time then s.ptime else s.clock64).extractLsb' 0 32 else (s.wave k).sregs[n]) ∧
    w' = { s.wave k with clockHi := w'.clockHi, ptimeHi := w'.ptimeHi, sregs := w'.sregs, sPois := w'.sPois })

/-- R35, R144, R145, R151: what SWRITE writes with a clean source, at the level that may write it: FPC keeps only its defined bits. -/
def Obligations.SpecialRegisterWrites : Prop := ∀ (s : State) (f : UI), s.cur.sregPois f.a = false →
  let v := s.cur.sreg f.a 0
  (f.imm.toNat = 0x000 → v.extractLsb' 0 3 ≤ 4#3 →
    exec (.swrite f) s = .next (s.setWave s.sel.key { s.moved with fpc := v &&& 0x00001F1F })) ∧
  (f.imm.toNat = 0x041 → s.cur.handler = true → v.extractLsb' 0 2 = 0#2 →
    exec (.swrite f) s = .next (s.setWave s.sel.key { s.moved with tpc := v })) ∧
  (f.imm.toNat = 0x046 → s.cur.handler = true → exec (.swrite f) s = .next (s.setWave s.sel.key { s.moved with tvec := v })) ∧
  (f.imm.toNat = 0x090 → exec (.swrite f) s =
    .next ((s.setWave s.sel.key s.moved).setContext s.cur.ctx { s.context s.cur.ctx with bwdt := v })) ∧
  (f.imm.toNat = 0x091 → exec (.swrite f) s =
    .next ((s.setWave s.sel.key s.moved).setContext s.cur.ctx { s.context s.cur.ctx with rwdt := v })) ∧
  (f.imm.toNat = 0x092 → exec (.swrite f) s =
    .next ((s.setWave s.sel.key s.moved).setContext s.cur.ctx { s.context s.cur.ctx with pxwdt := v }))

/-- R144: the fates of SREAD and SWRITE: PRIV for the trap registers outside handler level and for ERRINJ outside a debug session,
ILLEGAL_OPERAND for an index that R145 does not list and for a write to a read-only register, POISON for a poisoned source. -/
def Obligations.SpecialRegisterFates : Prop := ∀ (s : State) (f : UI),
  let index := f.imm.toNat
  (0x040 ≤ index → index ≤ 0x047 → s.cur.handler = false →
    s.traps (.sread f) s.cur 0x03 s.sel.pc s.sel.mask 0 s.sel.word ∧
    ((index = 0x041 ∨ index = 0x046) → s.traps (.swrite f) s.cur 0x03 s.sel.pc s.sel.mask 0 s.sel.word)) ∧
  (index = 0x070 → (s.context s.cur.ctx).debugger = false →
    s.traps (.sread f) s.cur 0x03 s.sel.pc s.sel.mask 0 s.sel.word ∧ s.traps (.swrite f) s.cur 0x03 s.sel.pc s.sel.mask 0 s.sel.word) ∧
  ((index = 0x001 ∨ (0x00C ≤ index ∧ index ≤ 0x00F) ∨ (0x014 ≤ index ∧ index ≤ 0x03F) ∨ (0x048 ≤ index ∧ index ≤ 0x05F) ∨
      (0x062 ≤ index ∧ index ≤ 0x06F) ∨ (0x071 ≤ index ∧ index ≤ 0x07F) ∨ (0x084 ≤ index ∧ index ≤ 0x08F) ∨ 0x093 ≤ index) →
    s.traps (.sread f) s.cur 0x02 s.sel.pc s.sel.mask 0 s.sel.word ∧ s.traps (.swrite f) s.cur 0x02 s.sel.pc s.sel.mask 0 s.sel.word) ∧
  (((0x002 ≤ index ∧ index ≤ 0x00B) ∨ (0x010 ≤ index ∧ index ≤ 0x013) ∨ index = 0x060 ∨ index = 0x061 ∨ (0x080 ≤ index ∧ index ≤ 0x083)) →
    s.traps (.swrite f) s.cur 0x02 s.sel.pc s.sel.mask 0 s.sel.word) ∧
  ((index = 0x000 ∨ (0x090 ≤ index ∧ index ≤ 0x092)) → s.cur.sregPois f.a = true →
    s.traps (.swrite f) s.cur 0x0D s.sel.pc s.sel.mask 0 s.sel.word)

/-- R147: arming ERRINJ in a wave of a debugged context keeps ARM, UNIT, LANE and NTH, reads its reserved bits as zero, and restarts the
count; SWRITE does it and so does the event. The injection takes a new identity, the model's own (log 29). -/
def Obligations.ErrinjArms : Prop := ∀ (s : State) (v : Word),
  (v.extractLsb' 28 3).toNat ≤ 4 → (v.getLsbD 31 = true → v.extractLsb' 12 11 ≠ 0#11) →
  (∀ k : WaveKey, s.hasWave k = true → (s.context (s.wave k).ctx).debugger = true →
    exec (.errinjWrite k v) s = .next ({ s with nextId := s.nextId + 1 }.setWave k
      { s.wave k with errinj := v &&& 0xFFFFF000, errCount := 0, injId := s.nextId + 1 })) ∧
  (∀ f : UI, f.imm.toNat = 0x070 → (s.context s.cur.ctx).debugger = true → s.cur.sregPois f.a = false → s.cur.sreg f.a 0 = v →
    exec (.swrite f) s = .next ({ s with nextId := s.nextId + 1 }.setWave s.sel.key
      { s.moved with errinj := v &&& 0xFFFFF000, errCount := 0, injId := s.nextId + 1 }))

/-- R148 (R166 for the rows): FREE clears the path's claims on the named registers, in s[A] v0 to v31 and in s[B] v32 to v61, and frees a row
whose last claim goes; a false guard makes it have no effect; its D must be 0. -/
def Obligations.FreeClearsClaims : Prop :=
  (∀ (s : State) (f : U3), s.cur.qp f.qg = false → s.cur.q f.qg ≠ f.qn →
    ∃ rows, exec (.free f) s = .next (s.setWave s.sel.key { s.moved with rows := rows }) ∧
      ∀ n, assocGet rows n =
        if (n < 32 ∧ (s.cur.sreg f.a f.lit).getLsbD n) ∨ (32 ≤ n ∧ n < 62 ∧ (s.cur.sreg f.b f.lit).getLsbD (n - 32))
        then unclaimed s.sel.mask (s.cur.row n) else s.cur.row n) ∧
  (∀ (s : State) (f : U3), s.cur.qp f.qg = false → s.cur.q f.qg = f.qn → exec (.free f) s = .next (s.setWave s.sel.key s.moved)) ∧
  (∀ w l : Word, w.extractLsb' 24 8 = 0xC0 → w.extractLsb' 18 6 ≠ 0 → decodeWords w l = .error .illegalOperand)

/-- R149: YIELD makes the path not ready for min(A, 4095) clocks, or for A = 0 until one opportunity has passed; when the clocks have
passed the threads are ready again. -/
def Obligations.YieldSpans : Prop := ∀ s : State,
  (∀ f : U3, s.cur.qp f.qg = false → s.cur.q f.qg ≠ f.qn →
    let a := (s.cur.sreg f.a f.lit).toNat
    exec (.yield f) s = .next (s.setWave s.sel.key { s.cur with
      lanes := Vector.ofFn (fun i => if s.sel.mask.getLsbD i.val then
        { s.cur.lanes[i] with pc := s.sel.next, yieldSpan := if a = 0 then .opportunity else .until (s.clock + min a 4095) }
        else s.cur.lanes[i]) })) ∧
  (∀ (k : WaveKey) (m : LaneMask), s.hasWave k = true →
    exec (.yieldExpiry k m) s = .next (s.setWave k { s.wave k with
      lanes := Vector.ofFn (fun i => match (s.wave k).lanes[i].yieldSpan with
        | .until c => if m.getLsbD i.val ∧ c ≤ s.clock then { (s.wave k).lanes[i] with yieldSpan := .none } else (s.wave k).lanes[i]
        | _ => (s.wave k).lanes[i]) }))

/-- R150: SAFEPT only advances its path while no pre-emption is asked of its team; with one pending the wave stops after it, its live rows
those of the mask in s[A], s[A+1]. -/
def Obligations.SafepointStops : Prop := ∀ (s : State) (f : UC),
  (s.curTeam.preempt = none → exec (.safept f) s = .next (s.setWave s.sel.key s.moved)) ∧
  (s.curTeam.preempt ≠ none → s.cur.holdsSection = false → s.cur.handler = false →
    exec (.safept f) s = .next (s.setWave s.sel.key { s.moved with stop := .atSafepoint (s.cur.spair f.a) }))

/-- R30: where threads stand at a PC that the debugger matches, the wave stops before the instruction there, all the waves of its team
with it under team-stop; nothing else moves. -/
def Obligations.AddressMatchStops : Prop := ∀ (s : State) (k : WaveKey) (pc : Word) (i : Fin 32), s.hasWave k = true →
  (s.context (s.wave k).ctx).debugger = true → pc ∈ (s.context (s.wave k).ctx).matches_ → (s.wave k).dbgStopped = false →
  (s.wave k).lanes[i].status = .live → (s.wave k).lanes[i].block ≠ .waiting → (s.wave k).lanes[i].stopped = false →
  (s.wave k).lanes[i].pc = pc → (s.wave k).matchSkip.getLsbD i.val = false →
  ∃ t, exec (.addressMatchStop k pc) s = .next t ∧ (t.wave k).dbgStopped = true ∧ (t.wave k).lanes = (s.wave k).lanes ∧
    (t.wave k).rows = (s.wave k).rows ∧ (t.wave k).sregs = (s.wave k).sregs ∧ t.mem = s.mem ∧ t.teams = s.teams ∧
    (∀ j w, assocGet s.waves j = some w → j ≠ k → ((s.team (s.wave k).team).teamStop = false ∨ w.team ≠ (s.wave k).team) →
      assocGet t.waves j = some w) ∧
    (∀ j w, assocGet s.waves j = some w → (s.team (s.wave k).team).teamStop = true → w.team = (s.wave k).team →
      (t.wave j).dbgStopped = true)

/-! ### Global memory -/

/-- R180, R183 to R185, R187, R296: a load whose access meets no trap is counted in LD, maps its registers and asks for the bytes that it does not
find; LDAQ and RECLD likewise. R240: one that meets a held byte which an uncorrectable error has struck ends the attempt of its region. -/
def Obligations.LoadsIssue : Prop := ∀ s : State,
  (∀ f : VM, s.begins (vname f.a) 4 →
    let plain := fun (i : Instr) (width n : Nat) (signed : Bool) => s.Accessible f.a f.br f.imm.toNat width .read →
      s.struckHeld s.cur.team ((s.accessLanes f.a f.br f.imm.toNat width).flatMap Prod.snd) = none →
      s.loads i (s.accessLanes f.a f.br f.imm.toNat width) (vnames f.d n) (f.ch = 2#2) (.load f.d.toNat width signed f.ch none none)
    plain (.ldb f) 1 1 true ∧ plain (.ldbu f) 1 1 false ∧ plain (.ldh f) 2 1 true ∧ plain (.ldhu f) 2 1 false ∧ plain (.ldw f) 4 1 false ∧
      plain (.ldd f) 8 2 false ∧ plain (.ldq f) 16 4 false) ∧
  (∀ f : VMA, s.begins (vname f.a) 2 →
    let n := if f.sz then 2 else 1
    s.Accessible f.a f.br f.imm.toNat (4 * n) .read →
    s.struckHeld s.cur.team ((s.accessLanes f.a f.br f.imm.toNat (4 * n)).flatMap Prod.snd) = none →
    s.loads (.ldaq f) (s.accessLanes f.a f.br f.imm.toNat (4 * n)) (vnames f.d n) (decide (2 ≤ f.sc.toNat))
      (.load f.d.toNat (4 * n) false 0#2 (some f.sc.toNat) none)) ∧
  (∀ f : UI, s.cur.spairPois f.a = false →
    let at_ := va56 ((s.cur.spair f.a).toNat % 2 ^ 56 + 16 * f.imm.toNat)
    let lanes := [((lowestLane s.sel.mask).getD 0, (List.range 16).map (fun j => va56 (at_ + j)))]
    s.sel.mask ≠ 0 → at_ % 16 = 0 → s.reaches lanes .read true → s.struckHeld s.cur.team (lanes.flatMap Prod.snd) = none →
    s.loads (.recld f) lanes [] false (.load 63 16 false 0#2 none (some (f.d.toNat % 16))))

/-- R184, R186, R187, R193, R233: a store whose access meets no trap goes into the L1, or among the team's held bytes while its region is
open, or with .BYPASS to its homes; a release store outside a region is counted, and the writes to its lines stand in line behind what precedes it. -/
def Obligations.StoresIssue : Prop := ∀ s : State,
  (∀ (f : VM) (n : Nat) (width : Nat) (i : Instr),
    ((i = .stb f ∧ n = 1 ∧ width = 1) ∨ (i = .sth f ∧ n = 1 ∧ width = 2) ∨ (i = .stw f ∧ n = 1 ∧ width = 4) ∨ (i = .std f ∧ n = 2 ∧ width = 8) ∨
      (i = .stq f ∧ n = 4 ∧ width = 16)) →
    s.begins (vname f.a ++ vnames f.d n) 0 → s.Accessible f.a f.br f.imm.toNat width .write →
    let lanes := s.accessLanes f.a f.br f.imm.toNat width
    (s.idsRise → s.l1Room lanes →
      (s.regionOpen s.cur.team = true ∨ (s.noneHeldBack ∧ f.ch ≠ 2#2 ∧ ∀ l ∈ lanes, ∀ va ∈ l.2, s.plainPage va .write)) →
      s.storesL1 i lanes (s.cur.storeBytes f.d width) (f.ch = 2#2)) ∧
    (s.regionOpen s.cur.team = false → f.ch = 2#2 → lanes ≠ [] → s.idsRise → s.noneHeldBack → s.sel.key.slot < 64 →
      s.storesHome i lanes (s.cur.storeBytes f.d width))) ∧
  (∀ f : VMA,
    let n := if f.sz then 2 else 1
    s.begins (vname f.a ++ vnames f.d n) 0 → s.Accessible f.a f.br f.imm.toNat (4 * n) .write →
    let lanes := s.accessLanes f.a f.br f.imm.toNat (4 * n)
    (s.regionOpen s.cur.team = true → s.idsRise → s.l1Room lanes → s.storesL1 (.strl f) lanes (s.cur.storeBytes f.d (4 * n)) false) ∧
    (s.regionOpen s.cur.team = false → (2 ≤ f.sc.toNat ∨ ∀ l ∈ lanes, ∀ va ∈ l.2, s.plainPage va .write) → ∃ t accs, exec (.strl f) s = .next t ∧
      t = { s with waves := t.waves, cores := t.cores, mem := t.mem, net := t.net, nextId := t.nextId } ∧ s.walked t lanes .write ∧
      s.waits t .st lanes (fun _ => []) [] (fun a => .release f.sc.toNat a .waits) accs ∧
      (f.sc.toNat < 2 → t.cores = s.cores) ∧
      ∀ v ∈ linesOf lanes, (2 ≤ f.sc.toNat → (t.core s.sel.key.core).line s.cur.ctx v none = none) ∧
        ∃ q ∈ t.net, q.key = s.sel.key ∧ q.op = s.nextId ∧ q.vline = v ∧ q.spot = .outside ∧
          q.kind = .write ((lineBytes v (storedBytes lanes (s.cur.storeBytes f.d (4 * n)))).map (fun b => (q.pline + b.1, b.2))) []))

/-- R188, R233, R234: ATOM whose access meets no trap: outside a region it is counted, in ST when it returns nothing and in LD otherwise, and
at crew scope or wider it is sent to the homes of its lines; at wave and team scope it takes the bytes its L1 holds and asks for the rest. In an open
region one that returns a value raises RGN_VIOLATION, one that does not is held. -/
def Obligations.AtomicsIssue : Prop := ∀ (s : State) (f : VA),
  let n := atomWidth f.aop
  let dests := if f.nr then [] else vnames f.d (n / 4)
  let lanes := s.accessLanes f.a f.br 0 n
  let data := s.cur.storeBytes f.d (4 * atomRegs f.aop)
  let cls : Sys2Proof.Machine.Class := if f.nr then .st else .ld
  (s.regionOpen s.cur.team = true → f.nr = false → s.traps (.atom f) s.cur 0x11 s.sel.pc s.sel.mask 0 s.sel.word) ∧
  (s.begins (vname f.a ++ vnames f.d (atomRegs f.aop)) 2 → s.Accessible f.a f.br 0 n .atomic →
    (fabricAtom f.aop = true ∨ ∀ l ∈ lanes, ∀ va ∈ l.2, s.isFabric (lineAddr (s.paOf s.cur.ctx (lineAddr va) .atomic) + va % 128) = false) →
    (s.regionOpen s.cur.team = true → f.nr = true → ∃ t accs, exec (.atom f) s = .next t ∧
      t = { s with waves := t.waves, mem := t.mem, nextId := t.nextId, teams := t.teams } ∧ s.walked t lanes .atomic ∧ s.othersKept t ∧
      t.cur = (s.counted .st (.store false [])).finish s.nextId none ∧ accsOf accs lanes ∧ accs.map LaneAcc.data = lanes.map (fun l => data l.1) ∧
      t.teams = assocSet s.teams s.cur.team { s.curTeam with
        region := s.curTeam.region.map (fun r => { r with atomics := r.atomics ++ [⟨f.aop, f.sc.toNat, accs⟩] }) }) ∧
    (s.regionOpen s.cur.team = false → 2 ≤ f.sc.toNat →
      ∃ t accs, exec (.atom f) s = .next t ∧
        t = { s with waves := t.waves, cores := t.cores, mem := t.mem, net := t.net, nextId := t.nextId } ∧ s.walked t lanes .atomic ∧
        s.waits t cls lanes data dests (.atom f.aop f.sc.toNat f.nr f.d.toNat .home) accs ∧
        ∀ a ∈ accs, (t.core s.sel.key.core).line s.cur.ctx a.home.1 none = none ∧
          ∃ q ∈ t.net, q.key = s.sel.key ∧ q.op = s.nextId ∧ (q.vline, q.pline) = a.home ∧
            q.kind = .atomic f.aop (!f.nr) (accs.filter (fun x => x.home = a.home))) ∧
    (s.regionOpen s.cur.team = false → f.sc.toNat < 2 → (∀ l ∈ lanes, ∀ va ∈ l.2, s.plainPage va .atomic) →
      ∃ t accs, exec (.atom f) s = .next t ∧
        t = { s with waves := t.waves, mem := t.mem, net := t.net, nextId := t.nextId } ∧ s.walked t lanes .atomic ∧
        s.waits t cls lanes data dests (.atom f.aop f.sc.toNat f.nr f.d.toNat .l1) accs ∧ s.asks t accs ∧
        ∀ a ∈ accs, ∀ b ∈ a.bytes, (∀ m, s.releaseByte s.sel.key b.pa = some m → b.got = some m) ∧
          (s.releaseByte s.sel.key b.pa = none → ∀ lb, s.l1Byte s.sel.key.core s.cur.ctx s.cur.team b.va = some lb →
            b.got = some ⟨lb.val, lb.pois⟩)))

/-- R184, R185, R193, R196: when the last line of a load has answered, each live lane with a value takes it, extended to its register, poison
with it; a lane out of bounds takes zero; the operation is done. Nothing else changes. The names are still mapped: of one freed meanwhile
the model drops the late result (log 37). -/
def Obligations.LoadArrival : Prop := ∀ (s : State) (k : WaveKey) (id : Nat) (o : Op) (dst width : Nat) (sg : Bool) (hint : BitVec 2) (accs : List LaneAcc),
  (s.wave k).op id = some o → o.done = false → o.kind = .load dst width sg hint none none accs → s.replied k id = true →
  (accs.map LaneAcc.lane).Nodup → dst + (width + 3) / 4 ≤ 62 → (∀ j, j < (width + 3) / 4 → ((s.wave k).row (dst + j)).isSome) →
  ∃ rows ops pend, let w : Wave := { s.wave k with rows := rows, ops := ops, pend := pend }
    exec (.loadDataArrival k id) s = .next (s.setWave k w) ∧
    (∀ a ∈ accs, ∀ bs, a.value = some bs → ∀ i : Fin 32, i.val = a.lane → (s.wave k).lanes[i].status = .live →
      ∀ j, j < (width + 3) / 4 →
        w.vword (dst + j) i = extend width sg (leWord (((bs.drop (4 * j)).take 4).map MByte.val)) ∧
        (w.vpois (dst + j)).getLsbD i.val = ((bs.drop (4 * j)).take 4).any MByte.pois) ∧
    (∀ i : Fin 32, o.lanes.getLsbD i.val = true → i.val ∉ accs.map LaneAcc.lane → (s.wave k).lanes[i].status = .live →
      ∀ j, j < (width + 3) / 4 → w.vword (dst + j) i = 0 ∧ (w.vpois (dst + j)).getLsbD i.val = false) ∧
    (∀ n, n < dst ∨ dst + (width + 3) / 4 ≤ n → w.row n = (s.wave k).row n) ∧
    (∀ x ∈ ops, x.id = id → x.done = true)

/-- R187, R193, R288 to R291, R293, R295, R297, R186: the events of a request and of the L1. A request is performed at its home in the order in
which it stands there; the way of a line in its set is the model's choice (log 74). -/
def Obligations.MemoryEvents : Prop := ∀ s : State,
  (∀ k id o b accs, (s.wave k).op id = some o → o.done = false → o.kind = .store b accs → s.replied k id = true →
    exec (.storeAcknowledge k id) s = .next (s.setWave k ((s.wave k).finish id o.fail))) ∧
  (∀ k id o scope accs, (s.wave k).op id = some o → o.done = false → 2 ≤ scope →
    (o.kind = .release scope accs .waits → s.releaseReady k id scope = true →
      ∃ t, exec (.storeAcknowledge k id) s = .next t ∧ t.mem = s.mem ∧ t.teams = s.teams ∧
        (t.wave k).op id = some { o with kind := .release scope accs (.pushes t.nextId) } ∧ (t.wave k).rdcKept = [] ∧
        ∀ l ∈ (t.core k.core).l1, l.held = none → l.pline ∉ s.heldBackLines k → ∀ b ∈ l.bytes, b.2.dirty = true → (s.wave k).uid ∉ b.2.owners) ∧
    (∀ mark, o.kind = .release scope accs (.pushes mark) → s.pushing (s.wave k).uid mark (s.heldBackLines k) = false →
      ∃ t, exec (.storeAcknowledge k id) s = .next t ∧ t.mem = s.mem ∧ t.teams = s.teams ∧
        t.wave k = (s.wave k).setOp { o with kind := .release scope accs .sent }) ∧
    (o.kind = .release scope accs .sent → s.replied k id = true →
      exec (.storeAcknowledge k id) s = .next (s.setWave k ((s.wave k).finish id o.fail)))) ∧
  (∀ q, s.req q.id = some q → s.isFabric q.pline = false → s.homeFirst q = true → (∀ u ∈ s.upsets, u.pline ≠ q.pline) →
    ∃ t, exec (.l2Request q.id) s = .next t ∧ t.waves = s.waves ∧ t.cores = s.cores ∧
      (∃ x ∈ (t.die (s.homeDie q.pline)).l2, x.pline = q.pline) ∧
      (∀ byp nc, q.kind = .read byp nc → t.mem = s.mem ∧
        ∃ r ∈ t.net, r.id = q.id ∧ r.performed = true ∧ r.reply = some (s.homeBytes q.pline 128)) ∧
      (∀ bs low, q.kind = .write bs low → t.mem = (nibbleBytes low s.homeByte bs).foldl (fun m b => cellSet m b.1 b.2.val) s.mem ∧
        (∃ x ∈ (t.die (s.homeDie q.pline)).l2, x.pline = q.pline ∧
          ∀ b ∈ bs, lineAddr b.1 = q.pline → x.dirty.getLsbD (b.1 - q.pline) = true) ∧
        ∃ r ∈ t.net, r.id = q.id ∧ r.performed = true) ∧
      (∀ aop ret a, q.kind = .atomic aop ret [a] →
        t.mem = ((a.bytes.map ByteAcc.pa).zip (atomBytes aop (a.bytes.map (fun b => s.homeByte b.pa)) a.data)).foldl
          (fun m b => cellSet m b.1 b.2.val) s.mem ∧
        ∃ r ∈ t.net, r.id = q.id ∧ r.performed = true ∧ r.kind = .atomic aop ret [a.took (a.bytes.map (fun b => s.homeByte b.pa))])) ∧
  (∀ q u byp nc l, s.req q.id = some q → s.isFabric q.pline = false → s.homeFirst q = true →
    q.kind = .read byp nc → s.upsets = [u] → u.rdc = false → u.die = s.homeDie q.pline → u.pline = q.pline →
    (s.die u.die).l2.find? (fun x => x.pline = q.pline) = some l →
    ∃ t, exec (.l2Request q.id) s = .next t ∧ t.upsets = [] ∧ t.mem = s.mem ∧ t.waves = s.waves ∧
      (u.hard = false → t.poisoned = s.poisoned ∧ (t.die u.die).counters.l2ce = satInc (s.die u.die).counters.l2ce ∧
        ((∃ e ∈ (s.die u.die).wayErrs, e.1 = .ofL2 q.pline ∧ e.2.1 = l.way ∧ s.clock ≤ e.2.2 + 5400000000000) →
          (∃ r ∈ t.log, r.kind = 0x0004 ∧ r.seq = s.logSeq ∧ r.body.head? = some 3) ∧
          (l.way < 16 → (s.die u.die).retiredWays (.ofL2 q.pline) = 0 →
            ((t.die u.die).retiredWays (.ofL2 q.pline)).getLsbD l.way = true ∧
            (t.die u.die).counters.wayret = satInc (s.die u.die).counters.wayret))) ∧
      (u.hard = true → (t.die u.die).counters.l2ue = satInc (s.die u.die).counters.l2ue ∧
        (∃ r ∈ t.log, r.kind = 0x0003 ∧ r.seq = s.logSeq ∧ r.body.head? = some 8) ∧
        ∀ i, i < 4 → l.dirty.extractLsb' (32 * i) 32 ≠ 0 → q.pline / 32 + i ∈ t.poisoned)) ∧
  (∀ q c, s.req q.id = some q → q.spot = .there → q.leg = .toSlice → q.kind = .read false false →
    (s.die (dieOf q.core)).copy q.pline = some c → (∀ u ∈ s.upsets, u.pline ≠ q.pline) →
    ∃ t, execRequestStep q.id s = .next t ∧ t.mem = s.mem ∧ t.waves = s.waves ∧
      ∃ r ∈ t.net, r.id = q.id ∧ r.performed = true ∧ r.leg = .backHere ∧ r.reply = some c.bytes) ∧
  (∀ q bs, s.req q.id = some q → q.by_.isSlice = true → q.home = true → q.dead = false → q.noInstall = false → q.reply = some bs →
    s.pendingWrites (dieOf q.core) q.pline = [] → q.epoch = (s.die (dieOf q.core)).epoch →
    ∃ t way, exec (.rdcFill q.id) s = .next t ∧ t.mem = s.mem ∧ t.waves = s.waves ∧
      (t.die (dieOf q.core)).copy q.pline = some ⟨q.pline, q.epoch, way, bs, q.stamp, [], []⟩ ∧
      ∀ r ∈ s.waitingFor q, r.id ≠ q.id → ∃ r' ∈ t.net, r'.id = r.id ∧ r'.performed = true ∧ r'.reply = some bs) ∧
  (∀ core ctx vline l, (s.core core).l1.find? (fun l => l.ctx = ctx ∧ l.vline = vline) = some l → l.held = none →
    ∃ t, exec (.l1Eviction core ctx vline) s = .next t ∧ l ∉ (t.core core).l1 ∧ t.waves = s.waves ∧ t.mem = s.mem ∧
      (l.dirtyBytes ≠ [] → ∃ r ∈ t.net, r.core = core ∧ r.pline = l.pline ∧ r.kind = .write l.dirtyBytes [])) ∧
  (∀ q, s.req q.id = some q → q.dead = false → q.tag < 1024 → q.born + s.timeoutOf q ≤ s.clock →
    ∃ t, exec (.requestTimeout q.id) s = .next t ∧ t.mem = s.mem ∧ t.tagGen q.core q.by_ q.tag = s.tagGen q.core q.by_ q.tag + 1 ∧
      (∃ r ∈ t.log, r.kind = 0x0005 ∧ r.seq = s.logSeq ∧ r.body = [BitVec.ofNat 32 q.pline, BitVec.ofNat 32 (q.pline / 2 ^ 32), BitVec.ofNat 32 q.tag, q.gen.setWidth 32]) ∧
      ∀ o d w sg h acq accs, (s.wave q.key).op q.op = some o → o.fail = none → q.owners = [] → q.sharers = [] → o.kind = .load d w sg h acq none accs →
        (t.wave q.key).op q.op = some { o with fail := some ⟨0x0C, lanesOnLine accs q.vline,
          BitVec.ofNat 64 (laneAddr accs (lanesOnLine accs q.vline) % 2 ^ 56), o.pc, o.cls = .ld⟩ }) ∧
  (∀ q, s.req q.id = some q → q.dead = true → q.home = true →
    let d := dieOf q.core
    exec (.staleReplyDrop q.id d) s = .next (({ s with net := s.net.filter (fun r => r.id ≠ q.id) }).setDie d
      { s.die d with counters := { (s.die d).counters with stalereply := satInc (s.die d).counters.stalereply } })) ∧
  (∀ q r p, s.req q.id = some q → (q.spot = .input r p ∨ q.spot = .slot r p) → q.injected + 75000 < s.clock →
    ∃ t, exec (.packetAgeDiscard q.id (r / 16)) s = .next t ∧ t.mem = s.mem ∧ t.waves = s.waves ∧ (∀ x ∈ t.net, x.id = q.id → x.spot = .lost) ∧
      (t.die (r / 16)).counters.stalereply = (if q.cls = 1 then satInc (s.die (r / 16)).counters.stalereply else (s.die (r / 16)).counters.stalereply))

/-! ### Scratchpad -/

/-- R189, R190, R192, R268, R269: scratchpad loads, stores and atomics whose every lane reaches its place, and remote scratchpad stores. -/
def Obligations.ScratchpadAccesses : Prop := ∀ s : State,
  (∀ (f : VI) (i : Instr) (n : Nat), ((i = .ldsw f ∧ n = 1) ∨ (i = .ldsd f ∧ n = 2) ∨ (i = .ldsq f ∧ n = 4)) →
    s.begins (vname f.a) 4 → s.spReaches f.a f.imm.toNat (4 * n) false →
    ∃ rows granted, exec i s = .next (s.setWave s.sel.key { s.moved with rows := rows, granted := granted }) ∧
      s.cur.takes { s.moved with rows := rows, granted := granted } s.sel.mask f.d n
        (fun j l => s.curTeam.spWord (s.cur.spAddr f.a f.imm.toNat l + 4 * j))
        (fun j l => s.curTeam.wordPois (s.cur.spAddr f.a f.imm.toNat l + 4 * j))) ∧
  (∀ (f : VI) (i : Instr) (n : Nat), ((i = .stsw f ∧ n = 1) ∨ (i = .stsd f ∧ n = 2) ∨ (i = .stsq f ∧ n = 4)) →
    s.begins (vname f.a ++ vnames f.d n) 0 → s.spReaches f.a f.imm.toNat (4 * n) true → Memory.wf s.curTeam.sp →
    ∃ sp spPois, exec i s = .next ((s.setTeam s.cur.team { s.curTeam with sp := sp, spPois := spPois }).setWave s.sel.key s.moved) ∧
      (∀ a, cellGet sp a = match assocGet (s.spWrites f.a f.d f.imm.toNat (4 * n)).reverse a with
        | some m => m.val
        | none => cellGet s.curTeam.sp a) ∧
      (∀ w, spPois.contains w = match assocGet (s.spWrites f.a f.d f.imm.toNat (4 * n)).reverse (4 * w) with
        | some m => m.pois
        | none => s.curTeam.spPois.contains w)) ∧
  (∀ f : VSA,
    let n := atomWidth f.aop
    let place := s.cur.spAddr f.a (4 * f.imm.toNat)
    s.begins (vname f.a ++ vnames f.d (atomRegs f.aop)) 2 → s.spReaches f.a (4 * f.imm.toNat) n true →
    ∃ (at_ : Nat → Team) (rows : List (Nat × Row)) (granted : Nat), at_ 0 = s.curTeam ∧
      (∀ i : Fin 32, at_ (i.val + 1) = if s.sel.mask.getLsbD i.val then
        (at_ i.val).putBytes (place i) (atomBytes f.aop ((at_ i.val).spBytes (place i) n) (s.cur.storeBytes f.d (4 * atomRegs f.aop) i)) else at_ i.val) ∧
      exec (.atoms f) s = .next ((s.setTeam s.cur.team (at_ 32)).setWave s.sel.key { s.moved with rows := rows, granted := granted }) ∧
      (f.nr = true → rows = s.cur.rows) ∧
      (f.nr = false → s.cur.takes { s.moved with rows := rows, granted := granted } s.sel.mask f.d (n / 4)
        (fun j i => leWord (((((at_ i.val).spBytes (place i) n).drop (4 * j)).take 4).map MByte.val))
        (fun j i => ((((at_ i.val).spBytes (place i) n).drop (4 * j)).take 4).any MByte.pois ||
          (s.cur.storeBytes f.d (4 * atomRegs f.aop) i).any MByte.pois))) ∧
  (∀ f : VI, s.begins (vname f.a ++ vname f.d) 0 → s.regionOpen s.cur.team = false → s.sel.mask &&& s.cur.vsrcPois f.a = 0 →
    let ad := s.cur.spAddr f.a f.imm.toNat
    (∀ i : Fin 32, s.sel.mask.getLsbD i.val = true → ad i / 2 ^ 22 = 0 ∧ ad i / 2 ^ 19 % 2 = 0 ∧ ad i % 4 = 0 ∧
      ∃ m, s.memberTeam s.curTeam.crew (ad i / 2 ^ 20 % 4) = some m ∧ ad i % 2 ^ 19 + 4 ≤ (s.team m).spSize ∧
        (m, ad i % 2 ^ 19 / 16) ∉ (s.core s.sel.key.core).armedMap) →
    exec (.stsr f) s = .next (({ s with nextId := s.nextId + 1 }).setWave s.sel.key { s.moved with
      ops := s.cur.ops ++ [(⟨s.nextId, .rs, s.sel.pc, s.sel.mask, .stsr ((maskLanes s.sel.mask).map (fun i =>
        ⟨(s.memberTeam s.curTeam.crew (ad i / 2 ^ 20 % 4)).getD 0, ad i % 2 ^ 19, s.cur.vsrc f.d 0 i, (s.cur.vsrcPois f.d).getLsbD i.val,
          false⟩)), false, none, s.clock⟩ : Op)] })) ∧
  (∀ (k : WaveKey) (id : Nat) (o : Op) (tm off : Nat) (v : Word) (p void : Bool), (s.wave k).op id = some o → o.kind = .stsr [⟨tm, off, v, p, void⟩] →
    o.done = false → (∀ x ∈ (s.wave k).ops, x.cls = .rs → x.id < id → x.done = true) →
    (void = false → (assocGet s.teams tm).isSome → exec (.stsrPerform k id) s =
      .next ((s.setTeam tm ((s.team tm).putWord off v p)).setWave k ((s.wave k).finish id none)).freeKept) ∧
    ((void = true ∨ assocGet s.teams tm = none) → exec (.stsrPerform k id) s = .next (s.setWave k ((s.wave k).finish id none)).freeKept))

/-! ### Waits and fences -/

/-- R195, R196: WAIT and WAITX go on at once when every class they name is at its threshold or below and no failure of theirs is due, wait in
place when one is above, and deliver the oldest failure that is due: an asynchronous one at the next word, a precise one (R294) at their own.
A wait in place that has become met ends so. -/
def Obligations.CounterWaits : Prop := ∀ s : State,
  (∀ f : UK,
    let named := [(Sys2Proof.Machine.Class.ld, f.t0), (.st, f.t1), (.cp, f.t2), (.tl, f.t3)].filter (fun c => c.2 ≠ 31#5)
    let met := ∀ c ∈ named, s.cur.count c.1 ≤ c.2.toNat
    (met → (∀ p, ¬ s.cur.due (named.map Prod.fst) p) → exec (.wait f) s = .next (s.setWave s.sel.key s.moved)) ∧
    (¬ met → exec (.wait f) s = .next (s.setWave s.sel.key (s.waiting s.cur (.counters (named.map (fun c => (c.1, c.2.toNat))))))) ∧
    (met → ∀ p, s.cur.oldestDue (named.map Prod.fst) p → s.cur.canTrap →
      exec (.wait f) s = .next (s.setWave s.sel.key ((if p.fail.precise then s.cur else s.moved).delivered p s.sel.pc s.sel.next)))) ∧
  (∀ f : UK, f.t3 = 31#5 →
    let named := [(Sys2Proof.Machine.Class.nm, f.t0), (.rs, f.t1), (.fx, f.t2)].filter (fun c => c.2 ≠ 31#5)
    let met := ∀ c ∈ named, s.cur.count c.1 ≤ c.2.toNat
    (met → (∀ p, ¬ s.cur.due (named.map Prod.fst) p) → exec (.waitx f) s = .next (s.setWave s.sel.key s.moved)) ∧
    (¬ met → exec (.waitx f) s = .next (s.setWave s.sel.key (s.waiting s.cur (.counters (named.map (fun c => (c.1, c.2.toNat))))))) ∧
    (met → ∀ p, s.cur.oldestDue (named.map Prod.fst) p → s.cur.canTrap →
      exec (.waitx f) s = .next (s.setWave s.sel.key ((if p.fail.precise then s.cur else s.moved).delivered p s.sel.pc s.sel.next)))) ∧
  (∀ (k : WaveKey) (pc : Word) (x : Wait) (pairs : List (Sys2Proof.Machine.Class × Nat)), (s.wave k).waitAt pc = some x → x.why = .counters pairs →
    (s.wave k).canEnd x → (∀ p ∈ pairs, (s.wave k).count p.1 ≤ p.2) →
    ((∀ p, ¬ (s.wave k).due (pairs.map Prod.fst) p) → exec (.waitComplete k pc) s = .next (s.setWave k ((s.wave k).resumed x))) ∧
    (∀ p, (s.wave k).oldestDue (pairs.map Prod.fst) p → (s.wave k).canTrap → exec (.waitComplete k pc) s =
      .next (s.setWave k ((if p.fail.precise then (s.wave k).unblocked x else (s.wave k).resumed x).delivered p pc x.next))))

/-- R197: FENCE only issues its action and goes on. The action of a release begins when the accesses it covers are complete: it leaves no dirty
byte of the wave in the L1, and ends when its pushes are acknowledged; an acquire at die scope or wider leaves no clean byte of its context
there, and at package scope or wider no remote copy on the die. -/
def Obligations.FencesAct : Prop := ∀ s : State,
  (∀ f : UF, exec (.fence f) s = .next (({ s with nextId := s.nextId + 1 }).setWave s.sel.key { s.moved with
    fences := s.cur.fences ++ [(⟨.fence f.kind, f.sc.toNat, s.nextId, none⟩ : Fence)] })) ∧
  (∀ (k : WaveKey) (kind : BitVec 2) (scope upTo : Nat) (pushed : Option Nat) (rest : List Fence),
    (s.wave k).fences = ⟨.fence kind, scope, upTo, pushed⟩ :: rest →
    let w' : Wave := { s.wave k with fences := rest }
    (kind = 0#2 → (s.wave k).earlierDone upTo [.ld] = true →
      ∃ t, exec (.fenceActionComplete k) s = .next t ∧ t.wave k = w' ∧ s.acquired t k scope) ∧
    (kind ≠ 0#2 → ∀ m, pushed = some m → s.pushing (s.wave k).uid m [] = false →
      (kind = 1#2 → exec (.fenceActionComplete k) s = .next (s.setWave k w')) ∧
      (kind ≠ 1#2 → ∃ t, exec (.fenceActionComplete k) s = .next t ∧ t.wave k = w' ∧ s.acquired t k scope)) ∧
    (kind ≠ 0#2 → pushed = none → s.releaseReady k upTo scope = true →
      ∃ t, exec (.fenceActionComplete k) s = .next t ∧ t.mem = s.mem ∧ t.teams = s.teams ∧
        (t.wave k = w' ∨ ∃ m, t.wave k = { w' with rdcKept := [] } ∨ t.wave k = { w' with rdcKept := [], fences := ⟨.fence kind, scope, upTo, some m⟩ :: rest }) ∧
        (scope < 2 → t.wave k = w') ∧
        (2 ≤ scope → (t.wave k).rdcKept = [] ∧ ∀ l ∈ (t.core k.core).l1, l.held = none → l.pline ∉ s.heldBackLines k →
          ∀ b ∈ l.bytes, b.2.dirty = true → (s.wave k).uid ∉ b.2.owners)))

/-! ### Barriers -/

/-- R200, R270: BARINIT on a free object waits for its crew's replies, disarms an idle one, clears the flags of one not armed, and raises
BAR_CLOBBER on an armed one, or on one that another is arming; a core updates its map and replies once its earlier remote stores to the
allocation have landed, and when the last reply has come the object is armed and the wait ends. That the whole flags word of a disarmed
object reads 0 is the model's choice (log 71). -/
def Obligations.BarrierArming : Prop := ∀ s : State,
  (∀ f : U3, s.AtObject f → s.cur.sregPois f.b = false → ctlIllegal (s.cur.sreg f.b f.lit) = false →
    let c := s.cur.sreg f.b f.lit
    let a := (s.cur.sreg f.a f.lit).toNat
    let t := s.curTeam
    let asking := s.waiting s.cur (.arming a c ((s.crewCores t.crew).map (fun core => (core, none))))
    (s.armingAt s.cur.team a = true → s.traps (.barinit f) s.cur 0x10 s.sel.pc s.sel.mask (BitVec.ofNat 64 a) s.sel.word) ∧
    (s.armingAt s.cur.team a = false →
      (c ≠ 0 → t.isArmed a = false → exec (.barinit f) s = .next (s.setWave s.sel.key asking)) ∧
      (c ≠ 0 → t.isArmed a = true → s.traps (.barinit f) s.cur 0x10 s.sel.pc s.sel.mask (BitVec.ofNat 64 a) s.sel.word) ∧
      (c = 0 → t.isArmed a = true → (t.arrivedAt a ≠ 0 ∨ s.waitedOn s.cur.team a = true) →
        s.traps (.barinit f) s.cur 0x10 s.sel.pc s.sel.mask (BitVec.ofNat 64 a) s.sel.word) ∧
      (c = 0 → t.isArmed a = true → t.arrivedAt a = 0 → s.waitedOn s.cur.team a = false →
        exec (.barinit f) s = .next ((s.setTeam s.cur.team
          { t.putWord (a + 12) 0 false with armed := t.armed.filter (· ≠ a / 16) }).setWave s.sel.key asking)) ∧
      (c = 0 → t.isArmed a = false →
        exec (.barinit f) s = .next ((s.setTeam s.cur.team (t.putWord (a + 12) 0 false)).setWave s.sel.key s.moved)))) ∧
  (∀ (k : WaveKey) (core a : Nat) (c : Word) (x : Wait) (cores : List (Nat × Option Nat)), (s.wave k).waits = [x] → x.why = .arming a c cores →
    let t := (s.wave k).team
    let left := fun (l : List (Nat × Option Nat)) => ({ s.wave k with waits := [{ x with why := .arming a c l }] } : Wave)
    let mapped := s.setCore core { s.core core with
      armedMap := (if c ≠ 0 then [(t, a / 16)] else []) ++ (s.core core).armedMap.filter (fun p => p ≠ (t, a / 16)) }
    (assocGet cores core = some none →
      (s.stsrPending core t s.nextId = false → exec (.armedMapUpdate k core) s = .next (mapped.setWave k (left (assocErase cores core)))) ∧
      (s.stsrPending core t s.nextId = true → exec (.armedMapUpdate k core) s =
        .next (mapped.setWave k (left (assocSet cores core (some s.nextId)))))) ∧
    (∀ m, assocGet cores core = some (some m) → s.stsrPending core t m = false →
      exec (.armedMapUpdate k core) s = .next (s.setWave k (left (assocErase cores core))))) ∧
  (∀ (k : WaveKey) (a : Nat) (c : Word) (x : Wait), (s.wave k).waits = [x] → x.why = .arming a c [] →
    let t := s.team (s.wave k).team
    ∃ u, exec (.barinitRepliesDone k x.pc) s = .next u ∧ u.wave k = (s.wave k).resumed x ∧
      (c = 0 → u.teams = s.teams) ∧
      (c ≠ 0 → u.team (s.wave k).team = { ((t.putWord a (if (c.extractLsb' 24 2).toNat = 1 then BitVec.ofNat 32 t.liveWaves else c &&& 0xFFFFFF) false).putWord
          (a + 4) 0 false).putWord (a + 12) (BitVec.ofNat 32 ((c.getLsbD 26).toNat * 8 + (c.extractLsb' 24 2).toNat * 2 + 1)) false with
        armed := insertSorted t.armed (a / 16), arrived := assocErase t.arrived a }) ∧
      ∀ core ∈ s.crewCores t.crew, ((s.wave k).team, a / 16) ∈ (u.core core).armedMap ↔ c ≠ 0)

/-- R200, R201: BARARV and BARSYNC arrive once at an armed object, BARARV with the generation in s[D] and BARSYNC waiting for it to be left, at
once when the wave's earlier loads and stores are complete and else behind them; an arrival that completes the phase starts the next
generation and sends every wave waiting for the old one on; BARWT waits while the generation is the one in s[B]. -/
def Obligations.BarrierArrivals : Prop := ∀ (s : State) (f : U3), s.AtObject f →
  let a := (s.cur.sreg f.a f.lit).toNat
  let t := s.curTeam
  let n := if t.kindAt a = 2 then (s.cur.sreg f.b f.lit).toNat else 1
  let m := if t.kindAt a = 2 then 0 else 1
  let once := t.isArmed a = true ∧ ¬ (t.kindAt a = 1 ∧ ((t.maskAt a).getLsbD s.cur.index.toNat = true ∨ s.cur.arriving a = true))
  let ready := s.cur.fences = [] ∧ s.cur.earlierDone s.nextId [.ld, .st] = true
  let later := fun (k : Nat) (d : Option (BitVec 6)) => s.cur.fences ++ [(⟨.barArrive a k d, 1, s.nextId, none⟩ : Fence)]
  (once → ready → Memory.wf t.sp → s.noStale s.cur.team a → (t.kindAt a = 2 → s.cur.sregPois f.b = false) → t.arrivedAt a + n < t.expect a →
    exec (.bararv f) s = .next ((s.setTeam s.cur.team (t.counted a n s.cur.index)).setWave s.sel.key (s.moved.setS f.d (t.gen a) false))) ∧
  (once → ¬ ready → (t.kindAt a = 2 → s.cur.sregPois f.b = false) →
    exec (.bararv f) s = .next (({ s with nextId := s.nextId + 1 }).setWave s.sel.key { s.moved with fences := later n (some f.d) })) ∧
  (once → ready → Memory.wf t.sp → s.noStale s.cur.team a → (∀ x ∈ s.cur.waits, x.why ≠ .syncDue a) → t.arrivedAt a + m < t.expect a →
    exec (.barsync f) s = .next ((s.setTeam s.cur.team (t.counted a m s.cur.index)).setWave s.sel.key (s.waiting s.cur (.barrier a (t.gen a))))) ∧
  (once → ¬ ready → exec (.barsync f) s =
    .next (({ s with nextId := s.nextId + 1 }).setWave s.sel.key { s.waiting s.cur (.syncDue a) with fences := later m none })) ∧
  (once → ready → (t.kindAt a = 2 → s.cur.sregPois f.b = false) → t.arrivedAt a + n = t.expect a → t.expect a ≠ 0 → Memory.wf t.sp →
    ∃ u, exec (.bararv f) s = .next u ∧ u.team s.cur.team = t.advanced a ∧ u.cur.sreg f.d 0 = (if f.d.toNat < 62 then t.gen a else u.cur.sreg f.d 0) ∧
      ∀ k w x, assocGet s.waves k = some w → k ≠ s.sel.key → w.team = s.cur.team → w.waits = [x] → x.why = .barrier a (t.gen a) →
        assocGet u.waves k = some (w.resumed x)) ∧
  (s.cur.sregPois f.b = false →
    (t.gen a = s.cur.sreg f.b f.lit → exec (.barwt f) s = .next (s.setWave s.sel.key (s.waiting s.cur (.barrier a (t.gen a))))) ∧
    (t.gen a ≠ s.cur.sreg f.b f.lit → exec (.barwt f) s = .next (s.setWave s.sel.key s.moved))) ∧
  (t.isArmed a = false → s.traps (.bararv f) s.cur 0x02 s.sel.pc s.sel.mask 0 s.sel.word ∧ s.traps (.barsync f) s.cur 0x02 s.sel.pc s.sel.mask 0 s.sel.word) ∧
  (t.isArmed a = true → t.kindAt a = 1 → ((t.maskAt a).getLsbD s.cur.index.toNat = true ∨ s.cur.arriving a = true) →
    s.traps (.bararv f) s.cur 0x10 s.sel.pc s.sel.mask (BitVec.ofNat 64 a) s.sel.word ∧
    s.traps (.barsync f) s.cur 0x10 s.sel.pc s.sel.mask (BitVec.ofNat 64 a) s.sel.word)

/-- R145, R202, R205, R274: a barrier wait, a group barrier wait and a waiting ring operation that outlast the watchdog under which they began
end in a precise trap of the waiting threads, with a diagnostic record for the two barriers; no counter, object or memory changes. -/
def Obligations.BarrierTimeouts : Prop := ∀ (s : State) (k : WaveKey) (pc : Word) (x : Wait), (s.wave k).waitAt pc = some x → (s.wave k).canEnd x → (s.wave k).canTrap →
  let w := s.wave k
  let c := s.context w.ctx
  c.frozenAt = none → x.limit ≠ 0 → x.since + x.limit.toNat * 1500 < s.clock →
  (∀ a g, x.why = .barrier a g → ((s.team w.team).flags a).getLsbD 3 = false →
    ∃ t, exec (.barTimeout k pc) s = .next t ∧ t.wave k = (w.unblocked x).entered 0x0F x.next x.lanes (BitVec.ofNat 64 a) g ∧
      t = { s with waves := t.waves, log := t.log, logSeq := s.logSeq + 1, logLost := t.logLost } ∧
      ∃ r ∈ t.log, r.kind = 0x0002 ∧ r.seq = s.logSeq) ∧
  (∀ n b, x.why = .group n b →
    ∃ t, exec (.groupBarrierTimeout k pc) s = .next t ∧
      t.wave k = (w.unblocked x).entered 0x0F x.next x.lanes ((BitVec.ofNat 32 (0xFFFFFF00 + n)).setWidth 64) b ∧
      t = { s with waves := t.waves, log := t.log, logSeq := s.logSeq + 1, logLost := t.logLost } ∧
      ∃ r ∈ t.log, r.kind = 0x0002 ∧ r.seq = s.logSeq) ∧
  (∀ op f mark, x.why = .ring op f mark →
    exec (.ringTimeout k pc) s = .next (s.setWave k ((w.unblocked x).entered 0x13 pc x.lanes
      (BitVec.ofNat 64 (if f.sp then (w.sreg f.a 0).toNat else va56 (w.spair f.a).toNat)) (leWord (c.codeWord pc)))))

/-- R271 to R275: GBSET joins or leaves the next set of a group, and starts a generation where none runs; GBARV issues its release and arrival;
GBWT waits for the generation to be left, and goes on when its acquire is done. The arrival, once its release is done, reads the generation
into s[D] and marks the wave. -/
def Obligations.GroupBarriers : Prop := ∀ s : State,
  (∀ f : U3, s.cur.qp f.qg = false → s.cur.q f.qg ≠ f.qn → s.cur.sregPois f.a = false → (s.cur.sreg f.a f.lit).extractLsb' 6 26 = 0 →
    let n := (s.cur.sreg f.a f.lit).toNat % 64
    let g := s.group n
    let b := s.cur.sreg f.b f.lit
    g.owner = some (BitVec.ofNat 6 s.cur.ctx) →
    (s.regionOpen s.cur.team = false → s.cur.sregPois f.b = false → b.toNat ≤ 1 →
      (∀ p ∈ s.waves, ∀ x ∈ p.2.waits, ∀ m gen, x.why = .group m gen → m ≠ n ∧ gen = (s.group m).gen) →
      let set := g.nset.filter (· ≠ s.cur.team) ++ (if b = 1 then [s.cur.team] else [])
      let count : BitVec 17 := BitVec.ofNat 17 ((g.mset.filter (s.teamArrived g)).length)
      ((g.mset = [] ∧ set ≠ []) → exec (.gbset f) s = .next ((s.setGroup n { g with
        gen := g.gen + 1, mset := set, nset := set, arrived := 0, waves := [] }).setWave s.sel.key s.moved)) ∧
      ((g.mset ≠ [] ∧ count.toNat ≠ g.mset.length) ∨ (g.mset = [] ∧ set = []) → exec (.gbset f) s =
        .next ((s.setGroup n { g with nset := set, arrived := count }).setWave s.sel.key s.moved))) ∧
    (s.regionOpen s.cur.team = false → s.cur.team ∈ g.mset → ((assocGet g.waves s.cur.team).getD 0).getLsbD s.cur.index.toNat = false →
      (∀ x ∈ s.cur.fences, ∀ d, x.what ≠ .groupArrive n d) →
      exec (.gbarv f) s = .next (({ s with nextId := s.nextId + 1 }).setWave s.sel.key { s.moved with
        fences := s.cur.fences ++ [(⟨.groupArrive n f.d, 4, s.nextId, none⟩ : Fence)] })) ∧
    (s.cur.sregPois f.b = false →
      (g.gen ≠ b → s.pathWait (.group n b) ∉ s.cur.waits → exec (.gbwt f) s = .next (({ s with nextId := s.nextId + 1 }).setWave s.sel.key
        { s.waiting s.cur (.group n b) with
          waits := s.cur.waits ++ [{ s.pathWait (.group n b) with why := .groupLeft s.nextId }]
          fences := s.cur.fences ++ [(⟨.groupAcquire, 4, s.nextId, none⟩ : Fence)] })) ∧
      (g.gen = b → exec (.gbwt f) s = .next (s.setWave s.sel.key (s.waiting s.cur (.group n b)))))) ∧
  (∀ (k : WaveKey) (n m : Nat) (d : BitVec 6) (upTo : Nat) (rest : List Fence), (s.wave k).fences = ⟨.groupArrive n d, 4, upTo, some m⟩ :: rest →
    s.pushing (s.wave k).uid m [] = false → (s.wave k).count .rs = 0 →
    ∃ t, exec (.fenceActionComplete k) s = .next t ∧ (t.wave k).fences = (if (t.group n).gen = (s.group n).gen then rest else (t.wave k).fences) ∧
      (d.toNat < 62 → (t.wave k).sreg d 0 = (s.group n).gen) ∧
      ((t.group n).gen = (s.group n).gen → (s.wave k).team ∈ (s.group n).mset →
        assocGet (t.group n).waves (s.wave k).team =
          some ((assocGet (s.group n).waves (s.wave k).team).getD 0 ||| (1#32 <<< (s.wave k).index.toNat)))) ∧
  (∀ (k : WaveKey) (upTo : Nat) (pushed : Option Nat) (x : Wait) (rest : List Fence), (s.wave k).fences = ⟨.groupAcquire, 4, upTo, pushed⟩ :: rest →
    (s.wave k).earlierDone upTo [.ld] = true → (s.wave k).waits = [x] → x.why = .groupLeft upTo →
    ∃ t, exec (.fenceActionComplete k) s = .next t ∧ t.wave k = { (s.wave k).resumed x with fences := rest } ∧ s.acquired t k 4)

/-! ### Rings -/

/-- R203 to R205: a ring operation on a scratchpad block that can succeed raises its counter by one, and gives its slot number in s[D] and 1 in
q[QD]; one that cannot gives 0 in q[QD], or with .W, and always for RCMT, waits in place. RREL never waits: with earlier accesses outstanding
its effect follows them. A waiting operation that can succeed does so at its retry. -/
def Obligations.RingOperations : Prop := ∀ (s : State) (f : UR),
  let a := (s.cur.sreg f.a 0).toNat
  let word := fun (o : Nat) => s.curTeam.spWord (a + o)
  let put := fun (o : Nat) (w : Wave) => (s.setTeam s.cur.team (s.curTeam.putWord (a + o) (word o + 1) false)).setWave s.sel.key w
  let waits := fun (op : RingOp) => s.setWave s.sel.key (s.waiting s.cur (.ring op f none))
  (s.RingReady f false →
    ((word 0x10 - word 0x1C).toNat < (word 12).toNat → exec (.racq f) s = .next (put 0x10 (s.moved.ringDone f (some (word 0x10 % word 12)) true))) ∧
    ((word 12).toNat ≤ (word 0x10 - word 0x1C).toNat →
      (f.w = false → exec (.racq f) s = .next (s.setWave s.sel.key (s.moved.setQ f.qd false false))) ∧
      (f.w = true → exec (.racq f) s = .next (waits .racq))) ∧
    (word 0x14 ≠ word 0x18 → exec (.rpeek f) s = .next (put 0x18 (s.moved.ringDone f (some (word 0x18 % word 12)) true))) ∧
    (word 0x14 = word 0x18 →
      (f.w = false → exec (.rpeek f) s = .next (s.setWave s.sel.key (s.moved.setQ f.qd false false))) ∧
      (f.w = true → exec (.rpeek f) s = .next (waits .rpeek)))) ∧
  (s.RingReady f true →
    let done := s.cur.earlierDone s.nextId [.ld, .st]
    (word 0x14 % word 12 = s.cur.sreg f.d 0 → done = true → exec (.rcmt f) s = .next (put 0x14 s.moved)) ∧
    ((word 0x14 % word 12 ≠ s.cur.sreg f.d 0 ∨ done = false) → exec (.rcmt f) s = .next (waits .rcmt)) ∧
    (s.cur.fences = [] → done = true →
      (word 0x1C % word 12 = s.cur.sreg f.d 0 → exec (.rrel f) s = .next (put 0x1C (s.moved.ringDone f none true))) ∧
      (word 0x1C % word 12 ≠ s.cur.sreg f.d 0 → exec (.rrel f) s = .next (s.setWave s.sel.key (s.moved.setQ f.qd false false)))) ∧
    ((s.cur.fences ≠ [] ∨ done = false) → exec (.rrel f) s = .next (({ s with nextId := s.nextId + 1 }).setWave s.sel.key { s.moved with
      fences := s.cur.fences ++ [(⟨.ringRelease true a f.sc.toNat (s.registered s.cur.ctx a).isSome (s.cur.sreg f.d 0) f.qd, f.sc.toNat, s.nextId,
        none⟩ : Fence)] }))) ∧
  (∀ (k : WaveKey) (x : Wait) (mark : Option Nat), (s.wave k).waitAt x.pc = some x → (s.wave k).canEnd x → x.why = .ring .racq f mark →
    f.sp = true → f.sc.toNat < 2 →
    let w := s.wave k
    let t := s.team w.team
    let b := (w.sreg f.a 0).toNat
    (∀ i, i < 32 → t.wordPois (b + i) = false) → slotsIllegal (t.spWord (b + 12)) = false →
    (t.spWord (b + 0x10) - t.spWord (b + 0x1C)).toNat < (t.spWord (b + 12)).toNat →
    exec (.ringRetry k x.pc) s = .next ((s.setTeam w.team (t.putWord (b + 0x10) (t.spWord (b + 0x10) + 1) false)).setWave k
      ((w.ringDone f (some (t.spWord (b + 0x10) % t.spWord (b + 12))) true).resumed x)))

/-! ### Regions and regrouping -/

/-- R230, R231, R237, R238, R244, R246: RGNB, RGNC and REGRP wait for their team's rendezvous, and meet COLL_MISMATCH where the team waits at another;
RGNB inside a region and RGNC or RGNA outside one raise RGN_VIOLATION. RGNA discards the attempt: the reason, LAST 2 and the open bit stand in
RGNSTAT, the next attempt number in RGNATT; scratchpad and waves are the checkpoint's, held lines are gone. -/
def Obligations.RegionInstructions : Prop := ∀ s : State,
  let joins := fun (i : Instr) =>
    (s.rdvClash i = none → exec i s = .next (s.setWave s.sel.key (s.waiting s.cur (.rendezvous i)))) ∧
    (∀ pc, s.rdvClash i = some pc → s.traps i s.cur 0x0E s.sel.pc s.sel.mask 0 pc)
  (∀ f : UC,
    let d0 := s.cur.sreg f.b 0
    let d1 := s.cur.sreg (f.b + 1) 0
    (s.regionOpen s.cur.team = true → s.traps (.rgnb f) s.cur 0x11 s.sel.pc s.sel.mask 0 s.sel.word) ∧
    (s.regionOpen s.cur.team = false → s.cur.spairPois f.a = false → s.cur.spairPois f.b = false → (s.cur.spair f.a).extractLsb' 62 2 = 0 →
      d0.getLsbD 19 = false → d1.getLsbD 19 = false → windowsOverlap (windowOf d0) (windowOf d1) = false →
      (∀ w ∈ [windowOf d0, windowOf d1], w.2 ≠ 0 → w.1 % 128 = 0 ∧ w.1 + w.2 ≤ s.curTeam.spSize) → joins (.rgnb f))) ∧
  (∀ f : U3,
    (s.regionOpen s.cur.team = false → s.traps (.rgnc f) s.cur 0x11 s.sel.pc s.sel.mask 0 s.sel.word) ∧
    (s.regionOpen s.cur.team = true → (∀ p ∈ s.cur.pend, p.fail.cause ≠ 0x11) → joins (.rgnc f))) ∧
  (∀ f : VX, s.begins (vname f.a) 0 → s.cur.spairPois f.b = false → (s.cur.spair f.b).extractLsb' 62 2 = 0 →
    s.sel.mask &&& s.cur.vsrcPois f.a = 0 → joins (.regrp f)) ∧
  (∀ f : U3, s.cur.qp f.qg = false → s.cur.q f.qg ≠ f.qn →
    (s.regionOpen s.cur.team = false → s.traps (.rgna f) s.cur 0x11 s.sel.pc s.sel.mask 0 s.sel.word) ∧
    (s.regionOpen s.cur.team = true → s.cur.sregPois f.a = false → ∀ r, s.curTeam.region = some r →
      ∃ t, exec (.rgna f) s = .next t ∧
        let x := t.team s.cur.team
        let seen := fun (w : Wave) => (w.index, w.lanes, w.sregs)
        x.rgnstat = (s.cur.sreg f.a f.lit <<< 16) ||| (s.curTeam.rgnstat &&& 0x30) ||| 0x81 ∧ x.rgnatt = s.curTeam.rgnatt + 1 ∧
        x.sp = r.ck.bytes ∧ x.spPois = r.ck.pois ∧ x.armed = r.ck.armed ∧
        x.region = some { r with atomics := [], journal := [], overfull := false, committing := false, struck := [] } ∧
        (∀ l ∈ (t.core s.curTeam.core).l1, l.held ≠ some s.cur.team) ∧
        (x.resident = true ∨ x.replay = some (dieOf s.curTeam.core, clusterOf s.curTeam.core, s.clock)) ∧
        (x.resident = false → (x.saved.getD []).map seen = r.ck.waves.map seen) ∧
        (x.resident = true → ∀ w ∈ r.ck.waves, ∃ p ∈ t.waves, p.1.core = s.curTeam.core ∧ seen p.2 = seen w)))

/-- R230 to R232, R237, R238, R240 to R242, R247 to R251, R276: the rendezvous of a team. RGNB's opens the region with its checkpoint; RGNC's turns
the held bytes into ordinary dirty ones, or traps every wave when one is poisoned or the region is overfull, or, where an error has struck one,
aborts the region; its completion sends the journal home, performs the held atomics when that is acknowledged, and closes the region; REGRP's moves
every thread, with the registers its mask names, to the wave its key gives it; a wait that outlasts the watchdog under which it began traps. A
team that waits for its replay is restored with its crew, or bound to cores whose split changes start. -/
def Obligations.RegionEvents : Prop := ∀ (s : State) (team : Nat), (s.waves.map Prod.fst).Nodup →
  let l := s.rdvWaves team
  let x := s.team team
  let trapped := fun (t : State) (cause : Word) (addr : DWord) (info : WaveKey → Word → Word) =>
    (∀ y ∈ l, (s.wave y.1).canTrap) → ∀ y ∈ l, t.wave y.1 = ((s.wave y.1).unblocked y.2.2.1).entered cause y.2.2.1.pc y.2.2.1.lanes addr (info y.1 y.2.2.1.pc)
  let whole := ∀ y ∈ l, (s.wave y.1).swapped = none ∧ ∀ r ∈ (s.wave y.1).rows, r.2.par = 0
  let journal := (x.region.map Region.journal).getD []
  let struck := (x.region.map Region.struck).getD []
  (s.rdvReady team = true →
    ((∀ y ∈ l, ∃ f, y.2.2.2 = .rgnb f) → whole → ∃ t ck, exec (.rendezvousComplete team) s = .next t ∧
      t = { s with waves := t.waves, teams := t.teams } ∧
      t.team team = { x with rgnstat := 1, rgnatt := 1, region := some ⟨ck, [], [], false, false, [], []⟩ } ∧
      (∀ y ∈ l, t.wave y.1 = (s.wave y.1).resumed y.2.2.1) ∧
      ck.failed = [] ∧ ck.waves.map Wave.index = l.map (fun y => (s.wave y.1).index) ∧
      ck.waves.map Wave.rows = l.map (fun y => (s.wave y.1).rows.filter (fun r => (rgnbMask (s.wave y.1) y.2.2.2).getLsbD r.1)) ∧
      ∀ y, l.head? = some y → ∀ f, y.2.2.2 = .rgnb f →
        let wins := [windowOf ((s.wave y.1).sreg f.b 0), windowOf ((s.wave y.1).sreg (f.b + 1) 0)]
        ∀ a, cellGet ck.bytes a = if ∃ w ∈ wins, w.1 ≤ a ∧ a < w.1 + w.2 then cellGet x.sp a else 0) ∧
    ((∀ y ∈ l, ∃ f, y.2.2.2 = .rgnc f) →
      (struck = [] → s.heldPoison team = [] → (x.region.map Region.overfull).getD false = false →
        (s.core x.core).l1.length ≤ (s.core x.core).l1Cap →
        (∀ h ∈ s.heldLines team, h.ctx = x.ctx ∧ (h.bytes.map Prod.fst).Nodup) → ((s.heldLines team).map Line.vline).Nodup →
        let owners := l.map (fun y => (s.wave y.1).uid)
        ∃ t, exec (.rendezvousComplete team) s = .next t ∧ t = { s with cores := t.cores, teams := t.teams } ∧
          t.team team = { x with region := x.region.map (fun r => { r with
            committing := true, journal := (s.journalOf team).filter (fun j => ((s.core x.core).byteIn x.ctx j.1 none).isNone) }) } ∧
          t.heldLines team = [] ∧
          ∀ va, (t.core x.core).byteIn x.ctx va none =
            match (s.core x.core).byteIn x.ctx va (some team), (s.core x.core).byteIn x.ctx va none, (s.journalOf team).reverse.find? (fun j => j.1 = va) with
            | some b, _, _ => some ⟨b.val, b.pois, true, owners⟩
            | none, some _, some j => some ⟨j.2.2.val, j.2.2.pois, true, owners⟩
            | none, b, _ => b) ∧
      (∀ va rest, struck = va :: rest → rgnErrs x.rgnstat < 2 →
        ∃ t, exec (.rendezvousComplete team) s = .next t ∧ t.teamWaves team = [] ∧ t.heldLines team = [] ∧
          let y := t.team team
          y.resident = false ∧ y.replay = some (dieOf x.core, clusterOf x.core, s.clock) ∧ y.rgnatt = x.rgnatt + 1 ∧
          y.rgnstat.extractLsb' 6 2 = 1#2 ∧ y.rgnstat.extractLsb' 4 2 = x.rgnstat.extractLsb' 4 2 + 1 ∧
          ∀ r, x.region = some r → y.sp = r.ck.bytes ∧
            y.region.map (fun q => q.ck.failed) = some (r.ck.failed ++ [(dieOf x.core, clusterOf x.core)])) ∧
      (∀ a rest, struck = [] → s.heldPoison team = a :: rest → ∃ t, exec (.rendezvousComplete team) s = .next t ∧
        trapped t 0x0D (BitVec.ofNat 64 (rest.foldl min a)) (fun _ _ => x.rgnstat)) ∧
      (struck = [] → s.heldPoison team = [] → (x.region.map Region.overfull).getD false = true → ∃ t, exec (.rendezvousComplete team) s = .next t ∧
        trapped t 0x11 0 (fun _ _ => 0))) ∧
    ((∀ y ∈ l, (∃ f, y.2.2.2 = .regrp f) ∧ y.1.core = x.core) →
      (∀ a, x.midPhase = some a → ∃ t, exec (.rendezvousComplete team) s = .next t ∧
        trapped t 0x10 (BitVec.ofNat 64 a) (fun k pc => s.wordAt k pc)) ∧
      (x.midPhase = none → s.midGroup team = false → whole → x.declared ≤ 32 →
        let pack := (l.head?.map (fun y => regrpPack y.2.2.2)).getD false
        let layout := if !pack && s.unpackedFits team l.length (unpacked (movers l)) then unpacked (movers l) else packed (movers l)
        let rest : State := { s with waves := s.waves.filter (fun p => p.2.team ≠ team) }
        (layout.map groupRows).sum ≤ rest.rowsFree x.core →
        (layout.length ≤ l.length ∨ (placeSlots (layout.length - l.length) (rest.usedSlots x.core ++ l.map (fun y => y.1.slot))).isSome) →
        layout.flatten.Perm (movers l) ∧ (∀ g ∈ layout, g ≠ [] ∧ g.length ≤ 32) ∧
        ∃ t, exec (.rendezvousComplete team) s = .next t ∧ t.mem = s.mem ∧ (t.team team).liveWaves = layout.length ∧
          (∀ k w, assocGet s.waves k = some w → w.team ≠ team → assocGet t.waves k = some w) ∧
          ∀ (j : Nat) (g : List Mover), layout[j]? = some g → ∃ (k : WaveKey) (w : Wave), assocGet t.waves k = some w ∧ k.core = x.core ∧ w.index = BitVec.ofNat 5 j ∧
            ∀ (i : Fin 32) (m : Mover), g[i.val]? = some m →
              w.lanes[i] = { m.wave.lanes[m.lane] with
                pc := (l.head?.map (fun y => y.2.2.1.next)).getD 0, block := .none, stopped := false, passed := 0, yieldSpan := .none } ∧
              let d := (g.head?.map (fun m => regrpDest m.instr)).getD 63
              (∀ n, n < 62 → m.mask.getLsbD n = true → n ≠ d.toNat →
                w.vword n i = m.wave.vword n m.lane ∧ (w.vpois n).getLsbD i.val = (m.wave.vpois n).getLsbD m.lane.val) ∧
              (d.toNat < 62 → w.vword d.toNat i =
                BitVec.ofNat 32 ((if ∃ m' ∈ g, m'.key ≠ m.key then 0x40000 else 0) + m.key * 1024 + j * 32 + i.val))))) ∧
  ((x.region.map Region.committing).getD false = true →
    let owners := l.map (fun y => (s.wave y.1).uid)
    let closed := { x with rgnstat := x.rgnstat &&& ~~~1#32, region := none }
    let goes := fun (t : State) => t.team team = closed ∧ ∀ y ∈ l, t.wave y.1 = (s.wave y.1).resumed y.2.2.1
    let acked := ∀ o ∈ owners, s.pushing o s.nextId [] = false
    (journal ≠ [] → ∃ t, exec (.rgncCompletion team) s = .next t ∧ t.waves = s.waves ∧ t.mem = s.mem ∧
      t.team team = { x with region := x.region.map (fun r => { r with journal := [] }) } ∧
      ∀ j ∈ journal, ∃ q ∈ t.net, q.core = x.core ∧ q.owners = owners ∧ ∃ bs, q.kind = .write bs [] ∧ (j.2.1, j.2.2) ∈ bs) ∧
    (journal = [] → ¬ acked → exec (.rgncCompletion team) s = .next s) ∧
    (journal = [] → acked → (x.region.map Region.atomics).getD [] = [] →
      ∃ t, exec (.rgncCompletion team) s = .next t ∧ t = { s with teams := t.teams, waves := t.waves } ∧ goes t) ∧
    (journal = [] → acked → ∀ h a, (x.region.map Region.atomics).getD [] = [h] → h.accs = [a] → 2 ≤ h.scope →
      (s.core x.core).line x.ctx a.home.1 none = none → (∀ r ∈ s.net, r.pline ≠ a.home.2) → ∃ t, exec (.rgncCompletion team) s = .next t ∧
        t.mem = ((a.bytes.map ByteAcc.pa).zip (atomBytes h.aop (a.bytes.map (fun b => s.homeByte b.pa)) a.data)).foldl
          (fun m b => cellSet m b.1 b.2.val) s.mem ∧ goes t)) ∧
  (∀ (k : WaveKey) (wt : Wait) (i : Instr), (s.wave k).rdvWait = some (wt, i) → (s.wave k).canEnd wt → (s.wave k).canTrap →
    ((s.team (s.wave k).team).region.map Region.committing).getD false = false →
    (s.context (s.wave k).ctx).frozenAt = none → wt.limit ≠ 0 → wt.since + wt.limit.toNat * 1500 < s.clock →
    ∃ t, exec (.rendezvousTimeout k) s = .next t ∧
      t.wave k = ((s.wave k).unblocked wt).entered 0x0F wt.pc wt.lanes 0xFFFFFFFF (s.wordAt k wt.pc) ∧
      t = { s with waves := t.waves, log := t.log, logSeq := s.logSeq + 1, logLost := t.logLost } ∧ ∃ r ∈ t.log, r.kind = 0x0002 ∧ r.seq = s.logSeq) ∧
  (∀ plan, s.replayDue = some team → s.replayPlacing team = .bind plan → ∃ t, exec (.replayPlacement team) s = .next t ∧
    t = { s with cores := t.cores, crews := t.crews } ∧ (t.crew x.crew).bound = plan.map (fun p => (p.1, p.2.1))) ∧
  (∀ c places, s.replayDue = some team → s.replayPlacing team = .at c places → (s.teams.map Prod.fst).Nodup →
    (places.map Prod.fst).Nodup → (places.map Prod.snd).Nodup →
    (x.region = none ∨ x.rgnstat.getLsbD 0 = true → ∃ t, exec (.replayPlacement team) s = .next t ∧
      (t.crew x.crew).place = some c ∧ t.mem = s.mem ∧
      ∀ p ∈ places, (t.team p.1).resident = true ∧ (t.team p.1).core = p.2 ∧ p.2 / 4 = c ∧ (t.team p.1).replay = none ∧ (t.team p.1).saved = none) ∧
    (x.region.isSome = true → x.rgnstat.getLsbD 0 = false → s.teamWaves team = [] → (∀ r, x.region = some r → r.ck.failed.length ≤ 3) →
      (∀ p ∈ places, ∀ ws, (s.team p.1).saved = some ws → ∀ w ∈ ws, w.canTrap) → ∃ t, exec (.replayPlacement team) s = .next t ∧
        (t.team team).region = none ∧ (∃ r ∈ t.log, r.kind = 0x0009 ∧ r.seq = s.logSeq) ∧
        ∀ p ∈ t.waves, p.2.team = team → p.2.handler = true ∧ p.2.tcause = 0x12 ∧ p.2.tinfo = x.rgnatt))

/-! ### Tasks and teams -/

/-- R304 to R308, R312, R315, R265, R266, R451: taking grains, triggering, spawning, and the work of the dispatchers. -/
def Obligations.TasksRun : Prop := ∀ s : State,
  (∀ f : UCC, s.cur.qp f.qg = false → s.cur.q f.qg ≠ f.qn → s.regionOpen s.cur.team = false →
    let c := s.curTeam.crew
    let k := s.crew c
    let x := s.task s.curTeam.task
    (k.lo < k.hi → ∃ passes, exec (.ttake f) s = .next (({ s with passes := passes }.setCrew c { k with lo := k.lo + 1 }).setWave s.sel.key
        (((s.moved.setS f.a (BitVec.ofNat 32 k.lo) false).setS (f.a + 1) (BitVec.ofNat 32 (k.lo / 2 ^ 32)) false).setQ f.qd false false)) ∧
      (s.openPass x.ctx x.queue = none → passes = s.passes) ∧
      (∀ p, s.openPass x.ctx x.queue = some p → p.hasTask x.ctx x.queue x.num = true → (∀ g ∈ p.grains, g.n ≠ k.lo) →
        { p with grains := p.grains ++ [⟨k.lo, c, false, 0⟩] } ∈ passes)) ∧
    (k.hi ≤ k.lo → exec (.ttake f) s = .next (s.setWave s.sel.key (s.moved.setQ f.qd true false)))) ∧
  (∀ f : U3, s.cur.qp f.qg = false → s.cur.q f.qg ≠ f.qn → s.regionOpen s.cur.team = false →
    exec (.ttrig f) s = .next (({ s with nextId := s.nextId + 1 }).setWave s.sel.key { s.moved with
      fences := s.cur.fences ++ [(⟨.trigger s.sel.mask, 4, s.nextId, none⟩ : Fence)] })) ∧
  (∀ (k : WaveKey) (m : LaneMask) (scope upTo : Nat) (pushed : Option Nat) (rest : List Fence),
    (s.wave k).fences = ⟨.trigger m, scope, upTo, pushed⟩ :: rest → 2 ≤ scope →
    let marked : Wave := { s.wave k with
      fences := rest
      lanes := Vector.ofFn (fun i => if m.getLsbD i.val then { (s.wave k).lanes[i] with trig := true } else (s.wave k).lanes[i]) }
    (∀ n, pushed = some n → s.pushing (s.wave k).uid n [] = false → exec (.ttrigMark k) s = .next (s.setWave k marked)) ∧
    (pushed = none → s.releaseReady k upTo scope = true →
      ∃ t, exec (.ttrigMark k) s = .next t ∧ t.teams = s.teams ∧ t.mem = s.mem ∧
        (t.wave k = { marked with rdcKept := [] } ∨
          ∃ n, t.wave k = { s.wave k with rdcKept := [], fences := ⟨.trigger m, scope, upTo, some n⟩ :: rest }) ∧
        ∀ l ∈ (t.core k.core).l1, l.held = none → l.pline ∉ s.heldBackLines k → ∀ b ∈ l.bytes, b.2.dirty = true → (s.wave k).uid ∉ b.2.owners)) ∧
  (∀ f : UR, s.RingReady f true → s.regionOpen s.cur.team = false → assocGet s.cur.spawning s.sel.pc = none → Memory.wf s.curTeam.sp →
    let a := (s.cur.sreg f.a 0).toNat
    let d := (s.cur.sreg f.d 0).toNat
    let word := fun (o : Nat) => s.curTeam.spWord (a + o)
    let slot := (word 0x10 % word 12).toNat
    let dst := va56 ((pairOf (word 0) (word 4)).toNat + 64 * slot)
    d % 64 = 0 → d + 64 ≤ s.curTeam.spSize → word 8 = 64 → (∀ i, i < 64 → s.curTeam.wordPois (d + i) = false) →
    ((word 12).toNat ≤ (word 0x10 - word 0x1C).toNat →
      (f.w = false → exec (.tspawn f) s = .next (s.setWave s.sel.key (s.moved.setQ f.qd false false))) ∧
      (f.w = true → exec (.tspawn f) s = .next (s.setWave s.sel.key (s.waiting s.cur (.ring .tspawn f none))))) ∧
    ((word 0x10 - word 0x1C).toNat < (word 12).toNat → dst + 64 ≤ s.curTeam.spSize → (dst + 64 ≤ a ∨ a + 32 ≤ dst) →
      (d + 64 ≤ a ∨ a + 32 ≤ d) → s.cur.earlierDone s.nextId [.ld, .st] = true →
      ∃ t, exec (.tspawn f) s = .next t ∧ t = { s with waves := t.waves, teams := t.teams, lastDepEval := t.lastDepEval } ∧
        let first := word 0x14 % word 12 = word 0x10 % word 12
        t.lastDepEval = (if first then none else s.lastDepEval) ∧
        let x := t.team s.cur.team
        x.spWord (a + 0x10) = word 0x10 + 1 ∧ x.spWord (a + 0x14) = (if first then word 0x14 + 1 else word 0x14) ∧
        (∀ i, i < 64 → cellGet x.sp (dst + i) = cellGet s.curTeam.sp (d + i)) ∧
        (∀ b, (b < a + 0x10 ∨ a + 0x18 ≤ b) → (b < dst ∨ dst + 64 ≤ b) → cellGet x.sp b = cellGet s.curTeam.sp b) ∧
        t.wave s.sel.key = if first then { s.moved.setQ f.qd true false with spawning := assocErase s.cur.spawning s.sel.pc }
          else { s.waiting s.cur (.ring .tspawn f none) with spawning := assocSet s.cur.spawning s.sel.pc (slot, true) })) ∧
  (∀ c q slot, s.allQueues = [(c, q)] → s.chosen = none → (s.queue c q).head = some slot → (s.queue c q).running.takeWhile Prod.snd = [] →
    let x := s.queue c q
    let b := x.headBytes
    let after := fun (t : State) (dep : Bool) =>
      let ready := dep && t.rtabReach c b ≠ .later && !s.passBars c q x.headNum && (!TaskRec.qbar b || x.running.all Prod.snd) && (!TaskRec.trigw b || s.prevTriggered c q)
      { x with headReady := ready, readySince := if ready && !x.headReady && x.readySince = 0 then s.clock else x.readySince }
    (TaskRec.depc b = 0 → exec .dependenceReevaluation s = .next { s.setQueue c q (after s true) with lastDepEval := some s.clock }) ∧
    (TaskRec.depc b ≠ 0 → s.engineReach c (TaskRec.depc b) 4 .read = .ok → (s.vaBytes c (TaskRec.depc b) 4).any MByte.pois = false →
      ∃ t, exec .dependenceReevaluation s = .next t ∧ t.lastDepEval = some s.clock ∧ t.queue c q =
        after t (decide (0 ≤ (BitVec.ofNat 32 (bytesNat (s.vaBytes c (TaskRec.depc b) 4)) - TaskRec.dept b).toInt)))) ∧
  (∀ c q, s.allQueues = [(c, q)] → s.chosen = none → (s.queue c q).head = none → (s.queue c q).aborted = false → s.blockOk c (s.queue c q) = true →
    (s.queue c q).running.takeWhile Prod.snd = [] →
    let x := s.queue c q
    let peek := s.blockWord c x 24
    let slot := (peek % s.blockWord c x 12).toNat
    let a := s.slotAddr c x slot
    s.blockWord c x 20 ≠ peek →
    (s.engineReach c a 64 .read = .ok → (s.vaBytes c a 64).any MByte.pois = false →
      let b := (s.vaBytes c a 64).map MByte.val
      TaskRec.valid b x.render = true → TaskRec.depc b = 0 → ∃ t, exec .dependenceReevaluation s = .next t ∧
        (t.queue c q).head = some slot ∧ (t.queue c q).headBytes = b ∧ (t.queue c q).headNum = peek.toNat) ∧
    (∀ va, s.engineReach c a 64 .read = .fail va → ∃ t, exec (.dispatcherAccessFault c q 0) s = .next t ∧
      (t.queue c q).head = none ∧ s.taskInvLogged t q slot a va 0)) ∧
  (∀ c q slot va, (s.queue c q).head = some slot → (∀ x ∈ s.chosen, (x.1, x.2.1) ≠ (c, q)) → TaskRec.depc (s.queue c q).headBytes ≠ 0 →
    TaskRec.crec (s.queue c q).headBytes = 0 → s.engineReach c (TaskRec.depc (s.queue c q).headBytes) 4 .read = .fail va →
    ∃ t, exec (.dispatcherAccessFault c q 1) s = .next t ∧ (t.queue c q).head = none ∧
      s.taskInvLogged t q slot (s.slotAddr c (s.queue c q) slot) va 0) ∧
  (∀ c q slot, s.chosen = none → s.bestHead = some (c, q) → (s.queue c q).head = some slot → s.replayDue.isSome = true →
    (∀ p ∈ s.teams, p.1 < s.nextId ∧ p.2.crew < s.nextId) →
    let x := s.queue c q
    ∃ t, exec .taskSelect s = .next t ∧ t.chosen = some (c, q, s.nextId) ∧ t.lastChosen = (c, q) ∧ t.mem = s.mem ∧ t.waves = s.waves ∧
      let k := t.task s.nextId
      k.ctx = c ∧ k.queue = q ∧ k.slot = slot ∧ k.num = x.headNum ∧ k.bytes = x.headBytes ∧ k.eff = min 3 (x.base + x.age) ∧
      (t.crew (s.nextId + 1)).task = s.nextId ∧ (t.crew (s.nextId + 1)).lo = TaskRec.rlo x.headBytes ∧ (t.crew (s.nextId + 1)).hi = TaskRec.rhi x.headBytes) ∧
  (∀ x crew k places, s.chosen = some x → s.CanStart crew places → s.chosenPlacing crew = .at k places →
    ∃ t, exec .taskSelect s = .next t ∧ s.launched t crew places k) ∧
  (∀ x crew plan, s.chosen = some x → s.crewWaits crew = true → s.chosenPlacing crew = .bind plan →
    ∃ t, exec .taskSelect s = .next t ∧ t = { s with cores := t.cores, crews := t.crews } ∧ (t.crew crew).bound = plan.map (fun p => (p.1, p.2.1))) ∧
  (∀ crew cluster places, s.CanStart crew places → s.crewDie crew = some (cluster / 32) → s.firstPlace crew cluster = some places →
    ∃ t, exec (.crewAdmission crew cluster) s = .next t ∧ s.launched t crew places cluster) ∧
  (∀ team core, s.CanStart (s.team team).crew [(team, core)] → s.crewTeams (s.team team).crew = [team] →
    s.crewDie (s.team team).crew = some (dieOf core) → s.firstPlace (s.team team).crew (core / 4) = some [(team, core)] →
    ∃ t, exec (.teamAdmission team core) s = .next t ∧ s.launched t (s.team team).crew [(team, core)] (core / 4)) ∧
  (∀ c q, let x := s.queue c q
    x.head.isSome = true → x.headReady = true → x.aborted = false → x.base + x.age < 3 → x.readySince + (x.age + 1) * 1500000 ≤ s.clock →
    (∀ y ∈ s.chosen, (y.1, y.2.1) ≠ (c, q)) → exec (.priorityAging c q) s = .next (s.setQueue c q { x with age := x.age + 1 })) ∧
  (∀ crew die, s.chosenCrew = some crew → die < 8 → (s.crew crew).waitSince + 1500000 < s.clock → (∀ d ∈ s.dies, ∀ r ∈ d.2.reserved, r.2 ≠ crew) →
    (s.die die).reserved = none → ∃ best, best < 32 ∧ (∀ c, c < 32 → s.freeSlots (die * 32 + c) ≤ s.freeSlots (die * 32 + best)) ∧
      (∀ c, c < best → s.freeSlots (die * 32 + c) < s.freeSlots (die * 32 + best)) ∧
      exec (.crewReservation crew die) s = .next (s.setDie die { s.die die with reserved := some (best, crew) })) ∧
  (∀ cluster (c : Crew) places, cluster < 256 → s.roomWanted cluster = false →
    s.splitCrew cluster (fun c => c.place.any (fun p => p / 32 = cluster / 32)) = some c → c.id < s.nextId →
    let x := s.task c.task
    let mid := c.lo + (c.hi - c.lo + 1) / 2
    let made := ((s.setCrew c.id { c with hi := mid }).mkCrew c.task mid c.hi).2
    x.nextTeam + TaskRec.crew x.bytes ≤ 2 ^ 32 → s.rtabReach x.ctx x.bytes = .ok → made.firstPlace s.nextId cluster = some places →
    ∃ t, exec (.rangeSplit cluster) s = .next t ∧ t.crew c.id = { c with hi := mid } ∧
      (t.crew s.nextId).lo = mid ∧ (t.crew s.nextId).hi = c.hi ∧ (t.crew s.nextId).task = c.task ∧ (t.crew s.nextId).first = x.nextTeam ∧
      (t.crew s.nextId).place = some cluster)

/-- R172, R173, R267, R317, R318: stopping, saving and restoring teams. -/
def Obligations.TeamsStopAndMove : Prop := ∀ s : State,
  (∀ team, (s.team team).resident = true → ∃ t, exec (.preemptRequest team) s = .next t ∧ s.asksToStop t (s.team team).crew .priority) ∧
  (∀ k why since, s.hasWave k = true → (s.team (s.wave k).team).preempt = some (why, since) → since + 150000 < s.clock → (s.wave k).stop = .running →
    (s.context (s.wave k).ctx).frozenAt = none → (∀ p ∈ s.teamWaves (s.wave k).team, p.2.holdsSection = false) →
    (assocGet s.scouts k = none → exec (.forcedStop k) s = .next (s.setWave k { s.wave k with stop := .forced })) ∧
    (∀ sc, assocGet s.scouts k = some sc →
      exec (.forcedStop k) s = .next ({ s with scouts := assocErase s.scouts k }.setWave k { sc.saved with stop := .forced }))) ∧
  (∀ team, let x := s.team team
    x.resident = true → x.preempt.isSome = true → (∀ m ∈ s.crewTeams x.crew, s.stoppedTeam m = true) → s.teamHome team = false →
    (s.waves.map Prod.fst).Nodup → ∃ t, exec (.teamSave team) s = .next t ∧ t.teams = s.teams ∧ t.mem = s.mem ∧
      ∀ p ∈ s.teamWaves team, ∀ l ∈ (t.core p.1.core).l1, l.held = none → l.pline ∉ s.heldBackLines p.1 → ∀ b ∈ l.bytes, b.2.dirty = true → p.2.uid ∉ b.2.owners) ∧
  (∀ team, let x := s.team team
    x.resident = true → x.preempt.isSome = true → (∀ m ∈ s.crewTeams x.crew, s.stoppedTeam m = true) → s.teamHome team = true →
    (s.waves.map Prod.fst).Nodup → (∀ p ∈ s.teamWaves team, ∀ r ∈ p.2.rows, r.2.par = 0) →
    (s.regionOpen team = false → ∃ t, exec (.teamSave team) s = .next t ∧ (t.team team).resident = false ∧ (t.team team).preempt = none ∧
      (t.team team).savedAt = s.clock ∧ t.teamWaves team = [] ∧
      ((t.team team).saved.getD []).map (fun w => (w.index, w.sregs, w.fpc, w.rows)) = (s.teamWaves team).map (fun p =>
        (p.2.index, p.2.sregs, p.2.fpc, ((p.2.rows ++ s.swappedRows p.1).filter (fun r => match p.2.stop with
          | .atSafepoint m => m.getLsbD r.1
          | _ => true)).map (fun r => (r.1, r.2.read))))) ∧
    (s.regionOpen team = true → ∀ r, x.region = some r → ∃ t, exec (.teamSave team) s = .next t ∧ (t.team team).resident = false ∧
      (t.team team).rgnstat = (x.rgnstat &&& 0xFFFF0030) ||| 0xC1 ∧ (t.team team).rgnatt = x.rgnatt ∧ (t.team team).sp = r.ck.bytes ∧
      ((t.team team).saved.getD []).map (fun w => (w.index, w.lanes, w.sregs)) = r.ck.waves.map (fun w => (w.index, w.lanes, w.sregs)))) ∧
  (∀ crew plan cluster, s.restoreDue = some crew → s.restorePlacing crew = .bind plan →
    ∃ t, exec (.teamRestore crew cluster) s = .next t ∧ t = { s with cores := t.cores, crews := t.crews } ∧
      (t.crew crew).bound = plan.map (fun p => (p.1, p.2.1))) ∧
  (∀ crew cluster places k l, s.restoreDue = some crew → s.restorePlacing crew = .at k l → s.restorePlace crew cluster = some places →
    ((s.crew crew).heat = true → k = cluster ∧ (s.crewPixel crew) = none) → (places.map Prod.fst).Nodup → (places.map Prod.snd).Nodup →
    (∀ p ∈ places, (placeSlots ((s.team p.1).saved.getD []).length (s.usedSlots p.2)).isSome) →
    ∃ t, exec (.teamRestore crew cluster) s = .next t ∧ (t.crew crew).place = some cluster ∧ (t.crew crew).saved = false ∧ t.mem = s.mem ∧
      (∀ p ∈ places, (t.team p.1).resident = true ∧ (t.team p.1).core = p.2 ∧ (t.team p.1).saved = none) ∧
      ∀ x, assocGet s.tasks (s.crew crew).task = some x → t.task (s.crew crew).task = { x with moved := true }) ∧
  (∀ c q n crew, s.chosen = some (c, q, n) → s.chosenCrew = some crew → (s.crew crew).waitSince + 150000 < s.clock → s.chosenPlacing crew = .wait →
    (s.crew crew).bound = [] → s.stopping = false →
    let lower := (s.crews.map Prod.snd).filter (fun k => s.crewResident k.id && s.crewEff k < (s.task n).eff)
    ∀ die, die < 8 → (∃ k ∈ lower, k.place.map (· / 32) = some die) → (∀ k ∈ lower, ∀ p ∈ k.place, die ≤ p / 32) →
    ∃ k ∈ lower, ∃ t, k.place.map (· / 32) = some die ∧
      (∀ j ∈ lower, j.place.map (· / 32) = some die → s.crewEff k < s.crewEff j ∨ (s.crewEff k = s.crewEff j ∧ j.startedAt ≤ k.startedAt)) ∧
      exec .priorityPreemption s = .next t ∧ s.asksToStop t k.id .priority) ∧
  (∀ team, let x := s.team team
    ∀ h, x.resident = true → x.preempt = none → x.placedAt + 75000000 < s.clock → (s.core x.core).hotSince = some h → h + 75000000 < s.clock →
    ((∃ k, k < 256 ∧ k ≠ x.core / 4 ∧ s.coolCluster k = true ∧ (s.placeMembers k x.crew (s.crewTeams x.crew) []).isSome = true) →
      ∃ t, exec (.thermalMigration team) s = .next t ∧ s.asksToStop t x.crew .thermal) ∧
    ((∀ k, k < 256 → k ≠ x.core / 4 → s.coolCluster k = true → s.placeMembers k x.crew (s.crewTeams x.crew) [] = none) →
      exec (.thermalMigration team) s = .next (s.setCore x.core { s.core x.core with slowed := true })))

/-! ### The core's own events -/

/-- R26, R27, R163, R164, R167 to R170, R177: a wave whose EXIT wait is over retires, or delivers the oldest failure due; free rows go to the head of
the queue; the wave blocked longest, or the youngest stalled one where all are, is swapped out, its slot of the swap area is filled, and it
comes back with the same words when its rows are granted; a split change takes what it can; a row leaves a draining granule; a lane with two
errors within the hour is retired once its core is empty. That the core is waited for, not emptied by pre-emption, is the model's choice
(log 71). -/
def Obligations.CoreManagement : Prop := ∀ s : State, (s.waves.map Prod.fst).Nodup →
  (∀ (k : WaveKey) (wt : Wait), (s.wave k).exitWait = some wt → (s.wave k).canEnd wt → (s.wave k).ops = [] → (s.wave k).fences = [] →
    s.rdcClear k.core (s.wave k) = true → (s.wave k).stop = .running →
    let classes : List Sys2Proof.Machine.Class := [.ld, .st, .cp, .tl, .nm, .rs, .fx]
    let team := (s.wave k).team
    ((∀ p, ¬ ({ s.wave k with handler := false } : Wave).due classes p) →
      ((∃ p ∈ s.waves, p.1 ≠ k ∧ p.2.team = team) → ∃ t, exec (.waveRetire k) s = .next t ∧ t.hasWave k = false ∧
        (t.team team).liveWaves = (s.team team).liveWaves - 1 ∧
        assocGet (t.team team).retired (s.wave k).index.toNat = some (s.wave k).exitPc) ∧
      ((∀ p ∈ s.waves, p.1 ≠ k → p.2.team ≠ team) → (s.regionOpen team = true → ∀ r, (s.team team).region = some r → r.struck = []) →
        ∃ t, exec (.waveRetire k) s = .next t ∧ t.hasWave k = false ∧ assocGet t.teams team = none)) ∧
    (∀ p, (s.wave k).oldestDue classes p → (s.wave k).canTrap → exec (.waveRetire k) s = .next (s.setWave k
      ({ (s.wave k).unblocked wt with pend := (s.wave k).pend.filter (fun y => y != p) }.entered
        (BitVec.ofNat 32 (p.fail.cause + if p.fail.precise then 0 else 256)) wt.pc wt.lanes p.fail.addr p.fail.info)))) ∧
  (∀ core, let queue := (s.core core).rowQueue
    let ready := ((s.coreWaves core).filter (fun p => p.2.swappedReady && queue.all (fun q => q.1 ≠ p.1.slot))).map (fun p => (p.1.slot, 0))
    (queue ++ ready = [] → exec (.rowGrant core) s = .next s) ∧
    (∀ slot n rest, queue ++ ready = (slot, n) :: rest →
      let k : WaveKey := ⟨core, slot⟩
      let w := s.wave k
      let need := n + ((w.swapped.map List.length).getD 0)
      let got := w.granted + min (s.rowsFree core) (need - w.granted)
      let leaves := w.swapped = none ∧ need ≤ got
      ∃ t, exec (.rowGrant core) s = .next t ∧ t = { s with waves := t.waves, cores := t.cores } ∧
        t.wave k = { w with granted := got, growStall := if leaves then false else w.growStall } ∧
        t.core core = { s.core core with rowQueue := if leaves then rest else (slot, n) :: rest } ∧
        (∀ j, j ≠ k → assocGet t.waves j = assocGet s.waves j) ∧ ∀ c, c ≠ core → assocGet t.cores c = assocGet s.cores c)) ∧
  (∀ k : WaveKey, (s.wave k).laneMask Lane.free = 0 → (s.wave k).released = none → (s.wave k).swapped = none →
    (∀ x ∈ (s.wave k).waits, x.swaps = true → x.since + 4096 < s.clock →
      exec (.swapCandidacyTimeout k) s = .next (s.setWave k { s.wave k with swapCandidate := true })) ∧
    ((∀ x ∈ (s.wave k).waits, x.swaps = true → s.clock ≤ x.since + 4096) → exec (.swapCandidacyTimeout k) s = .next s)) ∧
  (∀ k : WaveKey, s.rowsFree k.core < s.headLacks k.core →
    let blocked := fun (p : WaveKey × Wave) (since : Nat) => p.2.swapCandidate = true ∧ p.2.rows ≠ [] ∧ p.2.blockedSince = some since ∧ since + 4096 < s.clock
    ((∃ since, s.hasWave k = true ∧ blocked (k, s.wave k) since ∧ ∀ p ∈ s.coreWaves k.core, p.1 ≠ k → ∀ c, blocked p c → since < c) ∨
      ((∀ p ∈ s.coreWaves k.core, (∀ c, ¬ blocked p c) ∧ (p.2.growStall = true ∨ p.2.swapped.isSome = true)) ∧ s.youngestStalled k.core = some k)) →
    (s.core k.core).swapRows.length + (s.wave k).rows.length ≤ 256 → (∀ r ∈ (s.wave k).rows, r.2.par = 0) →
    exec (.swapOut k) s = .next ((s.setCore k.core { s.core k.core with
        swapRows := (s.core k.core).swapRows ++ (s.wave k).rows.map (fun r => (k.slot, r.1)) }).setWave k
      { s.wave k with rows := [], swapped := some (s.wave k).rows, swapCandidate := false })) ∧
  (∀ (k : WaveKey) rows, (s.wave k).swapped = some rows → (s.core k.core).swapNames k.slot ≠ [] → (rows.map Prod.fst).Nodup →
    (∀ r ∈ rows, r.1 < 62) → Memory.wf s.mem →
    let base := (s.context (s.wave k).ctx).swapBase + (k.core * 64 + k.slot) * 8192
    ∃ t, exec (.swapGranuleDrain k) s = .next t ∧ t.waves = s.waves ∧ t.teams = s.teams ∧ (t.core k.core).swapNames k.slot = [] ∧
      (∀ r ∈ rows, r.1 ∈ (s.core k.core).swapNames k.slot →
        (∀ i : Fin 32, leWord (cellTake t.mem (base + 128 * r.1 + 4 * i.val) 4) = r.2.words[i]) ∧
        leWord (cellTake t.mem (base + 0x1F00 + 4 * r.1) 4) = r.2.readers) ∧
      ∀ n, n < 62 → (BitVec.ofNat 64 (leNat (cellTake t.mem (base + 0x1FF8) 8))).getLsbD n = decide (n ∈ rows.map Prod.fst)) ∧
  (∀ (k : WaveKey) n rest rows, (s.core k.core).rowQueue = (k.slot, n) :: rest → (s.wave k).swapped = some rows → (∀ r ∈ rows, r.2.par = 0) →
    n + rows.length ≤ (s.wave k).granted →
    let base := (s.context (s.wave k).ctx).swapBase + (k.core * 64 + k.slot) * 8192
    let held := (s.core k.core).swapNames k.slot
    ∃ back, exec (.swapRestore k) s = .next ((s.setWave k { s.wave k with
          rows := back, swapped := none, growStall := false, granted := (s.wave k).granted - rows.length }).setCore k.core
        { s.core k.core with rowQueue := rest, swapRows := (s.core k.core).swapRows.filter (fun r => r.1 ≠ k.slot) }) ∧
      back.map Prod.fst = rows.map Prod.fst ∧ ∀ (i : Nat) (r b : Nat × Row), rows[i]? = some r → back[i]? = some b → b.2.pois = r.2.pois ∧
        (r.1 ∈ held → b.2.words = r.2.words ∧ b.2.readers = r.2.readers) ∧
        (r.1 ∉ held → (∀ j : Fin 32, b.2.words[j] = leWord (cellTake s.mem (base + 128 * r.1 + 4 * j.val) 4)) ∧
          b.2.readers = leWord (cellTake s.mem (base + 0x1F00 + 4 * r.1) 4))) ∧
  (∀ core, (s.core core).split = none → exec (.splitChange core) s = .next s) ∧
  (∀ core x, (s.core core).split = some x →
    let c := s.core core
    let n := min (c.l1Grans - 4) (x.target - c.scratchGrans)
    let empty := c.draining.filter (fun g => (s.placesMapped core).all (fun a => a / 256 ≠ g))
    let done := decide (x.target ≤ c.scratchGrans + n + empty.length)
    let after := fun (lines : List Line) => ({ c with
      l1 := lines, l1Grans := c.l1Grans - n, scratchGrans := c.scratchGrans + n + empty.length
      regGrans := c.regGrans.filter (fun g => !empty.contains g), draining := c.draining.filter (fun g => !empty.contains g)
      split := if done && (x.by_.filter s.wantsSplit).isNone then none else some ⟨x.target, x.by_.filter s.wantsSplit, done⟩ } : CoreSt)
    (c.l1.length ≤ (c.l1Grans - n) * 256 → exec (.splitChange core) s = .next (s.setCore core (after c.l1))) ∧
    (∃ t, exec (.splitChange core) s = .next t ∧ t.core core = after (t.core core).l1 ∧ t.mem = s.mem)) ∧
  (∀ (k : WaveKey) name r, (s.wave k).row name = some r →
    (r.place / 256 ∈ (s.core k.core).draining → 0 < s.rowsFree k.core → (s.core k.core).openGrans.Nodup →
      ∃ a, exec (.rowRelocation k name) s = .next (s.setWave k { s.wave k with rows := assocSet (s.wave k).rows name { r with place := a } }) ∧
        a / 256 ∈ (s.core k.core).openGrans ∧ a ∉ s.placesMapped k.core) ∧
    ((r.place / 256 ∉ (s.core k.core).draining ∨ s.rowsFree k.core = 0) → exec (.rowRelocation k name) s = .next s)) ∧
  (∀ core quarter phys, let c := s.core core
    let used := (assocGet c.remap quarter).isSome
    let faulty := quarter < 4 ∧ phys < 33 ∧ c.laneFaulty quarter phys = true
    (¬ faulty → exec (.laneRetirement core quarter phys) s = .next s) ∧
    (faulty → s.coreWaves core ≠ [] → exec (.laneRetirement core quarter phys) s = .next (s.setCore core { c with emptying := true })) ∧
    (faulty → s.coreWaves core = [] → ∃ t, exec (.laneRetirement core quarter phys) s = .next t ∧
      t = { s with cores := t.cores, log := t.log, logSeq := s.logSeq + 1, logLost := t.logLost } ∧
      t.core core = { c with
        laneErrors := c.laneErrors.filter (fun e => !(e.1 = quarter ∧ e.2.1 = phys)), emptying := false
        remap := if used then c.remap else assocSet c.remap quarter phys, inService := c.inService && !used } ∧
      ∃ r ∈ t.log, r.kind = 0x0004 ∧ r.seq = s.logSeq ∧ r.noctx = true))

/-! ### Matrices, copies, near-memory products -/

/-- R219 to R229: an MMA whose tiles are good is counted in TL with its operands, its accumulators mapped; it starts when the array is free
and its scales are there, the missing ones asked for first; at its completion each live lane's accumulators take acc plus the sums of its groups.
ACCST is counted in TL with its tile, which its completion writes; where its accumulators are still to come it takes them when they are complete.
The names are still mapped: of one freed meanwhile the model drops the late result (log 37). -/
def Obligations.MatrixOperations : Prop := ∀ s : State,
  (∀ (f : VT) (i : Instr) (op : BitVec 8),
    ((i = .mmad f ∧ op = 0x74#8) ∨ (i = .mmas f ∧ op = 0x75#8) ∨ (i = .mmah f ∧ op = 0x76#8) ∨ (i = .mmab f ∧ op = 0x77#8) ∨
      (i = .mman f ∧ op = 0x78#8) ∨ (i = .mmaq f ∧ op = 0x79#8) ∨ (i = .mmasp f ∧ op = 0x7A#8)) → s.MmaReady f (mmaSpec op) →
    let va := (s.cur.sreg f.sa 0).toNat
    let vb := (s.cur.sreg f.sb 0).toNat
    ∃ rows granted, s.mapsRows rows (vnames f.d 16) ∧ exec i s = .next (({ s with nextId := s.nextId + 1 }).setWave s.sel.key { s.moved with
      rows := rows, granted := granted
      ops := s.cur.ops ++ [(⟨s.nextId, .tl, s.sel.pc, s.sel.mask, .tile ⟨op, f.d.toNat, s.curTeam.header (va % 2 ^ 19), s.curTeam.header (vb % 2 ^ 19),
        va % 2 ^ 19, vb % 2 ^ 19, va / 2 ^ 20, vb / 2 ^ 20, (s.cur.sreg f.fn 0).toNat, none⟩ false [], false, none, s.clock⟩ : Op)] })) ∧
  (∀ (k : WaveKey) (id : Nat) (o : Op) (t : TileOp), (s.wave k).tileOp id = some (o, t, false) → s.missingScales k o t = [] → (s.core k.core).array = [] →
    (∀ p ∈ (s.wave k).ops, ∀ y l, p.kind = .tile y false l → p.id < id → p.done = true) →
    exec (.tileOpStart k id) s = .next ((s.setWave k ((s.wave k).setOp { o with kind := .tile t true o.kind.accs })).setCore k.core
      { s.core k.core with array := [(k, id)] })) ∧
  (∀ (k : WaveKey) (id : Nat) (o : Op) (t : TileOp) (started : Bool), (s.wave k).tileOp id = some (o, t, started) → s.replied k id = true → o.fail = none →
    let lacks := s.missingScales k o t
    let ranges := lacks.map (fun y => (y.2.2.2.2, scaleBytes y.2.1))
    (o.kind.accs = [] → lacks ≠ [] → s.reachAll (s.wave k).ctx ranges .read = .ok → s.struckHeld (s.wave k).team (ranges.flatMap rangeVas) = none →
      s.engineAsks (.cloveMissRead k id) k o ranges (.tile t started)) ∧
    (o.kind.accs ≠ [] → o.kind.accs.length ≤ 32768 → ∃ u, exec (.cloveMissRead k id) s = .next u ∧ u.teams = s.teams ∧ u.mem = s.mem ∧
      u.wave k = (s.wave k).setOp { o with kind := .tile t started [] } ∧
      ∀ y ∈ scalesGot (s.wave k).ctx o.kind.accs, ((u.core k.core).scale y.ctx y.tid y.row y.blk).isSome)) ∧
  (∀ (k : WaveKey) (id : Nat) (o : Op) (t : TileOp), (s.wave k).tileOp id = some (o, t, true) → s.missingScales k o t = [] → t.hit = none →
    (s.wave k).accWaits = false →
    let w := s.wave k
    let x := s.team w.team
    let m := mmaSpec t.op
    let a := fun (i j : Nat) => x.elem (dataStart t.addrA + i * rstride (TileHdr.klen t.hdrA) m.bits) m.bits (t.stepA * m.ktA + j)
    let b := fun (n j : Nat) => x.elem (dataStart t.addrB + n * rstride (TileHdr.klen t.hdrB) m.bits) m.bits (t.stepB * m.kt + j)
    let dirty := fun (i n : Nat) => (List.range m.kt).any (fun j => (a i j).2) || (List.range m.kt).any (fun j => (b n j).2)
    let one : Fp.Val := .num false 1 0 false
    let scale := (Fp.mulVal (Fp.mulVal (Fp.decode Fp.f32 false (TileHdr.tscale t.hdrA).toNat) (Fp.decode Fp.f32 false (TileHdr.tscale t.hdrB).toNat)).1
      (Fp.mulVal one one).1).1
    (∀ bad, t.badNibble x o.lanes = some bad → exec (.tileOpComplete k id) s = .next ((s.setCore k.core
      { s.core k.core with array := (s.core k.core).array.filter (fun e => e ≠ (k, id)) }).setWave k
        (w.finish id (some ⟨0x02, o.lanes, BitVec.ofNat 64 bad, o.pc, false⟩)))) ∧
    (t.badNibble x o.lanes = none → t.acc + 16 ≤ 62 → (∀ j, j < 16 → (w.row (t.acc + j)).isSome) →
      ∃ rows granted, let w' := { w with rows := rows, granted := granted }.finish id none
        exec (.tileOpComplete k id) s = .next ((s.setCore k.core
          { s.core k.core with array := (s.core k.core).array.filter (fun e => e ≠ (k, id)) }).setWave k w') ∧
        (∀ n, n < t.acc ∨ t.acc + 16 ≤ n → w'.row n = w.row n) ∧
        ∀ i : Fin 32, o.lanes.getLsbD i.val = true → w.lanes[i].status = .live →
          (t.op = 0x74#8 → ∀ n, n < 8 →
            pairOf (w'.vword (t.acc + 2 * n) i) (w'.vword (t.acc + 2 * n + 1) i) = BitVec.ofNat 64 ((List.range 8).foldl
              (fun c j => (Fp.fma Fp.f64 false (a i.val j).1 (b n j).1 c).1) (pairOf (w.vword (t.acc + 2 * n) i) (w.vword (t.acc + 2 * n + 1) i)).toNat) ∧
            (w'.vpois (t.acc + 2 * n)).getLsbD i.val = ((w.vpois (t.acc + 2 * n)).getLsbD i.val || (w.vpois (t.acc + 2 * n + 1)).getLsbD i.val || dirty i.val n)) ∧
          ((t.op = 0x75#8 ∨ t.op = 0x76#8 ∨ t.op = 0x77#8) → TileHdr.typ t.hdrA ≠ 4 → TileHdr.typ t.hdrB ≠ 4 → ∀ n, n < 16 →
            w'.vword (t.acc + n) i = BitVec.ofNat 32 ((List.range (m.kt / m.grp)).foldl (fun c g => groupStep Fp.f32 c
              ((List.range m.grp).map (fun j => (elemVal m.typ 0 (a i.val (m.grp * g + j)).1, elemVal m.typ 0 (b n (m.grp * g + j)).1))) scale)
              (w.vword (t.acc + n) i).toNat) ∧
            (w'.vpois (t.acc + n)).getLsbD i.val = ((w.vpois (t.acc + n)).getLsbD i.val || dirty i.val n)))) ∧
  (∀ (k : WaveKey) (id : Nat) (o : Op) (t : TileOp) (p : Op) (e : List (Nat × List MByte)) (y : AccLate),
    (s.wave k).tileOp id = some (o, t, true) → s.missingScales k o t = [] → t.hit = none → t.badNibble (s.team (s.wave k).team) o.lanes = none →
    p ∈ (s.wave k).ops → p.id ≠ id → p.done = false → p.kind = .accst ⟨e, some y⟩ →
    (∀ q ∈ (s.wave k).ops, q.id ≠ id → q.id < p.id → ∀ z b l, q.kind = .tile z b l → q.done = true) →
    ∃ u q writes, exec (.tileOpComplete k id) s = .next u ∧ q ∈ (u.wave k).ops ∧ q.id = p.id ∧ q.kind = .accst ⟨writes, none⟩ ∧
      writes = y.writes (u.rowsView k) p.lanes) ∧
  (∀ f : VT, s.begins (vnames f.d 16) 0 → (∀ c ∈ s.accstChecks f, c = none) → s.cur.accWaits = false → s.cur.swapped = none →
    let h := (s.cur.sreg f.sa 0).toNat % 2 ^ 19
    let cmd := s.cur.sreg f.sb 0
    (s.cur.accPending s.nextId f.d.toNat = true → ∃ y : AccLate, exec (.accst f) s = .next (s.issued .tl (.accst ⟨[], some y⟩)) ∧
      y.acc = f.d.toNat ∧ y.cmd = cmd ∧ y.header = h ∧ y.desc = cellTake s.curTeam.sp (s.cur.sreg (f.sb + 1) 0).toNat 32) ∧
    (s.cur.accPending s.nextId f.d.toNat = false →
    ∃ writes, exec (.accst f) s = .next (s.issued .tl (.accst ⟨writes, none⟩)) ∧ (∃ hdr, writes.head? = some (h, hdr) ∧ hdr.length = 32) ∧
      (∀ e ∈ writes.drop 1, ∃ i : Fin 32, s.sel.mask.getLsbD i.val = true ∧ e.1 = dataStart h + i.val * e.2.length) ∧
      (cmd = 0 → f.d.toNat + 16 ≤ 62 → ∀ i : Fin 32, s.sel.mask.getLsbD i.val = true → (dataStart h + i.val * 64, (List.range 16).flatMap (fun n =>
        (wordLe (s.cur.vword (f.d.toNat + n) i)).map (fun v => (⟨v, (s.cur.vpois (f.d.toNat + n)).getLsbD i.val⟩ : MByte)))) ∈ writes))) ∧
  (∀ (k : WaveKey) (id : Nat) (o : Op) (y : AccOp), (s.wave k).op id = some o → o.kind = .accst y → y.late = none → o.done = false →
    exec (.accstComplete k id) s = .next ((s.setTeam (s.wave k).team
      (y.writes.foldl (fun x e => x.putBytes e.1 e.2) (s.team (s.wave k).team))).setWave k ((s.wave k).finish id none)))

/-- R211 to R217, R409 to R413: a copy command and NMV whose operands are good are counted with them. A copy asks for its record, then checks it; a load
asks for its rows and scales, and when they have come puts the header and the rows into the scratchpad; a store sends the in-bounds elements home,
line by line; arrival at the barrier object, delivery to the members of a crew; NMV's products go to the scratchpad. -/
def Obligations.CopiesAndProducts : Prop := ∀ s : State,
  (∀ (f : UC) (i : Instr) (op : BitVec 8),
    ((i = .tload f ∧ op = 0xB7#8) ∨ (i = .tstore f ∧ op = 0xB8#8) ∨ (i = .tgath f ∧ op = 0xB9#8) ∨ (i = .tmcast f ∧ op = 0xBA#8)) →
    s.CopyReady f (decide (op = 0xBA#8)) →
    exec i s = .next (s.issued .cp (.copy ⟨op, (s.cur.spair f.a).toNat % 2 ^ 56, s.cur.sreg f.b 0, s.cur.sreg (f.b + 1) 0,
      (s.cur.sreg f.c 0).toNat % 2 ^ 19, if op = 0xBA#8 then (s.cur.sreg f.c 0).extractLsb' 24 4 else 0, s.cur.sreg f.fn 0⟩ none [] none))) ∧
  (∀ (k : WaveKey) (o : Op) (c : CopyOp), s.CopyAt k o c none [] → s.reachAll (s.wave k).ctx [(c.record, 64)] .read = .ok →
    s.struckHeld (s.wave k).team (rangeVas (c.record, 64)) = none →
    s.engineAsks (.copyTransfer k o.id) k o [(c.record, 64)] (fun accs => .copy c none accs none)) ∧
  (∀ (k : WaveKey) (o : Op) (c : CopyOp) (a : LaneAcc) (rest : List LaneAcc), s.CopyAt k o c none (a :: rest) →
    let b := a.bytesGot.map MByte.val
    let fails := fun (cause : Nat) => exec (.copyTransfer k o.id) s = .next (s.setWave k ((s.wave k).finish o.id (some ⟨cause, o.lanes,
      BitVec.ofNat 64 c.record, o.pc, false⟩)))
    (a.bytesGot.any MByte.pois = true → fails 0x0D) ∧
    (a.bytesGot.any MByte.pois = false → Shape.valid b = false → fails 0x02) ∧
    (a.bytesGot.any MByte.pois = false → Shape.valid b = true →
      exec (.copyTransfer k o.id) s = .next (s.setWave k ((s.wave k).setOp { o with kind := .copy c (some b) [] none })))) ∧
  (∀ (k : WaveKey) (o : Op) (c : CopyOp) (b : List Byte) (accs : List LaneAcc), s.CopyAt k o c (some b) accs →
    let x := s.wave k
    let t := s.team x.team
    let j : CopyJob := ⟨k, o, c, b⟩
    let moved := fun (hdr : List Byte) => (⟨j.span, dataStart c.header, hdr, [], [], 0, 0⟩ : Moved)
    let fails := fun (cause : Nat) => exec (.copyTransfer k o.id) s = .next (s.setWave k (x.finish o.id (some ⟨cause, o.lanes,
      BitVec.ofNat 64 c.header, o.pc, false⟩)))
    (accs = [] → ∀ cause, j.refused t = some cause → fails cause) ∧
    (accs = [] → j.refused t = none → c.op ≠ 0xB8#8 → j.asks t ≠ [] → s.reachAll x.ctx ((j.asks t).map Prod.fst) .read = .ok →
      s.struckHeld x.team (((j.asks t).map Prod.fst).flatMap rangeVas) = none →
      s.engineAsks (.copyTransfer k o.id) k o ((j.asks t).map Prod.fst) (fun l => .copy c (some b) l none)) ∧
    ((accs ≠ [] ∨ (j.refused t = none ∧ c.op ≠ 0xB8#8 ∧ j.asks t = [])) → (c.op = 0xB7#8 ∨ c.op = 0xB9#8) →
      (t.armedAt c.header j.span ≠ none → fails 0x10) ∧
      (t.armedAt c.header j.span = none → Memory.wf t.sp →
        ∃ u, exec (.copyTransfer k o.id) s = .next u ∧ (u.wave k).op o.id = some { o with kind := .copy c (some b) [] (some (moved j.hdr)) } ∧
        let data := (List.range j.nrows).flatMap (j.row accs)
        ∀ a, cellGet (u.team x.team).sp a =
          if c.header ≤ a ∧ a < c.header + 32 then (j.hdr[a - c.header]?).getD 0
          else if dataStart c.header ≤ a ∧ a < dataStart c.header + data.length then ((data[a - dataStart c.header]?).map MByte.val).getD 0
          else cellGet t.sp a)) ∧
    (accs = [] → j.refused t = none → c.op = 0xB8#8 →
      (t.armedAt c.header j.span ≠ none → fails 0x10) ∧
      (t.armedAt c.header j.span = none → s.regionOpen x.team = false →
        s.reachAll x.ctx ((j.rows t).filterMap (fun r => (j.run r.1).map (fun y => (y.1, y.2.1)))) .write = .ok →
        ∃ u, exec (.copyTransfer k o.id) s = .next u ∧ u.teams = s.teams ∧
          (u.wave k).op o.id = some { o with kind := .copy c (some b) [] (some (moved [])) } ∧
          ∀ v, (∀ y ∈ s.tileWrites j, lineAddr y.1 = v) → s.tileWrites j ≠ [] → s.markRange x.ctx v 1 .write = s →
            ∀ pa e ea, s.translate x.ctx v .write = .ok pa e ea → ∃ q ∈ u.net, q.by_ = .port k.core ∧ q.key = k ∧ q.op = o.id ∧ q.pline = lineAddr pa ∧
              ∃ low, q.kind = .write ((s.tileWrites j).map (fun y => (lineAddr pa + y.1 % 128, y.2.1))) low))) ∧
  (∀ (k : WaveKey) (id : Nat) (o : Op) (c : CopyOp) (r : Option (List Byte)) (l : List LaneAcc) (m : Moved), (s.wave k).op id = some o → o.done = false →
    o.kind = .copy c r l (some m) →
    let w := s.wave k
    let t := s.team w.team
    (c.members &&& ~~~m.finished = 0 → s.replied k id = true → o.fail = none →
      (m.failed ≠ 0 → exec (.copyArrival k id) s = .next (s.setWave k (w.finish o.id (some ⟨0x14, m.failed.setWidth 32, BitVec.ofNat 64 c.header, o.pc, false⟩)))) ∧
      (m.failed = 0 → (c.op = 0xBA#8 ∨ c.barrier = 0xFFFFFFFF) → exec (.copyArrival k id) s = .next (s.setWave k (w.finish id none))) ∧
      (m.failed = 0 → c.op ≠ 0xBA#8 → c.barrier ≠ 0xFFFFFFFF → t.kind2At c.barrier.toNat = true → Memory.wf t.sp → s.noStale w.team c.barrier.toNat →
        t.arrivedAt c.barrier.toNat + m.span < t.expect c.barrier.toNat → exec (.copyArrival k id) s =
          .next ((s.setTeam w.team (t.counted c.barrier.toNat m.span 0)).setWave k (w.finish id none)))) ∧
    (c.members &&& ~~~m.finished = 0 → s.replied k id = true → o.fail.isSome = true → exec (.copyArrival k id) s = .next (s.setWave k (w.finish id o.fail))) ∧
    (∀ member, member < 4 → (c.members &&& ~~~m.finished).getLsbD member = true →
      exec (.tmcastMemberDelivery k id member true) s = .next (s.setWave k (w.setOp { o with
        kind := .copy c r l (some { m with finished := m.finished ||| (1#4 <<< member), failed := m.failed ||| (1#4 <<< member) }) })) ∧
      (∀ i, s.memberTeam t.crew member = some i → s.memberFails (some i) c m = false → c.barrier = 0xFFFFFFFF → Memory.wf (s.team i).sp →
        c.header + 32 ≤ m.start → m.hdr.length = 32 →
        ∃ u, exec (.tmcastMemberDelivery k id member false) s = .next u ∧
          u.wave k = w.setOp { o with kind := .copy c r l (some { m with finished := m.finished ||| (1#4 <<< member) }) } ∧
          ∀ a, cellGet (u.team i).sp a =
            if c.header ≤ a ∧ a < c.header + 32 then (m.hdr[a - c.header]?).getD 0
            else if m.start ≤ a ∧ a < m.start + m.data.length then ((m.data[a - m.start]?).map MByte.val).getD 0
            else cellGet (s.team i).sp a))) ∧
  (∀ f : UC,
    let da := (s.cur.sreg f.a 0).toNat
    let xa := (s.cur.sreg f.b 0).toNat
    let ya := (s.cur.sreg f.c 0).toNat
    let b := cellTake s.curTeam.sp da 32
    s.cur.sregPois f.a = false → s.cur.sregPois f.b = false → s.cur.sregPois f.c = false → s.curTeam.headerPois da = false →
    da % 32 = 0 → xa % 8 = 0 → ya % 8 = 0 → da + 32 ≤ s.curTeam.spSize → xa + nmvXBytes f.fn b ≤ s.curTeam.spSize →
    ya + nmvYBytes f.fn b ≤ s.curTeam.spSize → nmvIllegal f.fn b da xa ya = false → s.curTeam.armedAt ya (nmvYBytes f.fn b) = none →
    exec (.nmv f) s = .next (s.issued .nm (.nmv b xa ya f.fn))) ∧
  (∀ (k : WaveKey) (id : Nat) (o : Op) (b : List Byte) (xa ya : Nat) (fn : BitVec 6), (s.wave k).op id = some o → o.kind = .nmv b xa ya fn → o.done = false →
    s.reachAll (s.wave k).ctx ((nmvPages fn b).map (fun p => (p, 1))) .read = .ok →
    (∀ p, s.nmvBadPage (s.wave k).ctx (nmvPages fn b) = some p → exec (.nmvComplete k id) s = .next (s.setWave k
      ((s.wave k).finish o.id (some ⟨0x02, o.lanes, BitVec.ofNat 64 p, o.pc, false⟩)))) ∧
    (s.nmvBadPage (s.wave k).ctx (nmvPages fn b) = none → Memory.wf (s.team (s.wave k).team).sp →
      ∃ u, exec (.nmvComplete k id) s = .next u ∧ u.wave k = (s.wave k).finish id none ∧
        let n := if nmvY64 fn then 8 else 4
        (∀ i, i < NmvDesc.m b → cellTake (u.team (s.wave k).team).sp (ya + n * i) n =
          leBytes n (s.nmvY (s.wave k).ctx (s.team (s.wave k).team) fn b xa i).1) ∧
        ∀ a, (a < ya ∨ ya + n * NmvDesc.m b ≤ a) → cellGet (u.team (s.wave k).team).sp a = cellGet (s.team (s.wave k).team).sp a))

/-! ### Dies, stacks, pages -/

/-- R281, R282, R283, R287, R298, R360, R363, R365, R367, R369, R370, R406, R407: the events of a die's network and links and of the stacks, and of the firmware's
page service. -/
def Obligations.DieAndPageEvents : Prop := ∀ s : State,
  let blocked := fun (k : Nat × Nat × Nat) (clocks : Nat) (told : Option (Nat × Nat)) (o : Nat × Nat × Nat) =>
    s.covers o = true ∧ o.2.2 = k.2.2 ∧ ((k.2.2 = 2 ∧ told = some (o.1, o.2.1)) ∨ (k.2.2 ≠ 2 ∧ ∃ q, s.headOf k = some q ∧
      q.movedAt + Config.networkClocks clocks ≤ s.clock ∧ s.wants q = some (.input o.1 o.2.1)))
  (∀ die router port cls outRouter outPort,
    let k := (router, port, cls)
    let x := s.input k
    let told := some (outRouter, outPort)
    ((∀ o, ¬ blocked k 4096 told o) → exec (.deadlockProbeSend die router port cls outRouter outPort) s = .next s) ∧
    ∀ o, blocked k 4096 told o → die = router / 16 → s.covers k = true →
      (x.probedAt = none ∨ ∃ t, x.probedAt = some t ∧ t + Config.networkClocks 4096 ≤ s.clock) →
      ∃ t, exec (.deadlockProbeSend die router port cls outRouter outPort) s = .next t ∧ t = { s with dies := t.dies, nextId := s.nextId + 1 } ∧
        t.input k = { x with probedAt := some s.clock, out := some (o.1, o.2.1) } ∧
        ((∃ d ∈ s.dies, ∃ q ∈ d.2.probes, q.at_ = o) → (t.die die).probes = (s.die die).probes ∧
          (t.die (o.1 / 16)).counters.dlklost = satInc (s.die (o.1 / 16)).counters.dlklost) ∧
        ((∀ d ∈ s.dies, ∀ q ∈ d.2.probes, q.at_ ≠ o) → (t.die die).counters = (s.die die).counters ∧
          (t.die die).probes = (s.die die).probes ++ [⟨s.nextId, k, o⟩])) ∧
  (∀ die probe head p, (s.dies.map Prod.fst).Nodup → (s.die die).probes.find? (fun q => q.id = probe) = some p →
    let d := s.die die
    let left := d.probes.filter (fun q => q.id ≠ probe)
    ((∀ o, ¬ blocked p.at_ 256 head o) → ∃ t, exec (.probeForward die probe head) s = .next t ∧ t = { s with dies := t.dies } ∧
      (t.die die).probes = left ∧ (t.die (p.at_.1 / 16)).counters.dlklost = satInc (s.die (p.at_.1 / 16)).counters.dlklost) ∧
    ∀ o, blocked p.at_ 256 head o →
      (o = p.origin → ∃ t, exec (.probeForward die probe head) s = .next t ∧ (t.die die).probes = left ∧
        (t.die die).tokens = d.tokens ++ [⟨s.nextId, p.origin, [], false⟩] ∧ t.nextId = s.nextId + 1) ∧
      (o ≠ p.origin → (∀ e ∈ s.dies, ∀ q ∈ e.2.probes, (e.1 = die → q.id ≠ probe) → q.at_ ≠ o) →
        ∃ t, exec (.probeForward die probe head) s = .next t ∧ (t.die die).probes = left ++ [{ p with at_ := o }] ∧
          (t.die die).tokens = d.tokens ∧ (t.die die).counters = d.counters)) ∧
  (∀ die token t, (s.die die).token token = some t →
    let d := s.die die
    let at_ := (t.visited.getLast?).getD t.origin
    let abandoned := fun (u : State) => u = { s with dies := u.dies } ∧ (u.die die).tokens = d.tokens.filter (fun x => x.id ≠ t.id) ∧
      (u.input t.origin).probedAt = some s.clock ∧ ∀ v ∈ t.visited, (u.input v).slot = false
    (t.closed = false →
      ((∀ k, ¬ blocked at_ 0 (s.input at_).out k) → ∃ u, exec (.recoveryToken die token) s = .next u ∧ abandoned u) ∧
      (∀ k, blocked at_ 0 (s.input at_).out k →
        ((s.input k).slot = false → (∀ q ∈ s.net, ¬ (q.spot = .slot k.1 k.2.1 ∧ q.cls = k.2.2)) →
          ∃ u, exec (.recoveryToken die token) s = .next u ∧ u = { s with dies := u.dies } ∧ (u.input k).slot = true ∧
            { t with visited := t.visited ++ [k], closed := decide (k = t.origin) } ∈ (u.die die).tokens) ∧
        ((s.input k).slot = true ∨ (∃ q ∈ s.net, q.spot = .slot k.1 k.2.1 ∧ q.cls = k.2.2) →
          ∃ u, exec (.recoveryToken die token) s = .next u ∧ abandoned u))) ∧
    (t.closed = true → (s.net.map Request.id).Nodup → ∃ u, exec (.recoveryShift die token) s = .next u ∧
      (u.die die).tokens = d.tokens.filter (fun x => x.id ≠ token) ∧ (u.die die).counters.dlkrec = satInc d.counters.dlkrec ∧
      (∀ v ∈ t.visited, (u.input v).slot = false) ∧ u.net.map Request.id = s.net.map Request.id ∧ u.waves = s.waves ∧ u.mem = s.mem ∧
      ∀ c ∈ List.zip (t.origin :: t.visited) t.visited, ∀ q, s.headOf c.1 = some q → s.wants q = some (.input c.2.1 c.2.2.1) →
        ∃ r ∈ u.net, r.id = q.id ∧ r.spot = .slot c.2.1 c.2.2.1 ∧ r.recoveries = min 2 (q.recoveries + 1) ∧ r.kind = q.kind ∧ r.leg = q.leg)) ∧
  (∀ die link,
    (4 ≤ link ∨ link ∈ (s.die die).deadLinks → exec (.linkReplay die link) s = .next s ∧ exec (.linkDead die link) s = .next s) ∧
    (link < 4 → link ∉ (s.die die).deadLinks →
      exec (.linkReplay die link) s = .next (s.setDie die { s.die die with
        counters := { (s.die die).counters with lnkreplay := satInc (s.die die).counters.lnkreplay } }) ∧
      ∃ t, exec (.linkDead die link) s = .next t ∧
        t = { s with dies := t.dies, net := t.net, log := t.log, logSeq := s.logSeq + 1, logLost := t.logLost } ∧
        link ∈ (t.die die).deadLinks ∧ linkBack link ∈ (t.die (neighbour die link)).deadLinks ∧
        (t.die die).counters.lnkdead = satInc (s.die die).counters.lnkdead ∧
        ((s.net.map Request.id).Nodup → ∀ q ∈ s.net,
          let on := q.spot = .input (16 * die + linkRouter link) 7 ∨ q.spot = .input (16 * neighbour die link + linkRouter (linkBack link)) 7
          (¬ on → q ∈ t.net) ∧ (on → q.dead = false → { q with spot := .lost } ∈ t.net)) ∧
        ∃ r ∈ t.log, r.kind = 0x0006 ∧ r.seq = s.logSeq ∧ r.body = [BitVec.ofNat 32 die, BitVec.ofNat 32 link])) ∧
  (∀ stack sector, stack < 16 → 32 * sector < 64 * 2 ^ 30 →
    let x := s.stack stack
    let e := fun (ue : Bool) => x.errs ++ [(sector * 32 / 2048 % 64, sector * 32 / 131072, s.clock, ue)]
    exec (.hbmScrub stack sector true) s = .next (s.setStack stack { x with errs := e false, hbmce := satInc x.hbmce }) ∧
    ∃ t, exec (.hbmScrub stack sector false) s = .next t ∧
      t = { s with hbm := t.hbm, poisoned := t.poisoned, log := t.log, logSeq := s.logSeq + 1, logLost := t.logLost } ∧
      t.stack stack = { x with errs := e true, hbmue := satInc x.hbmue } ∧ s.paOfStack stack (32 * sector) / 32 ∈ t.poisoned ∧
      ∃ r ∈ t.log, r.kind = 0x0003 ∧ r.seq = s.logSeq) ∧
  (∀ stack bank row, stack < 16 → (s.stack stack).rowFaulty bank row = true →
    let x := s.stack stack
    ∃ t code, exec (.bankRowRetirement stack bank row) s = .next t ∧ t = { s with hbm := t.hbm, log := t.log, logSeq := s.logSeq + 1, logLost := t.logLost } ∧
      (∃ r ∈ t.log, r.kind = 0x0004 ∧ r.seq = s.logSeq ∧ r.body.head? = some code) ∧
      ((x.used bank).length < 32 → code = 4 ∧ (t.stack stack).used bank = x.used bank ++ [row] ∧ (t.stack stack).rowret = satInc x.rowret) ∧
      (32 ≤ (x.used bank).length → code = 5 ∧ (bank, row) ∈ (t.stack stack).withdrawn)) ∧
  (∀ ctx i, s.invalidations.find? (fun i => i.ctx = ctx && s.invalidated i) = some i →
    ∃ t, exec (.invalidationComplete ctx) s = .next t ∧ t.invalidations = s.invalidations.erase i ∧ t.teams = s.teams ∧ t.waves = s.waves ∧ t.mem = s.mem ∧
      t.spoil = s.spoil ++ i.frees.map (fun f => (f.1, f.2, s.quiescence)) ∧
      (∀ d, d < 8 → (t.die d).epoch = (s.die d).epoch + 1 ∧ (t.die d).copies = []) ∧
      (i.hdr = none → t.outbox = s.outbox) ∧
      (∀ h, i.hdr = some h → s.hostPorts ≠ 0 → ∃ r, t.outbox = s.outbox ++ [⟨r, []⟩] ∧ r.resp = true ∧ r.seq = h.seq ∧ r.status = 0)) ∧
  (s.oldAccess = false → ∃ t, exec .quiescenceAdvance s = .next t ∧ t.quiescence = s.quiescence + 1 ∧ t.quiesceAt = s.clock ∧
    t.spoil = s.spoil.filter (fun f => !(f.2.2 + 2 ≤ s.quiescence + 1)) ∧
    ∀ a, cellGet t.mem a = if ∃ f ∈ s.spoil, f.2.2 + 2 ≤ s.quiescence + 1 ∧ f.1 ≤ a ∧ a < f.1 + f.2.1 then 0 else cellGet s.mem a) ∧
  (∀ (k : WaveKey) (wt : Wait) since nextAt back va level access fails, (s.wave k).waits = [wt] → wt.why = .migrating since nextAt back va level access fails →
    let w := s.wave k
    (nextAt ≤ s.clock →
      (∀ l, s.translate w.ctx va (accessOf access) = .migrating l → exec (.migrationRetry k) s = .next (s.setWave k { w with waits :=
        [{ wt with why := .migrating since (s.clock + min (2 * back) 24000) (min (2 * back) 24000) va level access fails }] })) ∧
      ((∀ l, s.translate w.ctx va (accessOf access) ≠ .migrating l) → exec (.migrationRetry k) s = .next (s.setWave k (w.unblocked wt)))) ∧
    (since + 3000000 ≤ s.clock → ∀ l, s.translate w.ctx va (accessOf access) = .migrating l → w.canTrap →
      exec (.migrationTimeout k) s = .next (s.setWave k ((w.unblocked wt).entered 0x08 wt.pc fails (BitVec.ofNat 64 va) (xlatInfo 7 l (accessOf access)))))) ∧
  (∀ (k : WaveKey) (wt : Wait) page access, (s.wave k).waits = [wt] → wt.why = .page [(page, access)] → access ≠ 3 →
    (∀ l, s.walk (s.wave k).ctx (page * 65536) = .none l → exec (.scoutBatchServiced k [.refused]) s = .next (s.setWave k
      { (s.wave k).unblocked wt with refused := (s.wave k).refused ++ [page] })) ∧
    (∀ m t, s.mapPages (s.wave k).ctx m none = (0, t) → (∀ l, t.walk (s.wave k).ctx (page * 65536) ≠ .none l) →
      exec (.scoutBatchServiced k [.mapped m]) s = .next (t.setWave k ((t.wave k).unblocked wt)))) ∧
  (∀ id f, s.faults.find? (fun f => f.id = id ∧ f.answered = none ∧ f.migratingSince = none) = some f →
    (∀ l, f.access ≠ 3 → s.walk f.ctx f.va = .none l → exec (.pageFaultServiced id .refused) s = .next { s with
      faults := s.faults.map (fun g => if g.id = id then { g with answered := some false } else g) }) ∧
    (∀ l, f.access = 3 → s.walk f.ctx f.va = .none l → ∃ t, exec (.pageFaultServiced id .refused) s = .next t ∧
      t.faults = s.faults.filter (fun g => g.id ≠ id) ∧ ∀ k w wt, assocGet s.waves k = some w → w.ctx = f.ctx → w.waits = [wt] →
        wt.why = .page [(f.va / 65536, 3)] → assocGet t.waves k = some { w.unblocked wt with refused := w.refused ++ [f.va / 65536] }) ∧
    (∀ m t, f.access ≠ 3 → s.mapPages f.ctx m none = (0, t) → (∀ l, t.walk f.ctx f.va ≠ .none l) →
      exec (.pageFaultServiced id (.mapped m)) s = .next { t with faults := t.faults.filter (fun g => g.id ≠ id) })) ∧
  (∀ ctx va toStack ea e l st,
    (∀ m ∈ s.migrations, ¬ (m.ctx = ctx ∧ m.va ≤ va ∧ va < m.va + m.size)) → s.walk ctx va = .leaf ea e l → s.window (Pte.frame e) = .local_ st →
    Pte.home e = 1 → Pte.state e = 0 → toStack < 16 → toStack / 2 = st / 2 → toStack ≠ st →
    ∀ dst s', s.allocRange 1 toStack (pageSize l) (pageSize l) ctx = some (dst, s') → Memory.wf s.mem →
    ∃ t, exec (.pageMigration ctx va toStack) s = .next t ∧ t.entryAt ea = Pte.withState e 2 ∧
      t.migrations = s.migrations ++ [⟨ctx, va / pageSize l * pageSize l, ea, pageSize l, Pte.frame e, dst⟩] ∧
      t.invalidations.length = s.invalidations.length + 1) ∧
  (∀ ctx va toStack m, s.migrations.find? (fun m => m.ctx = ctx ∧ m.va ≤ va ∧ va < m.va + m.size) = some m →
    (∀ i ∈ s.invalidations, ¬ (i.ctx = ctx ∧ i.va = m.va ∧ i.hdr = none)) → Pte.valid (s.entryAt m.entry) = true → Pte.leaf (s.entryAt m.entry) = true →
    Pte.state (s.entryAt m.entry) = 2 → Pte.frame (s.entryAt m.entry) = m.source → Memory.wf s.mem →
    (m.entry + 8 ≤ m.target ∨ m.target + m.size ≤ m.entry) →
    ∃ t, exec (.pageMigration ctx va toStack) s = .next t ∧ t.migrations = s.migrations.erase m ∧
      t.entryAt m.entry = Pte.withFrame (Pte.withState (s.entryAt m.entry) 0) m.target ∧
      ∀ i, i < m.size → cellGet t.mem (m.target + i) = cellGet s.mem (m.source + i)) ∧
  (∀ (k : WaveKey) (pc : Word),
    let w := s.wave k
    let m := w.laneMask (fun l => l.free && l.pc == pc)
    let va := (s.context w.ctx).codeVa pc
    let stands := fun (why : WaitWhy) => { w with
      lanes := Vector.ofFn (fun i => if m.getLsbD i.val then { w.lanes[i] with block := .waiting } else w.lanes[i])
      waits := w.waits ++ [(⟨m, pc, pc, s.clock, 0, why⟩ : Wait)] }
    m ≠ 0 →
    (∀ c r l, s.fetchXlat w.ctx pc = .fault c r l → w.canTrap →
      exec (.fetchFault k pc) s = .next (s.setWave k (w.entered (BitVec.ofNat 32 c) pc m (BitVec.ofNat 64 va) (xlatInfo r l .fetch)))) ∧
    (∀ l, s.fetchXlat w.ctx pc = .noPage l →
      (va / 65536 ∈ w.refused → w.canTrap → exec (.fetchFault k pc) s = .next (s.setWave k
        ({ w with refused := [] }.entered 0x08 pc m (BitVec.ofNat 64 va) (xlatInfo 0 l .fetch)))) ∧
      (va / 65536 ∉ w.refused → exec (.fetchFault k pc) s = .next (({ s with
        nextId := s.nextId + 1, faults := s.faults ++ [(⟨s.nextId, w.ctx, va, 3, none, none⟩ : PageFault)] }).setWave k (stands (.page [(va / 65536, 3)]))))) ∧
    (∀ l, s.fetchXlat w.ctx pc = .migrating l →
      exec (.fetchFault k pc) s = .next (s.setWave k (stands (.migrating s.clock (s.clock + 384) 384 va l 3 m)))))

/-! ### Pixel waves and render passes -/

/-- R392, R394 to R398, R403: the pixel instructions on a pixel wave outside an open region: exports are kept with their fragments, a kill ends
fragments and threads, a section is acquired when no fragment of lower sequence bars it and its acquire drops the clean bytes of the L1, a
release follows its fence; a section held past PXWDT aborts the queue. -/
def Obligations.PixelOperations : Prop := ∀ (s : State) (px : PixelWave),
  let ended := fun (t : State) (ctx qid : Nat) => (t.queue ctx qid).aborted = true ∧ (∀ p ∈ t.passes, ¬ (p.ctx = ctx ∧ p.qid = qid)) ∧
    ∃ r ∈ t.log, r.kind = 0x0008 ∧ r.body.take 2 = [0x15, BitVec.ofNat 32 qid]
  (s.cur.pixel = some px → s.regionOpen s.cur.team = false → s.unarmed →
    (∀ f : VX,
      let colour := !f.fn.getLsbD 4
      let depth := f.fn.getLsbD 3
      let n := (f.fn.extractLsb' 0 3).toNat
      let names := (if colour then vnames f.a 4 else []) ++ (if depth then vname f.b else [])
      let rec_ := ((s.openPass px.ctx px.queue).map Pass.rec_).getD []
      let acts := fun (g : Frag) => s.sel.mask.getLsbD g.lane && !g.killed
      s.begins names 0 → (∀ g ∈ px.frags, g.lane < 32) → (px.frags.map Frag.lane).Nodup →
      (∀ g ∈ px.frags, acts g = true →
        (colour = true → PassRec.fmt rec_ n ≠ 0 ∧ ∀ c ∈ g.colours, c.1 ≠ n) ∧ (depth = true → PassRec.dbase rec_ ≠ 0 ∧ g.depth = none) ∧
        ∀ x ∈ (if colour then vnames f.a 4 else []) ++ (if depth then [f.b.toNat] else []), (s.cur.vpois x).getLsbD g.lane = false) →
      exec (.pxexp f) s = .next (s.setWave s.sel.key { s.moved with pixel := some { px with frags := px.frags.map (fun g =>
        let word := fun (x : Nat) => if h : g.lane < 32 then s.cur.vword x ⟨g.lane, h⟩ else 0
        if acts g then { g with
          colours := if colour then g.colours ++ [(n, (List.range 4).map (fun j => word (f.a.toNat + j)))] else g.colours
          depth := if depth then some (word f.b.toNat) else g.depth }
        else g) } })) ∧
    (∀ f : V3, s.cur.guardPois s.sel.mask f.g = 0 →
      let e := s.cur.guardLanes s.sel.mask f.g f.gn
      let killed := some { px with frags := px.frags.map (fun g => if e.getLsbD g.lane then { g with killed := true, colours := [], depth := none } else g) }
      ((e = 0 ∨ s.cur.live &&& ~~~e ≠ 0) → exec (.pxkill f) s = .next (s.setWave s.sel.key { s.cur with
        pixel := killed
        lanes := Vector.ofFn (fun i =>
          if e.getLsbD i.val then { s.cur.lanes[i] with status := .exited, block := .none, stopped := false, pc := s.sel.pc }
          else if s.sel.mask.getLsbD i.val then { s.cur.lanes[i] with pc := s.sel.next } else s.cur.lanes[i])
        rows := (s.cur.rows.map (fun p => (p.1, { p.2 with readers := p.2.readers &&& ~~~e }))).filter (fun p => p.2.readers ≠ 0)
        exitPc := s.sel.pc })) ∧
      (e ≠ 0 → s.cur.live &&& ~~~e = 0 → exec (.pxkill f) s = .next (s.setWave s.sel.key { s.cur with
        pixel := killed
        lanes := Vector.ofFn (fun i => if e.getLsbD i.val then { s.cur.lanes[i] with block := .waiting } else s.cur.lanes[i])
        waits := s.cur.waits ++ [⟨e, s.sel.pc, s.sel.next, s.clock, 0, .exit⟩]
        exitPc := s.sel.pc })) ∧
      (let due := s.cur.fragLanes e (fun g => !g.locked && !s.cur.fragEnded g);
        (due = 0 → exec (.pxlock f) s = .next (s.setWave s.sel.key s.moved)) ∧
        (due ≠ 0 → (s.cur.earlierDone s.nextId [.ld] = false ∨ ∀ g ∈ px.frags, due.getLsbD g.lane = true → s.sectionBarred px g = true) →
          exec (.pxlock f) s = .next (s.setWave s.sel.key (s.waiting s.cur (.pixelSection due)))) ∧
        (due ≠ 0 → s.cur.earlierDone s.nextId [.ld] = true → (∀ g ∈ px.frags, g.lane < 32) → (px.frags.map Frag.lane).Nodup →
          (∀ g ∈ px.frags, due.getLsbD g.lane = true → s.sectionBarred px g = false) →
          ∃ t, exec (.pxlock f) s = .next t ∧ t.mem = s.mem ∧ t.teams = s.teams ∧
            t.wave s.sel.key = { s.moved with pixel := some { px with frags := px.frags.map (fun g =>
              if due.getLsbD g.lane then { g with locked := true, lockedAt := s.clock } else g) } } ∧
            ∀ l ∈ (t.core s.sel.key.core).l1, l.ctx = s.cur.ctx → l.held = none → ∀ b ∈ l.bytes, b.2.dirty = true)) ∧
      (let m := s.cur.fragLanes e (fun g => g.locked && !g.released);
        (m = 0 → exec (.pxrel f) s = .next (s.setWave s.sel.key s.moved)) ∧
        (m ≠ 0 → exec (.pxrel f) s = .next (({ s with nextId := s.nextId + 1 }).setWave s.sel.key { s.moved with
          fences := s.cur.fences ++ [(⟨.pixelRelease m, 3, s.nextId, none⟩ : Fence)] }))))) ∧
  (s.cur.pixel = none → s.regionOpen s.cur.team = false →
    (∀ f : VX, s.traps (.pxexp f) s.cur 0x02 s.sel.pc s.sel.mask 0 s.sel.word) ∧
    ∀ f : V3, s.traps (.pxkill f) s.cur 0x02 s.sel.pc s.sel.mask 0 s.sel.word ∧ s.traps (.pxlock f) s.cur 0x02 s.sel.pc s.sel.mask 0 s.sel.word ∧
      s.traps (.pxrel f) s.cur 0x02 s.sel.pc s.sel.mask 0 s.sel.word) ∧
  (s.regionOpen s.cur.team = true →
    (∀ f : VX, s.sel.mask ≠ 0 → s.traps (.pxexp f) s.cur 0x11 s.sel.pc s.sel.mask 0 s.sel.word) ∧
    ∀ f : V3, s.cur.guardLanes s.sel.mask f.g f.gn ≠ 0 →
      s.traps (.pxkill f) s.cur 0x11 s.sel.pc s.sel.mask 0 s.sel.word ∧ s.traps (.pxlock f) s.cur 0x11 s.sel.pc s.sel.mask 0 0 ∧
        s.traps (.pxrel f) s.cur 0x11 s.sel.pc s.sel.mask 0 s.sel.word) ∧
  (∀ (k : WaveKey) (x : Wait) (m : LaneMask), (s.wave k).waits = [x] → x.why = .pixelSection m → (s.wave k).pixel = some px →
    (s.wave k).earlierDone s.nextId [.ld] = true → (∀ g ∈ px.frags, g.lane < 32) → (px.frags.map Frag.lane).Nodup →
    (∀ g ∈ px.frags, m.getLsbD g.lane = true → g.locked = false ∧ (s.wave k).fragEnded g = false ∧ s.sectionBarred px g = false) →
    ∃ t, exec (.sectionAcquire k x.pc) s = .next t ∧ t.mem = s.mem ∧ t.teams = s.teams ∧
      t.wave k = { (s.wave k).resumed x with pixel := some { px with frags := px.frags.map (fun g =>
        if m.getLsbD g.lane then { g with locked := true, lockedAt := s.clock } else g) } }) ∧
  (∀ (k : WaveKey) (lane : Nat) (f : Frag), (s.wave k).pixel = some px → px.frags.find? (fun g => g.lane = lane && (s.wave k).fragHolds g) = some f →
    let c := s.context (s.wave k).ctx
    c.frozenAt = none → c.pxwdt ≠ 0 → f.lockedAt + c.pxwdt.toNat * 1500 < s.clock →
    ∃ t, exec (.sectionTimeout k lane) s = .next t ∧ ended t px.ctx px.queue)

/-- R372, R379 to R393, R401, R452: a render pass: PRIM waits for its port with its records noted, the port forwards them to the owners of the tiles
they may cover and counts them, a record enters every bin it covers, a close marker is counted and completes a grain, tiles get their
buffers, render, and are saved or written; fragments are applied; the pass ends; its watchdog and a failed access abort the queue. -/
def Obligations.RenderPasses : Prop := ∀ (s : State) (ctx qid : Nat) (p : Pass),
  let ended := fun (t : State) (cause : Word) => (t.queue ctx qid).aborted = true ∧ (∀ p ∈ t.passes, ¬ (p.ctx = ctx ∧ p.qid = qid)) ∧
    ∃ r ∈ t.log, r.kind = 0x0008 ∧ r.body.take 2 = [cause, BitVec.ofNat 32 qid]
  (∀ f : UC, s.primPass = some p →
    let a := (s.cur.sreg f.a 0).toNat
    let n := (s.cur.sreg f.b 0).toNat
    let grain := (s.cur.spair f.c).toNat
    let recs := s.curTeam.prims a n
    let close := f.fn.getLsbD 0
    s.unarmed → s.cur.sregPois f.a = false → s.cur.sregPois f.b = false → s.cur.spairPois f.c = false → s.regionOpen s.cur.team = false →
    n ≤ 64 → a % 16 = 0 → a + 48 * n ≤ s.curTeam.spSize → (s.curTeam.spBytes a (48 * n)).any MByte.pois = false → p.refusesPrim grain recs = false →
    ∃ t, exec (.prim f) s = .next t ∧ t = { s with waves := t.waves, passes := t.passes } ∧
      t.wave s.sel.key = s.waiting s.cur (.prim recs grain close) ∧ t.openPass p.ctx p.qid = some (p.noteSent grain recs close)) ∧
  (s.openPass ctx qid = some p →
    (∀ (k : WaveKey) (wt : Wait) recs grain close, (s.wave k).waits = [wt] → wt.why = .prim recs grain close → (s.wave k).canEnd wt →
      (s.task (s.team (s.wave k).team).task).ctx = ctx → (s.task (s.team (s.wave k).team).task).queue = qid → s.primBefore ctx qid grain wt.since = false →
      let sent := recs.map (fun b => (⟨dieOf k.core, grain, some ⟨grain, grain * PassRec.gsize p.rec_ + PrimRec.idx b, b⟩⟩ : PortItem)) ++
        (if close then [⟨dieOf k.core, grain, none⟩] else [])
      ∃ t, exec (.primAccept k wt.pc) s = .next t ∧ t.wave k = (s.wave k).resumed wt ∧ t.openPass ctx qid = some { p with port := p.port ++ sent }) ∧
    (∀ it rest, p.port = it :: rest →
      (it.prim = none →
        let sent := (List.range 8).map (fun d => (d, it.grain, (assocGet p.sent (it.grain, d)).getD 0))
        ∃ t, exec (.exchangeForward ctx qid) s = .next t ∧ t.openPass ctx qid = some { p with port := rest, markers := p.markers ++ sent }) ∧
      (∀ r, it.prim = some r → recDropped r.bytes (PassRec.width p.rec_) (PassRec.height p.rec_) = true →
        ∃ t, exec (.exchangeForward ctx qid) s = .next t ∧ t.openPass ctx qid = some { p with port := rest } ∧
          (t.die it.die).counters.primdrop = satInc (s.die it.die).counters.primdrop) ∧
      (∀ r, it.prim = some r → recDropped r.bytes (PassRec.width p.rec_) (PassRec.height p.rec_) = false →
        ∃ t q, exec (.exchangeForward ctx qid) s = .next t ∧ t.openPass ctx qid = some q ∧ q.port = rest ∧
          (∀ d, d < 8 → (∃ tile ∈ recTiles r.bytes (PassRec.width p.rec_) (PassRec.height p.rec_), PassRec.owner p.rec_ tile.1 tile.2 = d) →
            (d, r) ∈ q.exchange ∧ q.sentTo r.grain d = p.sentTo r.grain d + 1) ∧
          (∀ d, (∀ tile ∈ recTiles r.bytes (PassRec.width p.rec_) (PassRec.height p.rec_), PassRec.owner p.rec_ tile.1 tile.2 ≠ d) →
            q.sentTo r.grain d = p.sentTo r.grain d))) ∧
    (∀ die r, p.nextRecord die = some r → (p.coveredTiles die r.bytes).length ≤ s.binFree die →
      ∃ t q, exec (.recordBin ctx qid die) s = .next t ∧ t.openPass ctx qid = some q ∧ q.exchange = p.exchange.erase (die, r) ∧
        ∀ tile ∈ recTiles r.bytes (PassRec.width p.rec_) (PassRec.height p.rec_), PassRec.owner p.rec_ tile.1 tile.2 = die →
          ∃ x, q.tile tile.1 tile.2 = some x ∧ r ∈ x.bin ++ x.work) ∧
    (∀ die grain m, p.markers.find? (fun m => m.1 = die ∧ m.2.1 = grain) = some m → (∃ o ∈ p.owners, o.die = die) →
      ∃ t q, exec (.closeMarkerArrival ctx qid die grain) s = .next t ∧ t.openPass ctx qid = some q ∧ q.markers = p.markers.erase m ∧
        assocGet (q.owner die).closed grain = some m.2.2 ∧
        ((p.owner die).orderPoint = grain → (assocGet (p.owner die).received grain).getD 0 = m.2.2 → grain < (q.owner die).orderPoint)) ∧
    (∀ tx ty t, p.tile tx ty = some t →
      let die := PassRec.owner p.rec_ tx ty
      (∀ core, t.phase = .flushing → t.core = some core → s.tileDone p t = true →
        s.areaReach ctx (PassRec.slot p.rec_ tx ty) (PassRec.bufSize p.rec_) .write = .ok →
        ∃ u q x, exec (.tileFlush ctx qid die tx ty) s = .next u ∧ u.openPass ctx qid = some q ∧ q.tile tx ty = some x ∧ x.saved = true ∧ x.core = none ∧
          x.samples = t.samples ∧ (u.die die).counters.flushes = satInc (s.die die).counters.flushes ∧
          ∀ b ∈ (u.core core).tiles, ¬ (b.ctx = ctx ∧ b.queue = qid ∧ b.tx = tx ∧ b.ty = ty)) ∧
      (∀ core, t.wantsBuffer = true → s.bufCore p t = some core → (∀ a ∈ s.openAreas p t, s.areaReach ctx a.1 a.2 .read = .ok) →
        ∃ u q x, exec (.tileBufferGrant ctx qid tx ty core) s = .next u ∧ u.openPass ctx qid = some q ∧ q.tile tx ty = some x ∧ x.core = some core ∧
          x.opened = true ∧ x.work = t.work ∧ (∃ b ∈ (u.core core).tiles, b.ctx = ctx ∧ b.queue = qid ∧ b.tx = tx ∧ b.ty = ty) ∧
          (t.saved = true → (u.die die).counters.reopens = satInc (s.die die).counters.reopens)) ∧
      (∀ core prim work tri, t.core = some core → t.work = prim :: work → t.quads < (tileQuads p.rec_ prim.bytes tx ty).length →
        triOf prim.bytes = some tri → s.admits core 1 0 (.team s.nextId) (s.nextId + 1) = true →
        let left := (tileQuads p.rec_ prim.bytes tx ty).drop t.quads
        let lanes := pxLanes p.rec_ prim.bytes tri (left.take 8)
        ∃ u, exec (.pixelWaveLaunch ctx qid tx ty) s = .next u ∧ (u.team s.nextId).resident = true ∧ (u.team s.nextId).core = core ∧
          u.tile ctx qid tx ty = some (if left.length ≤ 8 then { t with work := work, quads := 0 } else { t with quads := t.quads + 8 }) ∧
          ∃ e ∈ u.waves, e.1.core = core ∧ e.2.team = s.nextId ∧ e.2.ctx = ctx ∧ e.2.sreg 5 0 = BitVec.ofNat 32 prim.seq ∧
            (∀ l ∈ lanes, ∀ i : Fin 32, i.val = l.lane → lanes.find? (fun y => y.lane = i.val) = some l →
              let holds := fun (n : Nat) (v : Word) => ∃ r, (e.2.row n = some r ∨ e.2.swapped.bind (fun l => assocGet l n) = some r) ∧ r.words[i] = v
              holds 1 (BitVec.ofNat 32 (l.y * 65536 + l.x)) ∧ holds 2 (sampleMask l.samples) ∧ holds 3 l.b1 ∧ holds 4 l.b2 ∧ holds 5 l.z) ∧
            e.2.pixel.map (fun y => y.frags.map (fun g => (g.lane, g.x, g.y, g.seq))) =
              some ((lanes.filter (fun l => !l.samples.isEmpty)).map (fun l => (l.lane, l.x, l.y, prim.seq)))) ∧
      (∀ f, t.core.isSome = true → nextFrag (s.tileFrags ctx qid t) = some f →
        ∃ u x, exec (.blendApply ctx qid tx ty) s = .next u ∧ u.tile ctx qid tx ty = some x ∧ u.mem = s.mem ∧ x.ended = t.ended.erase f ∧
          x.samples = (if f.killed || (f.colours.isEmpty && f.depth.isNone) then t.samples else (t.apply p.rec_ f).samples))) ∧
    (∀ die, PassRec.glast p.rec_ ≤ (p.owner die).orderPoint → (p.tiles.map (fun t => (t.tx, t.ty))).Nodup →
      let mine := p.tiles.filter (fun t => PassRec.owner p.rec_ t.tx t.ty = die)
      ((∀ t ∈ mine, ¬ (t.phase = .closing ∧ t.core.isSome = true ∧ s.tileDone p t = true)) →
        ∃ u, exec (.passRender ctx qid die) s = .next u ∧ ∀ t ∈ mine, t.phase = .idle → (t.saved = true ∨ t.bin ≠ []) →
          u.tile ctx qid t.tx t.ty = some (p.beginTile t .closing)) ∧
      (∀ t core, mine.find? (fun t => t.phase = .closing && t.core.isSome && s.tileDone p t) = some t → t.core = some core →
        (∀ r ∈ t.rows p.rec_, s.areaReach ctx r.2.2 ((tileSpan t.tx (PassRec.width p.rec_)).length * PassRec.samples p.rec_ * PassRec.bytesOf p.rec_ r.1) .write = .ok) →
        ∃ u, exec (.passRender ctx qid die) s = .next u ∧ u.mem = (s.writeTile ctx p.rec_ t (s.pxpois ctx qid)).mem ∧
          u.tile ctx qid t.tx t.ty = some { t with phase := .written, core := none, taken := 0 } ∧
          ∀ b ∈ (u.core core).tiles, ¬ (b.ctx = ctx ∧ b.queue = qid ∧ b.tx = t.tx ∧ b.ty = t.ty))) ∧
    (p.finished = true →
      (PassRec.crec p.rec_ = 0 → ∃ u, exec (.passEnd ctx qid) s = .next u ∧ u.mem = s.mem ∧ u.passes.map Pass.recAddr = (s.passes.erase p).map Pass.recAddr) ∧
      (PassRec.crec p.rec_ ≠ 0 → s.areaReach ctx (PassRec.crec p.rec_) 16 .write = .ok → ∃ u, exec (.passEnd ctx qid) s = .next u ∧
        u.mem = (s.writeCompletion ctx (PassRec.crec p.rec_) (s.finalStatus p)).mem ∧
        u.passes.map Pass.recAddr = (s.passes.erase p).map Pass.recAddr)) ∧
    (∀ die, let o := p.owner die
      o.orderPoint < PassRec.glast p.rec_ → s.grainIdle p o.orderPoint = false → (s.context ctx).frozenAt = none → PassRec.watchdog p.rec_ ≠ 0 → PassRec.watchdog p.rec_ < 2 ^ 32 →
      o.movedAt + PassRec.watchdog p.rec_ * 1500 < s.clock → ∃ u, exec (.rasterWatchdog ctx qid die) s = .next u ∧ ended u 0x15) ∧
    (∀ addr (cause : BitVec 8), 0x08 ≤ cause.toNat → cause.toNat ≤ 0x0C →
      ∃ u, exec (.rasterAccessFault ctx qid addr cause) s = .next u ∧ ended u (cause.setWidth 32)))

/-! ### The fabric and collectives -/

/-- R434, R436, R437, R439 to R441: a node performs a request, holds it off or refuses it; key banks turn; a dead port is logged; a collective
is counted in FX, drops a late member, and with every contribution of the living present delivers its result and its record. -/
def Obligations.FabricAndCollectives : Prop := ∀ s : State,
  (∀ q data, s.req q.id = some q → s.atNode q = true →
    (∀ byp nc, q.kind = .read byp nc → data.length = 128 → q.pline % 128 = 0 → Memory.wf s.mem → ∃ t, exec (.nodeReply q.id data) s = .next t ∧ t.waves = s.waves ∧
      ∃ r ∈ t.net, r.id = q.id ∧ r.performed = true ∧ r.reply = some (data.map (fun b => (⟨b, false⟩ : MByte)))) ∧
    (∀ bs low, q.kind = .write bs low → ∃ t, exec (.nodeReply q.id []) s = .next t ∧ t.waves = s.waves ∧
      t.mem = (nibbleBytes low s.homeByte bs).foldl (fun m b => cellSet m b.1 b.2.val) s.mem ∧ ∃ r ∈ t.net, r.id = q.id ∧ r.performed = true)) ∧
  (∀ q, s.req q.id = some q → s.atNode q = true → q.tries < 15 →
    let at_ := s.clock + 2 ^ min q.tries 6 * 1500
    exec (.notReadyRetry q.id) s = .next (s.setReq { q with tries := q.tries + 1, retryAt := at_, born := at_ })) ∧
  (∀ q (code : BitVec 8), s.req q.id = some q → s.isFabric q.pline = true → q.leg = .toHome → q.spot = .there → q.performed = false → q.dead = false →
    let ends := fun (i : Instr) => ∃ t, exec i s = .next t ∧ (∀ r ∈ t.net, r.id ≠ q.id) ∧ t.mem = s.mem ∧
      (q.by_.isSlice = true → ∀ x ∈ s.waitingFor q, ∀ r ∈ t.net, r.id ≠ x.id) ∧
      (∀ o, q.by_.isSlice = false → q.owners = [] → (s.wave q.key).op q.op = some o → o.fail = none →
        ∃ f, ((t.wave q.key).op q.op).bind Op.fail = some f ∧ f.cause = 0x0B ∧ f.addr >>> 56 = code.setWidth 64)
    ((s.nodeWindow q.pline).isSome = true → s.atNode q = true → (code = 1 ∨ code = 2 ∨ code = 4) → ends (.nodeNegativeReply q.id code)) ∧
    (s.nodeWindow q.pline = none → code = 5 → ends (.nodeNegativeReply q.id 5)) ∧
    (s.atNode q = true → 15 ≤ q.tries → code = 3 → ends (.notReadyRetry q.id))) ∧
  (∀ q, s.req q.id = some q → s.isFabric q.pline = true → q.leg = .toHome → q.spot = .there → q.performed = false → q.dead = true →
    s.atNode q = true → ∃ t, exec (.nodeNegativeReply q.id 1) s = .next t ∧ t.waves = s.waves ∧ (∀ r ∈ t.net, r.id ≠ q.id) ∧
      (t.die (dieOf q.core)).counters.stalereply = satInc (s.die (dieOf q.core)).counters.stalereply) ∧
  (∀ port, port < 32 →
    let p := s.port port
    (∀ key, p.switching = false → (∃ v ∈ s.sessions, v.2.spdm.secured = true) →
      exec (.ualinkKeyInstall port key) s = .next (s.setPort port (if p.current then { p with bank0 := some key } else { p with bank1 := some key }))) ∧
    (p.switching = false → ((p.current = true → p.bank0.isSome = true) ∧ (p.current = false → p.bank1.isSome = true)) →
      exec (.keySwitch port) s = .next (s.setPort port { p with current := !p.current, switching := true })) ∧
    (p.switching = true →
      exec (.keyRetire port) s = .next (s.setPort port (if p.current then { p with bank0 := none, switching := false }
        else { p with bank1 := none, switching := false }))) ∧
    (p.alive = true → ∃ t, exec (.flitAuthFail port) s = .next t ∧ t = { s with dies := t.dies } ∧
      (t.die (port / 4)).counters.lnkreplay = satInc (s.die (port / 4)).counters.lnkreplay) ∧
    (p.alive = true → ∃ t, exec (.ualinkPortDead port) s = .next t ∧ t.port port = { p with alive := false } ∧
      (∃ r ∈ t.log, r.kind = 0x0006 ∧ r.seq = s.logSeq ∧ r.body = [BitVec.ofNat 32 (port / 4), BitVec.ofNat 32 port]) ∧
      (s.hostPorts ≠ 0 → ∀ v ∈ s.sessions, ∃ m ∈ t.outbox, m.hdr.event = true ∧ m.hdr.session = v.1 ∧
        m.payload = wordLe 3 ++ wordLe (BitVec.ofNat 32 port))) ∧
    exec (.deadPortRestore port) s = .next (s.setPort port { p with alive := true })) ∧
  (∀ f : UC,
    (s.regionOpen s.cur.team = true → s.traps (.coll f) s.cur 0x11 s.sel.pc s.sel.mask 0 s.sel.word) ∧
    (s.regionOpen s.cur.team = false → s.cur.spairPois f.a = true ∨ s.cur.spairPois f.b = true →
      s.traps (.coll f) s.cur 0x0D s.sel.pc s.sel.mask 0 s.sel.word) ∧
    (s.regionOpen s.cur.team = false → s.cur.spairPois f.a = false → s.cur.spairPois f.b = false → exec (.coll f) s =
      .next (s.issued .fx (.coll ((s.cur.spair f.a).toNat % 2 ^ 56) ((s.cur.spair f.b).toNat % 2 ^ 56) f.fn [] none)))) ∧
  (∀ (k : WaveKey) (o : Op) desc record fn dropped mark, (s.wave k).op o.id = some o → o.done = false → o.kind = .coll desc record fn dropped mark →
    (∀ rank, dropped.contains rank = false → o.born + (s.context (s.wave k).ctx).ctimeout * 1500 ≤ s.clock →
      exec (.collMemberDrop k o.id rank) s = .next (s.setWave k ((s.wave k).setOp { o with kind := .coll desc record fn (dropped ++ [rank]) mark }))) ∧
    (∀ contribs,
      let rel := s.releaseTo k o.id 5 mark
      let u := rel.1.setWave k ((rel.1.wave k).setOp { o with kind := .coll desc record fn dropped rel.2.1 })
      (rel.2.2 = false → exec (.collExchangeComplete k o.id contribs) s = .next u) ∧
      (mark = none → s.releaseReady k o.id 5 = false → rel.2.2 = false) ∧ (∀ n, mark = some n → s.pushing (s.wave k).uid n [] = true → rel.2.2 = false) ∧
      (rel.2.2 = true →
      let ctx := (s.wave k).ctx
      (desc % 64 ≠ 0 → exec (.collExchangeComplete k o.id contribs) s = .next (u.failOp k o 0x06 o.lanes desc)) ∧
      (desc % 64 = 0 → record % 16 ≠ 0 → exec (.collExchangeComplete k o.id contribs) s = .next (u.failOp k o 0x06 o.lanes record)) ∧
      (∀ b g, desc % 64 = 0 → record % 16 = 0 → u.engineReach ctx desc 64 .read = .ok → u.vaBytes ctx desc 64 = cleanBytes b →
        u.markRange ctx desc 64 .read = u → u.collIllegal ctx fn b = false → u.cgroup ctx (CollDesc.group b) = some g →
        let n := if collOp fn = 3 ∧ g.rank ≠ CollDesc.root b then 0 else CollDesc.count b * collBytes fn
        let part := fun (r : Nat) => if r = g.rank then u.vaBytes ctx (CollDesc.src b) n
          else ((contribs.find? (fun c => c.rank = r)).map (fun c => cleanBytes c.data)).getD []
        let j : CollJob := ⟨k, o, fn, b, record, g, (g.living dropped).map (fun r => (r, part r))⟩
        let agrees := fun (c : Contribution) => c.fn = fn ∧ c.count = CollDesc.count b ∧ c.root = CollDesc.root b
        u.areaReach ctx (CollDesc.src b) n .read = .ok → u.markRange ctx (CollDesc.src b) n .read = u → u.engineReach ctx record 48 .write = .ok →
        (∀ r ∈ g.living dropped, r ≠ g.rank → (contribs.find? (fun c => c.rank = r)).isSome = true) →
        ((∃ r ∈ g.living dropped, r ≠ g.rank ∧ ∃ c, contribs.find? (fun c => c.rank = r) = some c ∧ ¬ agrees c) →
          exec (.collExchangeComplete k o.id contribs) s = .next ((u.useSeqno ctx b).collRecord j (j.flags + 4) none)) ∧
        ((∀ r ∈ g.living dropped, r ≠ g.rank → ∀ c, contribs.find? (fun c => c.rank = r) = some c → agrees c) →
          let runs := j.results.map (fun r => (va56 (CollDesc.dst b + r.1), r.2))
          let w := runs.foldl (fun (t : State) r => t.collWrite j r.1 r.2) u
          u.reachAll ctx (runs.map (fun r => (r.1, r.2.length))) .write = .ok → w.engineReach ctx record 48 .write = .ok →
          (s.wave k).ops = [o] →
          ∃ t, exec (.collExchangeComplete k o.id contribs) s = .next t ∧ t = (w.collRecord j j.flags none).useSeqno ctx b ∧
            (t.wave k).ops = [])))))

/-! ### The host -/

/-- R421, R422, R424 to R429, R442, R446: OPEN and CLOSE, contexts, mapping, queues, code, submission, the log and the policies, each with its
effect and one response under an accepted header; what a header can be refused for; RDMA, ports, time and reset. -/
def Obligations.HostCommands : Prop := ∀ (s : State) (h : Hdr),
  (∀ (hostMax : BitVec 16) features, s.hostPorts ≠ 0 → h.resv = 0 → h.event = false → h.resp = false → h.status = 0 → h.resv2 = 0 →
    h.session = 0 → h.length.toNat ≤ 1048576 → h.op = 0x01 →
    (0x0100 ≤ hostMax.toNat → ∃ t n, exec (.hostOpen h hostMax features) s = .next t ∧ t = { s with sessions := t.sessions, outbox := t.outbox } ∧
      t.sessions = s.sessions ++ [(n, (⟨n, 0x0100, features &&& 0x3F, 1, h.qp, none, Spdm.initial⟩ : Session))] ∧
      ((∀ p ∈ s.sessions, p.1.toNat < 2 ^ 32 - 1) → n ≠ 0 ∧ assocGet s.sessions n = none) ∧
      ∃ m, t.outbox = s.outbox ++ [m] ∧ m.hdr.resp = true ∧ m.hdr.status = 0 ∧ m.hdr.seq = h.seq) ∧
    (hostMax.toNat < 0x0100 → ∃ t m, exec (.hostOpen h hostMax features) s = .next t ∧ t.sessions = s.sessions ∧
      t.outbox = s.outbox ++ [m] ∧ m.hdr.resp = true ∧ m.hdr.status = 1)) ∧
  (∀ (v : Session) (i : Instr) (op : Nat),
    (i = .hostClose h ∧ op = 0x02 ∨ (∃ p, i = .createCtx h p ∧ op = 0x10) ∨ i = .destroyCtx h ∧ op = 0x11 ∨ (∃ p, i = .hostMap h p ∧ op = 0x12) ∨
      (∃ p, i = .createQueue h p ∧ op = 0x13) ∨ (∃ b, i = .loadCode h b ∧ op = 0x14) ∨ i = .codeSync h ∧ op = 0x15 ∨ (∃ n, i = .readLog h n ∧ op = 0x17) ∨
      (∃ n, i = .setPolicyBinpool h n ∧ op = 0x18) ∨ (∃ n, i = .setPolicyJournal h n ∧ op = 0x18) ∨ i = .debugAttach h ∧ op = 0x19 ∨ i = .getVersion h ∧ op = 0x20) →
    s.hostPorts ≠ 0 → s.sessionBusy h.session = false →
    let refused := fun (status : Word) => ∃ t m, exec i s = .next t ∧
      t = { s with outbox := s.outbox ++ [m], log := t.log, logSeq := s.logSeq + 1, logLost := t.logLost } ∧ m.hdr.resp = true ∧ m.hdr.status = status ∧
        m.hdr.seq = h.seq ∧ m.payload = [] ∧ ∃ r ∈ t.log, r.kind = 0x0007 ∧ r.seq = s.logSeq
    ((h.resv ≠ 0 ∨ h.event = true ∨ h.resp = true ∨ h.status ≠ 0 ∨ h.resv2 ≠ 0 ∨ assocGet s.sessions h.session = none) → refused 4) ∧
    (h.resv = 0 → h.event = false → h.resp = false → h.status = 0 → h.resv2 = 0 → assocGet s.sessions h.session = some v →
      (∀ m, v.stored = some m → h.seq + 1 = v.nextSeq → exec i s = .next { s with
        outbox := s.outbox ++ [{ m with hdr := { m.hdr with qp := h.qp, srcIp := h.srcIp } }] }) ∧
      (h.seq ≠ v.nextSeq → (v.stored = none ∨ h.seq + 1 ≠ v.nextSeq) → refused 5) ∧
      (h.seq = v.nextSeq → h.vmaj.toNat * 256 + h.vmin.toNat ≠ v.version → refused 1) ∧
      (h.seq = v.nextSeq → h.vmaj.toNat * 256 + h.vmin.toNat = v.version → 1048576 < h.length.toNat → refused 3) ∧
      (h.seq = v.nextSeq → h.vmaj.toNat * 256 + h.vmin.toNat = v.version → h.length.toNat ≤ 1048576 → h.op.toNat ≠ op → s.refused i h v 2))) ∧
  (∀ (t : State) (status : Nat) payload, t.hostPorts ≠ 0 →
    let m : HostMsg := ⟨respHdr h status payload.length, payload⟩
    (t.respond h status payload).outbox = t.outbox ++ [m] ∧ m.hdr.resp = true ∧ m.hdr.seq = h.seq ∧ m.hdr.session = h.session ∧ m.hdr.op = h.op ∧
      ∀ v, assocGet t.sessions h.session = some v → assocGet (t.respond h status payload).sessions h.session = some { v with stored := some m }) ∧
  (∀ v : Session,
    (s.Accepts h v 0x02 → ∃ t, s.done (.hostClose h) h t [] ∧ assocGet t.sessions h.session = none ∧
      ∀ c ∈ s.contexts, c.2.session = h.session → assocGet t.contexts c.1 = none) ∧
    (∀ p : CtxArgs, s.Accepts h v 0x10 → (p.debug = true → v.feature 3 = true) →
      (v.feature 4 = true → v.spdm.secured = false → s.refused (.createCtx h p) h v 10) ∧
      (v.denied = false → ctxLegal p = false → s.refused (.createCtx h p) h v 8) ∧
      (v.denied = false → ctxLegal p = true → (∀ n, n < 64 → (assocGet s.contexts n).isSome = true) → s.refused (.createCtx h p) h v 7) ∧
      (∀ n t, v.denied = false → ctxLegal p = true → (List.range 64).find? (fun n => (assocGet s.contexts n).isNone) = some n →
        (s.taken h v).makeContext n h.session p = some t →
        let c := t.context n
        s.done (.createCtx h p) h t (wordLe (BitVec.ofNat 32 n) ++ le64 c.ptbase ++ le64 c.mkey) ∧ c.num = n ∧ c.session = h.session ∧ c.ended = false ∧
          c.codeBase = p.codeBase.toNat ∧ c.tvec = p.tvec ∧ c.window = p.window ∧ c.bwdt = 10000 ∧ c.rwdt = 10000 ∧ c.pxwdt = 2000 ∧ c.queues = [] ∧
          c.debugger = p.debug)) ∧
    (∀ n, s.Accepts h v 0x17 → s.done (.readLog h n) h (s.taken h v)
      ((s.log.filter (fun r => (r.noctx || r.session = h.session) && !(r.seq - n).msb)).flatMap LogRec.bytes ++ wordLe s.logLost ++
        (List.range 8).flatMap s.counterBytes)) ∧
    (∀ mib, s.Accepts h v 0x18 → if 64 ≤ mib ∧ mib ≤ 512 ∧ mib % 64 = 0 then s.done (.setPolicyBinpool h mib) h { s.taken h v with binPool := mib } []
      else s.refused (.setPolicyBinpool h mib) h v 8) ∧
    (∀ ws, s.Accepts h v 0x18 → v.feature 2 = true → if ws.length ≤ 64 ∧ ∀ w ∈ ws, windowLegal w = true
      then s.done (.setPolicyFabmap h ws) h { s.taken h v with fabmap := ws } [] else s.refused (.setPolicyFabmap h ws) h v 8) ∧
    (∀ i op, (i = .destroyCtx h ∧ op = 0x11 ∨ (∃ b, i = .loadCode h b ∧ op = 0x14) ∨ i = .codeSync h ∧ op = 0x15 ∨
        (∃ n, i = .setPolicyJournal h n ∧ op = 0x18)) → s.Accepts h v op →
      (assocGet s.contexts h.ctx.toNat = none ∨ ∃ c, assocGet s.contexts h.ctx.toNat = some c ∧ c.session ≠ h.session) → s.refused i h v 6) ∧
    ∀ c : Context, let n := h.ctx.toNat
      (s.acceptsOn h v c 0x11 → ∃ t, s.done (.destroyCtx h) h t [] ∧ assocGet t.contexts n = none ∧ (∀ p ∈ t.waves, p.2.ctx ≠ n) ∧
        (∀ f ∈ t.frames, f.2.2 ≠ n) ∧ (∀ g ∈ t.cgroups, g.ctx ≠ n)) ∧
      (∀ p t, s.acceptsOn h v c 0x12 → (p.unmap = true ∨ p.home ≠ 3#2 ∨ v.feature 2 = true) → v.denied = false →
        (s.taken h v).mapPages n p (some h) = (0, t) → exec (.hostMap h p) s = .next t) ∧
      (∀ p, s.acceptsOn h v c 0x12 → (p.unmap = true ∨ p.home ≠ 3#2 ∨ v.feature 2 = true) → v.denied = false → s.mapLegal p = false →
        s.refused (.hostMap h p) h v 8) ∧
      (∀ p : QueueArgs, s.acceptsOn h v c 0x13 → (p.render = true → v.feature 0 = true) → p.qid < 16 → p.block.toNat % 32 = 0 →
        (p.pxpois = true → p.render = true) → assocGet c.queues p.qid = none →
        let q : Queue := { Queue.absent with qid := p.qid, block := p.block.toNat, render := p.render, pxpois := p.pxpois, aborted := false }
        s.blockOk n q = true → s.blockWord n q 8 = 64 →
        s.done (.createQueue h p) h { (s.taken h v).setQueue n p.qid q with lastDepEval := none } []) ∧
      (∀ image, s.acceptsOn h v c 0x14 → v.denied = false → h.length.toNat = image.length →
        (Image.wellFormed image = false → s.refused (.loadCode h image) h v 8) ∧
        (Image.wellFormed image = true → Image.versionOk image = true →
          let l := (Image.secs image).map (fun x => (va56 (c.codeBase + x.2.1), (image.drop x.2.2.2).take x.2.2.1))
          (∀ x ∈ Image.secs image, x.2.1 + x.2.2.1 ≤ c.window) → (∀ x ∈ l, ∀ va ∈ pagePoints x.1 x.2.length, (s.anyPa n va).isSome = true) →
          ∃ t, s.done (.loadCode h image) h t [] ∧ t = { s.taken h v with mem := t.mem, poisoned := t.poisoned } ∧
            t = l.foldl (fun (t : State) x => t.putSection n x.1 x.2) (s.taken h v))) ∧
      (s.acceptsOn h v c 0x15 → s.done (.codeSync h) h ((s.taken h v).setContext n { c with code := s.codeImage n c }) []) ∧
      (∀ qid q b, s.acceptsOn h v c 0x16 → v.denied = false → assocGet c.queues qid = some q → s.submitWaits n q = false → q.aborted = false →
        b.length = 64 → TaskRec.valid b q.render = true → s.blockOk n q = true →
        (s.queueRoom n q = 0 → s.refused (.submit h qid (.task b)) h v 9) ∧
        (1 ≤ s.queueRoom n q → s.areaOk n (s.nextSlot n q 0) 64 .write = true →
          s.done (.submit h qid (.task b)) h ((s.taken h v).enqueue n q b) [])) ∧
      (∀ mib, s.acceptsOn h v c 0x18 → 1 ≤ mib → mib ≤ 256 →
        s.done (.setPolicyJournal h mib) h ((s.taken h v).setContext n { c with journalMiB := mib }) []) ∧
      (∀ g, s.acceptsOn h v c 0x18 → g < 64 →
        ((s.group g).owner = none → s.done (.setPolicyGroup h g true) h ((s.taken h v).setGroup g { s.group g with owner := some (h.ctx.setWidth 6) }) []) ∧
        ((s.group g).owner = some (h.ctx.setWidth 6) → s.done (.setPolicyGroup h g false) h ((s.taken h v).setGroup g Group.initial) [] ∧
          s.refused (.setPolicyGroup h g true) h v 10)) ∧
      (∀ p : CGroupArgs, s.acceptsOn h v c 0x18 → v.feature 5 = true → p.group < 16 → p.members ≠ [] → p.members.length ≤ 256 → p.rank < p.members.length →
        s.isFabric p.staging = true → ∃ t, s.done (.setPolicyCgroup h p) h t [] ∧ t = { s.taken h v with cgroups := t.cgroups } ∧
          t.cgroup n p.group = some ⟨p.group, n, p.members, p.rank, p.staging, []⟩) ∧
      (∀ us, s.acceptsOn h v c 0x18 → v.feature 5 = true → 100 ≤ us → us ≤ 1000000 →
        s.done (.setPolicyCtimeout h us) h ((s.taken h v).setContext n { c with ctimeout := us }) [])) ∧
  (∀ (mkey va : Nat) (c : Nat), s.ctxOfKey mkey = some c → s.hostPorts ≠ 0 →
    (∀ n, va + n ≤ 2 ^ 56 → s.areaOk c va n .read = true → ∃ t, exec (.hostRdmaRead mkey va n) s = .next t ∧
      t = { s with mem := t.mem, rdmaOut := s.rdmaOut ++ [(s.vaBytes c va n).map MByte.val] }) ∧
    (∀ data, va + data.length ≤ 2 ^ 56 → s.areaOk c va data.length .write = true →
      exec (.hostRdmaWrite mkey va data) s = .next (s.vaWrite c va (cleanBytes data)))) ∧
  (∀ bytes qp ip, bytes.length < 32 → s.hostPorts ≠ 0 → ∃ t, exec (.shortMessageDrop bytes qp ip) s = .next t ∧
    t = { s with log := t.log, logSeq := s.logSeq + 1, logLost := t.logLost } ∧ ∃ r ∈ t.log, r.kind = 0x0007 ∧ r.seq = s.logSeq ∧ r.body.head? = some 3) ∧
  (exec (.hostPortFailure 0) s = .next { s with hostPorts := s.hostPorts &&& 2 } ∧ exec (.hostPortFailure 1) s = .next { s with hostPorts := s.hostPorts &&& 1 }) ∧
  (∀ ns, exec (.ptimeDiscipline ns) s = .next { s with ptimeBase := ns.toNat, ptimeAt := s.clock }) ∧
  (∀ patches gib, gib ≤ 16 → exec (.moduleReset patches gib) s = .next { State.reset with
    agenda := s.agenda
    accidents := s.accidents
    freeCount := s.freeCount
    patchVersion := s.patchVersion
    patches := patches.map (fun p => { p with signed := p.signed && s.patchVersion ≤ p.version })
    localGib := gib })

/-- R29 to R31, R422, R430, R431: the debug commands on a context, and the SPDM responder's messages in order. -/
def Obligations.DebugAndSpdm : Prop := ∀ (s : State) (h : Hdr) (v : Session),
  (∀ (c : Context), s.acceptsOn h v c 0x19 →
    let n := h.ctx.toNat
    let u := s.taken h v
    (v.feature 3 = false → s.refused (.debugAttach h) h v 2) ∧
    (v.feature 3 = true →
      s.done (.debugAttach h) h (u.setContext n { c with debugger := true }) [] ∧
      (∃ t, s.done (.debugDetach h) h t [] ∧ (t.context n).debugger = false ∧ (t.context n).matches_ = [] ∧ (t.context n).frozenAt = none ∧
        (∀ p ∈ t.waves, p.2.ctx = n → p.2.dbgStopped = false) ∧ ∀ p ∈ t.teams, p.2.ctx = n → p.2.teamStop = false) ∧
      (∀ pcs, c.debugger = true → s.done (.debugAddressMatch h pcs) h (u.setContext n { c with matches_ := pcs }) []) ∧
      (∀ k, s.debuggable n c k = false → s.refused (.debugStop h k) h v 8 ∧ s.refused (.debugResume h k) h v 8 ∧ s.refused (.debugStep h k) h v 8) ∧
      (∀ k, s.debuggable n c k = true →
        (∃ t, s.done (.debugStop h k) h t [] ∧ t = { u with waves := t.waves, contexts := t.contexts } ∧ (t.wave k).dbgStopped = true ∧
          (t.context n).frozenAt.isSome = true ∧
          ((s.team (s.wave k).team).teamStop = true → ∀ p ∈ t.waves, p.2.team = (s.wave k).team → p.2.dbgStopped = true) ∧
          ((s.team (s.wave k).team).teamStop = false → ∀ x, x ≠ k → assocGet t.waves x = assocGet s.waves x)) ∧
        (∃ t, s.done (.debugResume h k) h t [] ∧ (t.wave k).dbgStopped = false ∧ (t.wave k).dbgStep = false ∧ (t.wave k).bkptLanes = 0 ∧
          (∀ i : Fin 32, (t.wave k).lanes[i].pc = (s.wave k).lanes[i].pc + (if (s.wave k).bkptLanes.getLsbD i.val then 4 else 0)) ∧
          ((s.waves.map Prod.fst).Nodup → (∀ p ∈ s.waves, p.2.ctx = n → p.1 ≠ k → p.2.dbgStopped = false) → (t.context n).frozenAt = none)) ∧
        ((s.wave k).dbgStopped = true →
          let w := { (s.wave k).resume with dbgStopped := true }
          let x := u.setWave k w
          let stepped := { w with dbgStep := true }
          (∀ pc m, x.meets k stepped ≠ some (.hold pc m)) →
          (((∃ c ∈ x.waveCands k stepped, c.ready = true) ∨ ∃ op sel, x.meets k stepped = some (.illegal op sel)) →
            s.done (.debugStep h k) h (u.setWave k stepped) [0]) ∧
          ((∀ c ∈ x.waveCands k stepped, c.ready = false) → (∀ op sel, x.meets k stepped ≠ some (.illegal op sel)) →
            s.done (.debugStep h k) h x [1])) ∧
        (∀ reg x, (s.wave k).debugGet reg = some x → s.done (.debugReadState h k reg) h u (leBytes 16 x)) ∧
        (∀ reg value w, (s.wave k).dbgStopped = true → s.rowsFree k.core ≠ 0 → (s.wave k).debugSet (s.pool k.core) reg value = some w →
          s.done (.debugWriteState h k reg value) h (u.setWave k w) [] ∧
          ((∀ m, reg = .s m → w.debugGet reg = some (value.toNat % 2 ^ 32)) ∧ (∀ m lane, reg = .v m lane → w.debugGet reg = some (value.toNat % 2 ^ 32)) ∧
            (∀ lane, reg = .pc lane → w.debugGet reg = some (value.toNat % 2 ^ 32)) ∧ ∀ m, reg = .trap m → w.debugGet reg = some (value.toNat % 2 ^ (if m = 0 then 9 else 32)))) ∧
        (∀ value, (s.wave k).dbgStopped = true → value.toNat % 4 ≠ 0 → s.refused (.debugWriteState h k (.trap 1) value) h v 8 ∧
          ∀ lane, s.refused (.debugWriteState h k (.pc lane) value) h v 8)) ∧
      (∀ team on, c.debugger = true → (assocGet s.teams team).isSome = true → (s.team team).ctx = n →
        ((∀ p ∈ s.waves, p.2.team = team → p.2.dbgStopped = false) →
          s.done (.debugTeamStop h team on) h (u.modTeam team (fun t => { t with teamStop := on })) []) ∧
        ((s.waves.map Prod.fst).Nodup → (∃ p ∈ s.waves, p.2.team = team ∧ p.2.dbgStopped = true) →
          ∃ t, s.done (.debugTeamStop h team true) h t [] ∧ ∀ p ∈ t.waves, p.2.team = team → p.2.dbgStopped = true)))) ∧
  (s.Accepts h v 0x20 →
    let x := v.spdm
    let moves := fun (i : Instr) (payload : List Byte) (y : Spdm) (free : Nat) => ∃ t, s.done i h t payload ∧
      t = { s with sessions := t.sessions, freeCount := s.freeCount + free } ∧
      assocGet t.sessions h.session = some { v with nextSeq := h.seq + 1, stored := none, spdm := y }
    moves (.getVersion h) [0x13] ⟨1, 0, none, false⟩ 0 ∧
    (x.stage = 1 → moves (.getCapabilities h) [0x1F] { x with stage := 2 } 0) ∧
    (x.stage ≠ 1 → s.refused (.getCapabilities h) h v 8) ∧
    (∀ offered, x.stage = 2 → offered % 16 = 15 → moves (.negotiateAlgorithms h offered) [0x0F] { x with stage := 3, algorithms := 15 } 0) ∧
    (3 ≤ x.stage →
      (∃ p, p.length = 48 ∧ moves (.getDigests h) p x 48) ∧
      (∀ offset length, length ≤ 65535 → ∃ p, p.length = length ∧ moves (.getCertificate h offset length) p x 0) ∧
      (∀ nonce, ∃ p, p.length = 96 ∧ moves (.challenge h nonce) p x 96) ∧
      (moves (.getMeasurements h 3) (s.measure 3) x 0 ∧ ∃ p1, p1.length = 48 ∧ moves (.getMeasurements h 1) p1 x 0) ∧
      (moves (.getMeasurements h 2) (s.patches.flatMap (fun p => leBytes 48 p.hash.toNat ++ wordLe (BitVec.ofNat 32 p.version) ++
        [if p.signed then 1 else 0])) x 0) ∧
      (∃ p4, p4.length = 32 ∧ moves (.getMeasurements h 4) p4 x 0) ∧
      (∀ hostKey, ∃ p, p.length = 192 ∧ moves (.keyExchange h hostKey) p { x with exchanged := some hostKey, secured := false } 192)) ∧
    (x.stage < 3 → s.refused (.getDigests h) h v 8 ∧ s.refused (.keyExchange h 0) h v 8) ∧
    (x.exchanged.isSome = true → moves (.spdmFinish h true) [] { x with secured := true } 0 ∧ s.refused (.spdmFinish h false) h v 8) ∧
    (x.secured = true → moves (.endSession h) [] { x with exchanged := none, secured := false } 0))

/-! ### Words, steps, reset, memory -/

/-- R59 to R63, R69, R73: an instruction's bytes decode to it, with whatever follows them left over; with its literal word missing they are
truncated; and bytes that decode are the bytes of a well-formed, legal instruction. -/
def Obligations.DecodeEncode : Prop :=
  (∀ i : Instr, i.opcode.isSome = true → i.wellFormed = true → illegal i = none →
    (∀ rest, decode (encodeBytes i ++ rest) = .ok (i, rest)) ∧ (i.takesLit = true → decode ((encodeBytes i).take 4) = .error .truncated)) ∧
  (∀ bytes i rest, decode bytes = .ok (i, rest) →
    bytes = encodeBytes i ++ rest ∧ i.opcode.isSome = true ∧ i.wellFormed = true ∧ illegal i = none)

/-- R59 to R63, R67, R69, R70, R73, R79: words written out field by field decode to the instructions they stand for; the opcodes that the map leaves
reserved, and a nonzero unused field, do not decode. -/
def Obligations.DecodeWords : Prop :=
  decode (wordBytes (0x06#8 ++ 1#6 ++ 2#6 ++ 3#6 ++ 1#1 ++ 0#1 ++ 4#3 ++ 1#1)) = .ok (.iadd ⟨1, 2, 3, true, false, 4, true, 0⟩, []) ∧
  decode (wordBytes (0x06#8 ++ 1#6 ++ 2#6 ++ 63#6 ++ 0#1 ++ 0#1 ++ 7#3 ++ 0#1) ++ wordBytes 0xDEADBEEF) =
    .ok (.iadd ⟨1, 2, 63, false, false, 7, false, 0xDEADBEEF⟩, []) ∧
  decode (wordBytes (0x0C#8 ++ 10#6 ++ 11#6 ++ 12#6 ++ 13#6)) = .ok (.imad ⟨10, 11, 12, 13, 0⟩, []) ∧
  decode (wordBytes (0x08#8 ++ 5#6 ++ 6#6 ++ 0xABC#12)) = .ok (.iaddi ⟨5, 6, 0xABC⟩, []) ∧
  decode (wordBytes (0x28#8 ++ 2#3 ++ 6#3 ++ 7#6 ++ 8#6 ++ 0#1 ++ 1#1 ++ 7#3 ++ 0#1)) = .ok (.icmp ⟨2, 6, 7, 8, false, true, 7, false, 0⟩, []) ∧
  decode (wordBytes (0x2C#8 ++ 1#3 ++ 2#3 ++ 3#3 ++ 4#3 ++ 0x96#8 ++ 5#3 ++ 0#1)) = .ok (.plog ⟨1, 2, 3, 4, 0x96, 5, false⟩, []) ∧
  decode (wordBytes (0x4E#8 ++ 3#3 ++ 1#1 ++ 0x12345#20)) = .ok (.bra ⟨3, true, 0x12345⟩, []) ∧
  decode (wordBytes (0x61#8 ++ 4#6 ++ 5#6 ++ 6#4 ++ 2#2 ++ 7#6)) = .ok (.ldw ⟨4, 5, 6, 2, 7⟩, []) ∧
  decode (wordBytes (0x83#8 ++ 1#6 ++ 2#6 ++ 3#6 ++ 5#3 ++ 1#1 ++ 0#2)) = .ok (.uadd ⟨1, 2, 3, 5, true, 0, 0⟩, []) ∧
  decode (wordBytes (0x82#8 ++ 9#6 ++ 0x2ABCD#18)) = .ok (.umovi ⟨9, 0x2ABCD⟩, []) ∧
  decode (wordBytes (0xA9#8 ++ 3#3 ++ 2#2 ++ 0#19)) = .ok (.fence ⟨3, 2, 0⟩, []) ∧
  decode (wordBytes (0xB3#8 ++ 10#6 ++ 12#6 ++ 1#3 ++ 1#1 ++ 0#1 ++ 1#3 ++ 0#4)) = .ok (.racq ⟨10, 12, 1, true, false, 1, 0⟩, []) ∧
  (∀ w l : Word, 0xCA ≤ (w.extractLsb' 24 8).toNat → decodeWords w l = .error .illegalOp) ∧
  decode (wordBytes (0x08#8 ++ 62#6 ++ 6#6 ++ 0xABC#12)) = .error .illegalOperand ∧
  decode (wordBytes (0x83#8 ++ 1#6 ++ 2#6 ++ 3#6 ++ 5#3 ++ 1#1 ++ 1#2)) = .error .illegalOperand

/-- R16, R17, R22, R60, R61, R370: a word that decodes is fetched as its instruction, the next word past its literal; where nothing else is due
(log 1, 2, 9), a step at a state whose one wave stands with all its live threads at one PC runs the instruction that is fetched there, in the
state in which the path is selected, its passed-over counts are zero, one clock has passed, its unit is busy and the page it was fetched from is
marked accessed; and of several issues of one clock each step runs the next, on the registers that the ones before it have left (log 2). -/
def Obligations.StepRunsDecoded : Prop :=
  (∀ (s : State) (ctx : Nat) (pc : Word) (i : Instr) op, i.opcode = some op → i.wellFormed = true → illegal i = none →
    let c := s.context ctx
    (∃ pa e ea, s.fetchXlat ctx pc = .ok pa e ea) → (i.takesLit = true → ∃ pa e ea, s.fetchXlat ctx (pc + 4) = .ok pa e ea) →
    c.codeWord pc ++ (if i.takesLit then c.codeWord (pc + 4) else []) = encodeBytes i →
    s.fetch ctx pc = .instr i (pc + BitVec.ofNat 32 i.size) (op ++ i.body)) ∧
  (∀ (s : State) (k : WaveKey) (w : Wave) (i : Instr) (pc next word : Word),
    s.scouts = [] → s.blendNext = none → s.pending = [] → s.agenda = [] → s.accidents = [] → s.phase = true → s.waves = [(k, w)] → w.mayIssue = true →
    (s.context w.ctx).debugger = false → s.fetch w.ctx pc = .instr i next word → w.operandsReady i word = true → s.unitFree k word = true → w.live ≠ 0 →
    (∀ j : Fin 32, w.lanes[j].status = .live → w.lanes[j].pc = pc ∧ w.lanes[j].stopped = false ∧ w.lanes[j].yieldSpan = .none ∧
      w.lanes[j].block = if isWaveWide (opOf word) then .held else .none) →
    ∃ t, step s = exec i t ∧
      t = { s with phase := false, sel := t.sel, prior := some w, waves := t.waves, mem := t.mem, cores := t.cores, clock := s.clock + 1 } ∧
      t.sel = ⟨k, w.live, pc, next, word, if isUniform word then .uniform else .lane, 0⟩ ∧
      t.waves = [(k, { w with
        lanes := Vector.ofFn (fun j => if w.live.getLsbD j.val then { w.lanes[j] with passed := 0, block := .none } else w.lanes[j])
        lastUni := if isUniform word then s.clock + 1 else w.lastUni
        lastLane := if isUniform word then w.lastLane else s.clock + 1
        matchSkip := w.matchSkip &&& ~~~w.live
        dbgStep := false })] ∧
      (unitOf word = none → t.cores = s.cores) ∧
      (∀ unit n, unitOf word = some (unit, n) → ∀ c, t.core c = if c = k.core
        then { s.core c with busy := assocSet (s.core c).busy (unit + quarterOf k.slot) (s.clock + n) } else s.core c) ∧
      ∀ a, cellGet t.mem a = cellGet s.mem a ∨ cellGet t.mem a = cellGet s.mem a ||| 0x20#8 ∧ ∃ pa e, s.fetchXlat w.ctx pc = .ok pa e a) ∧
  (∀ (s : State) (sel : Sel) (rest : List Sel) (i : Instr) (next word : Word),
    s.scouts = [] → s.blendNext = none → s.pending = sel :: rest → s.hasWave sel.key = true → sel.slot = .lane ∨ sel.slot = .uniform ∨ sel.slot = .pair →
    (s.wave sel.key).growStall = false → (s.wave sel.key).handler = false → s.fetch (s.wave sel.key).ctx sel.pc = .instr i next word →
    ∃ t, step s = exec i t ∧ t.sel = sel ∧ t.pending = rest ∧ t.clock = s.clock ∧ (∀ k, k ≠ sel.key → t.wave k = s.wave k) ∧
      (∀ n, t.cur.vword n = (s.wave sel.key).vword n) ∧ t.cur.sregs = (s.wave sel.key).sregs ∧
      ∀ j : Fin 32, t.cur.lanes[j].pc = (s.wave sel.key).lanes[j].pc ∧ t.cur.lanes[j].preds = (s.wave sel.key).lanes[j].preds)

/-- R145, R161, R271, R298, R302, R350, R408, R420, R424, R427, R428: the module right after reset; memory in its canonical form, every byte of it zero
and clean (log 3). -/
def Obligations.ResetFacts : Prop :=
  let s := State.reset
  s.clock = 0 ∧ s.waves = [] ∧ s.teams = [] ∧ s.tasks = [] ∧ s.contexts = [] ∧ s.sessions = [] ∧ s.net = [] ∧ s.passes = [] ∧ s.log = [] ∧
  s.binPool = 256 ∧ s.fabmap = [] ∧ s.cgroups = [] ∧ s.localGib = 16 ∧ s.hostPorts = 3 ∧
  (∀ c, (s.core c).regGrans.length = 16 ∧ (s.core c).scratchGrans = 12 ∧ (s.core c).l1Grans = 4 ∧ (s.core c).l1 = [] ∧ (s.core c).inService = true) ∧
  (∀ g, (s.group g).gen = 0 ∧ (s.group g).mset = [] ∧ (s.group g).nset = [] ∧ (s.group g).arrived = 0 ∧ (s.group g).owner = none) ∧
  (∀ d, (s.die d).counters = ⟨0, 0, 0, 0, 0, 0, 0, 0, 0, 0, 0, 0, 0, 0⟩ ∧ (s.die d).wayMasks = [] ∧ (s.die d).copies = []) ∧
  (∀ d, (s.stack d).hbmce = 0 ∧ (s.stack d).hbmue = 0 ∧ (s.stack d).rowret = 0 ∧ (s.stack d).sparelow = 0) ∧
  Memory.wf s.mem ∧ ∀ a, s.homeByte a = ⟨0, false⟩

/-- The canonical form of memory, addresses rising and no byte listed that an unlisted address reads as, is kept by every step from every state that
has it (the form is the model's own, log 3; that reset has it is part of ResetFacts). -/
def Obligations.StepKeepsMemoryForm : Prop :=
  ∀ s t : State, Memory.wf s.mem → step s = .next t → Memory.wf t.mem
end

