-- ==== Sys2Proof/Laws/Memory.lean ====
section
/-! SUPPORT. Byte stores: what a read answers after a write, and that every operation that changes memory keeps its canonical form. -/

namespace Sys2Proof.Laws

open Sys2Proof.Machine

/-! ### Reading after writing -/

theorem cellGet_cellSet_same (m : List Host.Cell) (h : Memory.wf m) (a : Nat) (v : Byte) : cellGet (cellSet m a v) a = v := by
  induction m with
  | nil => by_cases hv : v = 0#8 <;> simp [cellSet, cellGet, hv]
  | cons c t ih =>
    obtain ⟨b, w⟩ := c
    obtain ⟨h1, h2⟩ := h
    simp only [List.map_cons, List.pairwise_cons] at h1
    have ht : Memory.wf t := ⟨h1.2, fun c hc => h2 c (List.mem_cons_of_mem _ hc)⟩
    have hz : ∀ l : List Host.Cell, (∀ x ∈ l.map Prod.fst, a < x) → cellGet l a = 0#8 := by
      intro l hl
      induction l with
      | nil => rfl
      | cons p q ih2 =>
        obtain ⟨x, y⟩ := p
        have := hl x (by simp)
        simp only [cellGet]
        rw [if_neg (by omega)]
        exact ih2 (fun z hz => hl z (by simp at hz ⊢; exact Or.inr hz))
    by_cases hlt : a < b
    · by_cases hv : v = 0#8
      · simp only [cellSet, hlt, hv, if_true]
        refine hz _ ?_
        intro x hx
        simp only [List.map_cons, List.mem_cons] at hx
        rcases hx with rfl | hx
        · exact hlt
        · exact lt_trans hlt (h1.1 x hx)
      · simp [cellSet, hlt, hv, cellGet]
    · by_cases heq : a = b
      · subst heq
        by_cases hv : v = 0#8
        · simp only [cellSet, hv, if_true, lt_irrefl, if_false]
          exact hz _ h1.1
        · simp [cellSet, hv, cellGet]
      · simp only [cellSet, hlt, heq, if_false, cellGet]
        rw [if_neg (fun e => heq e.symm)]
        exact ih ht

theorem cellGet_cellSet_other (m : List Host.Cell) (a x : Nat) (v : Byte) (h : x ≠ a) :
    cellGet (cellSet m a v) x = cellGet m x := by
  induction m with
  | nil => by_cases hv : v = 0#8 <;> simp [cellSet, cellGet, hv, Ne.symm h]
  | cons c t ih =>
    obtain ⟨b, w⟩ := c
    by_cases hlt : a < b
    · by_cases hv : v = 0#8 <;> simp [cellSet, hlt, hv, cellGet, Ne.symm h]
    · by_cases heq : a = b
      · subst heq
        by_cases hv : v = 0#8 <;> simp [cellSet, hv, cellGet, Ne.symm h]
      · simp only [cellSet, hlt, heq, if_false, cellGet, ih]

/-! ### The canonical form -/

theorem cellSet_addresses (m : List Host.Cell) (a : Nat) (v : Byte) (x : Nat) (h : x ∈ (cellSet m a v).map Prod.fst) :
    x = a ∨ x ∈ m.map Prod.fst := by
  induction m with
  | nil =>
    by_cases hv : v = 0#8
    · simp [cellSet, hv] at h
    · simp [cellSet, hv] at h; exact Or.inl h
  | cons c t ih =>
    obtain ⟨b, w⟩ := c
    simp only [cellSet] at h
    split at h
    · split at h
      · exact Or.inr h
      · simp only [List.map_cons, List.mem_cons] at h ⊢
        tauto
    · split at h
      · split at h
        · exact Or.inr (List.mem_cons_of_mem _ h)
        · simp only [List.map_cons, List.mem_cons] at h ⊢
          tauto
      · simp only [List.map_cons, List.mem_cons] at h ⊢
        rcases h with h | h
        · tauto
        · rcases ih h with h | h <;> tauto

theorem cellSet_wf (m : List Host.Cell) (h : Memory.wf m) (a : Nat) (v : Byte) : Memory.wf (cellSet m a v) := by
  induction m with
  | nil => by_cases hv : v = 0#8 <;> simp [cellSet, hv, Memory.wf]
  | cons c t ih =>
    obtain ⟨b, w⟩ := c
    obtain ⟨h1, h2⟩ := h
    simp only [List.map_cons, List.pairwise_cons] at h1
    have hw : w ≠ 0#8 := h2 (b, w) (by simp)
    have ht : Memory.wf t := ⟨h1.2, fun c hc => h2 c (List.mem_cons_of_mem _ hc)⟩
    have htail : ∀ x ∈ t.map Prod.fst, b < x := h1.1
    simp only [cellSet]
    split
    · rename_i hlt
      split
      · exact ⟨by simpa using h1, h2⟩
      · rename_i hv
        refine ⟨?_, ?_⟩
        · simp only [List.map_cons, List.pairwise_cons, List.mem_cons]
          refine ⟨?_, htail, ht.1⟩
          rintro x (rfl | hx)
          · exact hlt
          · exact lt_trans hlt (htail x hx)
        · intro c hc
          rcases List.mem_cons.1 hc with rfl | hc
          · exact hv
          · exact h2 c hc
    · rename_i hnl
      split
      · rename_i heq
        subst heq
        split
        · exact ht
        · rename_i hv
          refine ⟨?_, ?_⟩
          · simp only [List.map_cons, List.pairwise_cons]
            exact ⟨htail, ht.1⟩
          · intro c hc
            rcases List.mem_cons.1 hc with rfl | hc
            · exact hv
            · exact ht.2 c hc
      · rename_i hne
        have hrec := ih ht
        refine ⟨?_, ?_⟩
        · simp only [List.map_cons, List.pairwise_cons]
          refine ⟨?_, hrec.1⟩
          intro x hx
          rcases cellSet_addresses t a v x hx with rfl | hx
          · omega
          · exact htail x hx
        · intro c hc
          rcases List.mem_cons.1 hc with rfl | hc
          · exact hw
          · exact hrec.2 c hc

theorem cellPut_wf (l : List Byte) (m : List Host.Cell) (h : Memory.wf m) (a : Nat) : Memory.wf (cellPut m a l) := by
  induction l generalizing m a with
  | nil => exact h
  | cons b t ih => exact ih _ (cellSet_wf m h a b) _

theorem cellFold_wf {α : Type} (l : List α) (f : α → Nat) (g : α → Byte) (m : List Host.Cell) (h : Memory.wf m) :
    Memory.wf (l.foldl (fun m b => cellSet m (f b) (g b)) m) := by
  induction l generalizing m with
  | nil => exact h
  | cons b t ih => exact ih _ (cellSet_wf m h _ _)

theorem filter_wf (p : Host.Cell → Bool) (m : List Host.Cell) (h : Memory.wf m) : Memory.wf (m.filter p) :=
  ⟨h.1.sublist (List.Sublist.map Prod.fst (List.filter_sublist)), fun c hc => h.2 c (List.mem_of_mem_filter hc)⟩

/-! ### The operations on State that change memory -/

theorem homeWrite_wf (s : State) (bs : List (Nat × MByte)) (h : Memory.wf s.mem) : Memory.wf (s.homeWrite bs).mem :=
  cellFold_wf bs (fun b => b.1) (fun b => b.2.val) s.mem h

theorem markAD_wf (s : State) (ea : Nat) (w : Bool) (h : Memory.wf s.mem) : Memory.wf (s.markAD ea w).mem := cellSet_wf s.mem h _ _

theorem putEntry_wf (s : State) (ea : Nat) (e : BitVec 64) (h : Memory.wf s.mem) : Memory.wf (s.putEntry ea e).mem :=
  cellPut_wf _ s.mem h _

theorem zeroRange_wf (s : State) (base n : Nat) (h : Memory.wf s.mem) : Memory.wf (s.zeroRange base n).mem := filter_wf _ s.mem h

theorem copyFrame_wf (s : State) (src dst n : Nat) (h : Memory.wf s.mem) : Memory.wf (s.copyFrame src dst n).mem :=
  cellFold_wf (s.mem.filter (fun c => src ≤ c.1 && c.1 < src + n)) (fun (c : Host.Cell) => dst + (c.1 - src)) (fun c => c.2)
    (s.zeroRange dst n).mem (zeroRange_wf s dst n h)

/-- The bytes that fillFree lists stand at rising addresses of the range and are not zero. -/
theorem freeCells_wf (pa : Nat) (f : Nat → Byte) (l : List Nat) (hl : l.Pairwise (· < ·)) :
    Memory.wf (l.filterMap (fun i => if f i = 0 then none else some (pa + i, f i))) ∧
      ∀ c ∈ l.filterMap (fun i => if f i = 0 then none else some (pa + i, f i)), ∃ i ∈ l, c.1 = pa + i := by
  have hmem : ∀ (l : List Nat) (c : Host.Cell), c ∈ l.filterMap (fun i => if f i = 0 then none else some (pa + i, f i)) →
      ∃ i ∈ l, c = (pa + i, f i) ∧ f i ≠ 0 := by
    intro l c hc
    obtain ⟨i, hi, he⟩ := List.mem_filterMap.1 hc
    by_cases h0 : f i = 0 <;> simp [h0] at he
    exact ⟨i, hi, he.2.symm, h0⟩
  refine ⟨⟨?_, ?_⟩, ?_⟩
  · rw [List.pairwise_map]
    refine List.Pairwise.filterMap _ ?_ hl
    intro a b hab c hc d hd
    by_cases h0 : f a = 0 <;> simp [h0] at hc
    by_cases h1 : f b = 0 <;> simp [h1] at hd
    obtain ⟨-, rfl⟩ := hc
    obtain ⟨-, rfl⟩ := hd
    simpa using hab
  · intro c hc
    obtain ⟨i, _, rfl, h0⟩ := hmem l c hc
    exact h0
  · intro c hc
    obtain ⟨i, hi, rfl, _⟩ := hmem l c hc
    exact ⟨i, hi, rfl⟩

theorem fillFree_wf (s : State) (pa n : Nat) (h : Memory.wf s.mem) : Memory.wf (s.fillFree pa n).mem := by
  obtain ⟨hf, hb⟩ := freeCells_wf pa (fun i => Config.freeByte (s.freeCount + i)) (List.range n) List.pairwise_lt_range
  have h1 := filter_wf (fun c => decide (c.1 < pa)) s.mem h
  have h2 := filter_wf (fun c => decide (pa + n ≤ c.1)) s.mem h
  simp only [State.fillFree]
  refine ⟨?_, ?_⟩
  · simp only [List.map_append, List.pairwise_append]
    refine ⟨⟨h1.1, hf.1, ?_⟩, h2.1, ?_⟩
    · intro a ha b hb'
      obtain ⟨c, hc, rfl⟩ := List.mem_map.1 ha
      obtain ⟨d, hd, rfl⟩ := List.mem_map.1 hb'
      obtain ⟨i, _, he⟩ := hb d hd
      have := (List.mem_filter.1 hc).2
      simp at this
      omega
    · intro a ha b hb'
      obtain ⟨d, hd, rfl⟩ := List.mem_map.1 hb'
      have hd2 := (List.mem_filter.1 hd).2
      simp at hd2
      rcases List.mem_append.1 ha with ha | ha
      · obtain ⟨c, hc, rfl⟩ := List.mem_map.1 ha
        have := (List.mem_filter.1 hc).2
        simp at this
        omega
      · obtain ⟨c, hc, rfl⟩ := List.mem_map.1 ha
        obtain ⟨i, hi, he⟩ := hb c hc
        have := List.mem_range.1 hi
        omega
  · intro c hc
    rcases List.mem_append.1 hc with hc | hc
    · rcases List.mem_append.1 hc with hc | hc
      · exact h1.2 c hc
      · exact hf.2 c hc
    · exact h2.2 c hc

/-- The state after reset keeps the form. -/
theorem reset_memory_wf : Memory.wf State.reset.mem := by simp [State.reset, Memory.wf]

end Sys2Proof.Laws
end

