-- ==== Sys2Proof/Laws/State.lean ====
section
/-! SUPPORT. Keyed lists, and the fields of State after each update of one of its parts: true by rfl, so that no proof unfolds a record
update. -/

namespace Sys2Proof.Laws

open Sys2Proof.Machine

/-! ### Keyed lists -/

@[simp] theorem assocGet_assocSet_same {κ α : Type} [DecidableEq κ] (l : List (κ × α)) (k : κ) (v : α) :
    assocGet (assocSet l k v) k = some v := by
  induction l with
  | nil => simp [assocSet, assocGet]
  | cons p t ih =>
    obtain ⟨k', v'⟩ := p
    by_cases h : k' = k <;> simp [assocSet, assocGet, h, ih]

@[simp] theorem assocGet_assocSet_other {κ α : Type} [DecidableEq κ] (l : List (κ × α)) (k j : κ) (v : α) (h : j ≠ k) :
    assocGet (assocSet l k v) j = assocGet l j := by
  induction l with
  | nil => simp [assocSet, assocGet, Ne.symm h]
  | cons p t ih =>
    obtain ⟨k', v'⟩ := p
    by_cases h1 : k' = k
    · subst h1; simp [assocSet, assocGet, Ne.symm h]
    · by_cases h2 : k' = j
      · subst h2; simp [assocSet, assocGet, h1]
      · simp [assocSet, assocGet, h1, h2, ih]

@[simp] theorem assocSet_assocSet {κ α : Type} [DecidableEq κ] (l : List (κ × α)) (k : κ) (v v' : α) :
    assocSet (assocSet l k v) k v' = assocSet l k v' := by
  induction l with
  | nil => simp [assocSet]
  | cons p t ih =>
    obtain ⟨k', u⟩ := p
    by_cases h : k' = k <;> simp [assocSet, h, ih]

theorem assocGet_assocErase_other {κ α : Type} [DecidableEq κ] (l : List (κ × α)) (k j : κ) (h : j ≠ k) :
    assocGet (assocErase l k) j = assocGet l j := by
  induction l with
  | nil => rfl
  | cons p t ih =>
    obtain ⟨k', v'⟩ := p
    by_cases h1 : k' = k
    · subst h1
      have : assocErase ((k', v') :: t) k' = assocErase t k' := by simp [assocErase]
      rw [this, ih]; simp [assocGet, Ne.symm h]
    · have : assocErase ((k', v') :: t) k = (k', v') :: assocErase t k := by simp [assocErase, h1]
      rw [this]; by_cases h2 : k' = j <;> simp [assocGet, h2, ih]

theorem assocGet_assocErase_same {κ α : Type} [DecidableEq κ] (l : List (κ × α)) (k : κ) : assocGet (assocErase l k) k = none := by
  induction l with
  | nil => rfl
  | cons p t ih =>
    obtain ⟨k', v'⟩ := p
    by_cases h1 : k' = k
    · subst h1
      have : assocErase ((k', v') :: t) k' = assocErase t k' := by simp [assocErase]
      rw [this, ih]
    · have : assocErase ((k', v') :: t) k = (k', v') :: assocErase t k := by simp [assocErase, h1]
      rw [this]; simp [assocGet, h1, ih]

/-! ### Reading a part after writing it -/

@[simp] theorem setWave_wave (s : State) (k : WaveKey) (w : Wave) : (s.setWave k w).wave k = w := by simp [State.setWave, State.wave]
@[simp] theorem setWave_wave_other (s : State) (k : WaveKey) (j : WaveKey) (w : Wave) (h : j ≠ k) : (s.setWave k w).wave j = s.wave j := by
  simp [State.setWave, State.wave, h]
@[simp] theorem setWave_setWave (s : State) (k : WaveKey) (w : Wave) (y : Wave) : (s.setWave k w).setWave k y = s.setWave k y := by simp [State.setWave]
@[simp] theorem setWave_team (s : State) (k : WaveKey) (w : Wave) (j : Nat) : (s.setWave k w).team j = s.team j := rfl
@[simp] theorem setWave_crew (s : State) (k : WaveKey) (w : Wave) (j : Nat) : (s.setWave k w).crew j = s.crew j := rfl
@[simp] theorem setWave_task (s : State) (k : WaveKey) (w : Wave) (j : Nat) : (s.setWave k w).task j = s.task j := rfl
@[simp] theorem setWave_context (s : State) (k : WaveKey) (w : Wave) (j : Nat) : (s.setWave k w).context j = s.context j := rfl
@[simp] theorem setWave_core (s : State) (k : WaveKey) (w : Wave) (j : Nat) : (s.setWave k w).core j = s.core j := rfl
@[simp] theorem setWave_die (s : State) (k : WaveKey) (w : Wave) (j : Nat) : (s.setWave k w).die j = s.die j := rfl
@[simp] theorem setWave_stack (s : State) (k : WaveKey) (w : Wave) (j : Nat) : (s.setWave k w).stack j = s.stack j := rfl
@[simp] theorem setWave_group (s : State) (k : WaveKey) (w : Wave) (j : Nat) : (s.setWave k w).group j = s.group j := rfl
@[simp] theorem setWave_port (s : State) (k : WaveKey) (w : Wave) (j : Nat) : (s.setWave k w).port j = s.port j := rfl
@[simp] theorem setTeam_team (s : State) (k : Nat) (x : Team) : (s.setTeam k x).team k = x := by simp [State.setTeam, State.team]
@[simp] theorem setTeam_team_other (s : State) (k : Nat) (j : Nat) (x : Team) (h : j ≠ k) : (s.setTeam k x).team j = s.team j := by
  simp [State.setTeam, State.team, h]
@[simp] theorem setTeam_setTeam (s : State) (k : Nat) (x : Team) (y : Team) : (s.setTeam k x).setTeam k y = s.setTeam k y := by simp [State.setTeam]
@[simp] theorem setTeam_wave (s : State) (k : Nat) (x : Team) (j : WaveKey) : (s.setTeam k x).wave j = s.wave j := rfl
@[simp] theorem setTeam_crew (s : State) (k : Nat) (x : Team) (j : Nat) : (s.setTeam k x).crew j = s.crew j := rfl
@[simp] theorem setTeam_task (s : State) (k : Nat) (x : Team) (j : Nat) : (s.setTeam k x).task j = s.task j := rfl
@[simp] theorem setTeam_context (s : State) (k : Nat) (x : Team) (j : Nat) : (s.setTeam k x).context j = s.context j := rfl
@[simp] theorem setTeam_core (s : State) (k : Nat) (x : Team) (j : Nat) : (s.setTeam k x).core j = s.core j := rfl
@[simp] theorem setTeam_die (s : State) (k : Nat) (x : Team) (j : Nat) : (s.setTeam k x).die j = s.die j := rfl
@[simp] theorem setTeam_stack (s : State) (k : Nat) (x : Team) (j : Nat) : (s.setTeam k x).stack j = s.stack j := rfl
@[simp] theorem setTeam_group (s : State) (k : Nat) (x : Team) (j : Nat) : (s.setTeam k x).group j = s.group j := rfl
@[simp] theorem setTeam_port (s : State) (k : Nat) (x : Team) (j : Nat) : (s.setTeam k x).port j = s.port j := rfl
@[simp] theorem setCrew_crew (s : State) (k : Nat) (x : Crew) : (s.setCrew k x).crew k = x := by simp [State.setCrew, State.crew]
@[simp] theorem setCrew_crew_other (s : State) (k : Nat) (j : Nat) (x : Crew) (h : j ≠ k) : (s.setCrew k x).crew j = s.crew j := by
  simp [State.setCrew, State.crew, h]
@[simp] theorem setCrew_setCrew (s : State) (k : Nat) (x : Crew) (y : Crew) : (s.setCrew k x).setCrew k y = s.setCrew k y := by simp [State.setCrew]
@[simp] theorem setCrew_wave (s : State) (k : Nat) (x : Crew) (j : WaveKey) : (s.setCrew k x).wave j = s.wave j := rfl
@[simp] theorem setCrew_team (s : State) (k : Nat) (x : Crew) (j : Nat) : (s.setCrew k x).team j = s.team j := rfl
@[simp] theorem setCrew_task (s : State) (k : Nat) (x : Crew) (j : Nat) : (s.setCrew k x).task j = s.task j := rfl
@[simp] theorem setCrew_context (s : State) (k : Nat) (x : Crew) (j : Nat) : (s.setCrew k x).context j = s.context j := rfl
@[simp] theorem setCrew_core (s : State) (k : Nat) (x : Crew) (j : Nat) : (s.setCrew k x).core j = s.core j := rfl
@[simp] theorem setCrew_die (s : State) (k : Nat) (x : Crew) (j : Nat) : (s.setCrew k x).die j = s.die j := rfl
@[simp] theorem setCrew_stack (s : State) (k : Nat) (x : Crew) (j : Nat) : (s.setCrew k x).stack j = s.stack j := rfl
@[simp] theorem setCrew_group (s : State) (k : Nat) (x : Crew) (j : Nat) : (s.setCrew k x).group j = s.group j := rfl
@[simp] theorem setCrew_port (s : State) (k : Nat) (x : Crew) (j : Nat) : (s.setCrew k x).port j = s.port j := rfl
@[simp] theorem setTask_task (s : State) (k : Nat) (x : Task) : (s.setTask k x).task k = x := by simp [State.setTask, State.task]
@[simp] theorem setTask_task_other (s : State) (k : Nat) (j : Nat) (x : Task) (h : j ≠ k) : (s.setTask k x).task j = s.task j := by
  simp [State.setTask, State.task, h]
@[simp] theorem setTask_setTask (s : State) (k : Nat) (x : Task) (y : Task) : (s.setTask k x).setTask k y = s.setTask k y := by simp [State.setTask]
@[simp] theorem setTask_wave (s : State) (k : Nat) (x : Task) (j : WaveKey) : (s.setTask k x).wave j = s.wave j := rfl
@[simp] theorem setTask_team (s : State) (k : Nat) (x : Task) (j : Nat) : (s.setTask k x).team j = s.team j := rfl
@[simp] theorem setTask_crew (s : State) (k : Nat) (x : Task) (j : Nat) : (s.setTask k x).crew j = s.crew j := rfl
@[simp] theorem setTask_context (s : State) (k : Nat) (x : Task) (j : Nat) : (s.setTask k x).context j = s.context j := rfl
@[simp] theorem setTask_core (s : State) (k : Nat) (x : Task) (j : Nat) : (s.setTask k x).core j = s.core j := rfl
@[simp] theorem setTask_die (s : State) (k : Nat) (x : Task) (j : Nat) : (s.setTask k x).die j = s.die j := rfl
@[simp] theorem setTask_stack (s : State) (k : Nat) (x : Task) (j : Nat) : (s.setTask k x).stack j = s.stack j := rfl
@[simp] theorem setTask_group (s : State) (k : Nat) (x : Task) (j : Nat) : (s.setTask k x).group j = s.group j := rfl
@[simp] theorem setTask_port (s : State) (k : Nat) (x : Task) (j : Nat) : (s.setTask k x).port j = s.port j := rfl
@[simp] theorem setContext_context (s : State) (k : Nat) (x : Context) : (s.setContext k x).context k = x := by simp [State.setContext, State.context]
@[simp] theorem setContext_context_other (s : State) (k : Nat) (j : Nat) (x : Context) (h : j ≠ k) : (s.setContext k x).context j = s.context j := by
  simp [State.setContext, State.context, h]
@[simp] theorem setContext_setContext (s : State) (k : Nat) (x : Context) (y : Context) : (s.setContext k x).setContext k y = s.setContext k y := by simp [State.setContext]
@[simp] theorem setContext_wave (s : State) (k : Nat) (x : Context) (j : WaveKey) : (s.setContext k x).wave j = s.wave j := rfl
@[simp] theorem setContext_team (s : State) (k : Nat) (x : Context) (j : Nat) : (s.setContext k x).team j = s.team j := rfl
@[simp] theorem setContext_crew (s : State) (k : Nat) (x : Context) (j : Nat) : (s.setContext k x).crew j = s.crew j := rfl
@[simp] theorem setContext_task (s : State) (k : Nat) (x : Context) (j : Nat) : (s.setContext k x).task j = s.task j := rfl
@[simp] theorem setContext_core (s : State) (k : Nat) (x : Context) (j : Nat) : (s.setContext k x).core j = s.core j := rfl
@[simp] theorem setContext_die (s : State) (k : Nat) (x : Context) (j : Nat) : (s.setContext k x).die j = s.die j := rfl
@[simp] theorem setContext_stack (s : State) (k : Nat) (x : Context) (j : Nat) : (s.setContext k x).stack j = s.stack j := rfl
@[simp] theorem setContext_group (s : State) (k : Nat) (x : Context) (j : Nat) : (s.setContext k x).group j = s.group j := rfl
@[simp] theorem setContext_port (s : State) (k : Nat) (x : Context) (j : Nat) : (s.setContext k x).port j = s.port j := rfl
@[simp] theorem setCore_core (s : State) (k : Nat) (x : CoreSt) : (s.setCore k x).core k = x := by simp [State.setCore, State.core]
@[simp] theorem setCore_core_other (s : State) (k : Nat) (j : Nat) (x : CoreSt) (h : j ≠ k) : (s.setCore k x).core j = s.core j := by
  simp [State.setCore, State.core, h]
@[simp] theorem setCore_setCore (s : State) (k : Nat) (x : CoreSt) (y : CoreSt) : (s.setCore k x).setCore k y = s.setCore k y := by simp [State.setCore]
@[simp] theorem setCore_wave (s : State) (k : Nat) (x : CoreSt) (j : WaveKey) : (s.setCore k x).wave j = s.wave j := rfl
@[simp] theorem setCore_team (s : State) (k : Nat) (x : CoreSt) (j : Nat) : (s.setCore k x).team j = s.team j := rfl
@[simp] theorem setCore_crew (s : State) (k : Nat) (x : CoreSt) (j : Nat) : (s.setCore k x).crew j = s.crew j := rfl
@[simp] theorem setCore_task (s : State) (k : Nat) (x : CoreSt) (j : Nat) : (s.setCore k x).task j = s.task j := rfl
@[simp] theorem setCore_context (s : State) (k : Nat) (x : CoreSt) (j : Nat) : (s.setCore k x).context j = s.context j := rfl
@[simp] theorem setCore_die (s : State) (k : Nat) (x : CoreSt) (j : Nat) : (s.setCore k x).die j = s.die j := rfl
@[simp] theorem setCore_stack (s : State) (k : Nat) (x : CoreSt) (j : Nat) : (s.setCore k x).stack j = s.stack j := rfl
@[simp] theorem setCore_group (s : State) (k : Nat) (x : CoreSt) (j : Nat) : (s.setCore k x).group j = s.group j := rfl
@[simp] theorem setCore_port (s : State) (k : Nat) (x : CoreSt) (j : Nat) : (s.setCore k x).port j = s.port j := rfl
@[simp] theorem setDie_die (s : State) (k : Nat) (x : Die) : (s.setDie k x).die k = x := by simp [State.setDie, State.die]
@[simp] theorem setDie_die_other (s : State) (k : Nat) (j : Nat) (x : Die) (h : j ≠ k) : (s.setDie k x).die j = s.die j := by
  simp [State.setDie, State.die, h]
@[simp] theorem setDie_setDie (s : State) (k : Nat) (x : Die) (y : Die) : (s.setDie k x).setDie k y = s.setDie k y := by simp [State.setDie]
@[simp] theorem setDie_wave (s : State) (k : Nat) (x : Die) (j : WaveKey) : (s.setDie k x).wave j = s.wave j := rfl
@[simp] theorem setDie_team (s : State) (k : Nat) (x : Die) (j : Nat) : (s.setDie k x).team j = s.team j := rfl
@[simp] theorem setDie_crew (s : State) (k : Nat) (x : Die) (j : Nat) : (s.setDie k x).crew j = s.crew j := rfl
@[simp] theorem setDie_task (s : State) (k : Nat) (x : Die) (j : Nat) : (s.setDie k x).task j = s.task j := rfl
@[simp] theorem setDie_context (s : State) (k : Nat) (x : Die) (j : Nat) : (s.setDie k x).context j = s.context j := rfl
@[simp] theorem setDie_core (s : State) (k : Nat) (x : Die) (j : Nat) : (s.setDie k x).core j = s.core j := rfl
@[simp] theorem setDie_stack (s : State) (k : Nat) (x : Die) (j : Nat) : (s.setDie k x).stack j = s.stack j := rfl
@[simp] theorem setDie_group (s : State) (k : Nat) (x : Die) (j : Nat) : (s.setDie k x).group j = s.group j := rfl
@[simp] theorem setDie_port (s : State) (k : Nat) (x : Die) (j : Nat) : (s.setDie k x).port j = s.port j := rfl
@[simp] theorem setStack_stack (s : State) (k : Nat) (x : Stack) : (s.setStack k x).stack k = x := by simp [State.setStack, State.stack]
@[simp] theorem setStack_stack_other (s : State) (k : Nat) (j : Nat) (x : Stack) (h : j ≠ k) : (s.setStack k x).stack j = s.stack j := by
  simp [State.setStack, State.stack, h]
@[simp] theorem setStack_setStack (s : State) (k : Nat) (x : Stack) (y : Stack) : (s.setStack k x).setStack k y = s.setStack k y := by simp [State.setStack]
@[simp] theorem setStack_wave (s : State) (k : Nat) (x : Stack) (j : WaveKey) : (s.setStack k x).wave j = s.wave j := rfl
@[simp] theorem setStack_team (s : State) (k : Nat) (x : Stack) (j : Nat) : (s.setStack k x).team j = s.team j := rfl
@[simp] theorem setStack_crew (s : State) (k : Nat) (x : Stack) (j : Nat) : (s.setStack k x).crew j = s.crew j := rfl
@[simp] theorem setStack_task (s : State) (k : Nat) (x : Stack) (j : Nat) : (s.setStack k x).task j = s.task j := rfl
@[simp] theorem setStack_context (s : State) (k : Nat) (x : Stack) (j : Nat) : (s.setStack k x).context j = s.context j := rfl
@[simp] theorem setStack_core (s : State) (k : Nat) (x : Stack) (j : Nat) : (s.setStack k x).core j = s.core j := rfl
@[simp] theorem setStack_die (s : State) (k : Nat) (x : Stack) (j : Nat) : (s.setStack k x).die j = s.die j := rfl
@[simp] theorem setStack_group (s : State) (k : Nat) (x : Stack) (j : Nat) : (s.setStack k x).group j = s.group j := rfl
@[simp] theorem setStack_port (s : State) (k : Nat) (x : Stack) (j : Nat) : (s.setStack k x).port j = s.port j := rfl
@[simp] theorem setGroup_group (s : State) (k : Nat) (x : Group) : (s.setGroup k x).group k = x := by simp [State.setGroup, State.group]
@[simp] theorem setGroup_group_other (s : State) (k : Nat) (j : Nat) (x : Group) (h : j ≠ k) : (s.setGroup k x).group j = s.group j := by
  simp [State.setGroup, State.group, h]
@[simp] theorem setGroup_setGroup (s : State) (k : Nat) (x : Group) (y : Group) : (s.setGroup k x).setGroup k y = s.setGroup k y := by simp [State.setGroup]
@[simp] theorem setGroup_wave (s : State) (k : Nat) (x : Group) (j : WaveKey) : (s.setGroup k x).wave j = s.wave j := rfl
@[simp] theorem setGroup_team (s : State) (k : Nat) (x : Group) (j : Nat) : (s.setGroup k x).team j = s.team j := rfl
@[simp] theorem setGroup_crew (s : State) (k : Nat) (x : Group) (j : Nat) : (s.setGroup k x).crew j = s.crew j := rfl
@[simp] theorem setGroup_task (s : State) (k : Nat) (x : Group) (j : Nat) : (s.setGroup k x).task j = s.task j := rfl
@[simp] theorem setGroup_context (s : State) (k : Nat) (x : Group) (j : Nat) : (s.setGroup k x).context j = s.context j := rfl
@[simp] theorem setGroup_core (s : State) (k : Nat) (x : Group) (j : Nat) : (s.setGroup k x).core j = s.core j := rfl
@[simp] theorem setGroup_die (s : State) (k : Nat) (x : Group) (j : Nat) : (s.setGroup k x).die j = s.die j := rfl
@[simp] theorem setGroup_stack (s : State) (k : Nat) (x : Group) (j : Nat) : (s.setGroup k x).stack j = s.stack j := rfl
@[simp] theorem setGroup_port (s : State) (k : Nat) (x : Group) (j : Nat) : (s.setGroup k x).port j = s.port j := rfl
@[simp] theorem setPort_port (s : State) (k : Nat) (x : UaPort) : (s.setPort k x).port k = x := by simp [State.setPort, State.port]
@[simp] theorem setPort_port_other (s : State) (k : Nat) (j : Nat) (x : UaPort) (h : j ≠ k) : (s.setPort k x).port j = s.port j := by
  simp [State.setPort, State.port, h]
@[simp] theorem setPort_setPort (s : State) (k : Nat) (x : UaPort) (y : UaPort) : (s.setPort k x).setPort k y = s.setPort k y := by simp [State.setPort]
@[simp] theorem setPort_wave (s : State) (k : Nat) (x : UaPort) (j : WaveKey) : (s.setPort k x).wave j = s.wave j := rfl
@[simp] theorem setPort_team (s : State) (k : Nat) (x : UaPort) (j : Nat) : (s.setPort k x).team j = s.team j := rfl
@[simp] theorem setPort_crew (s : State) (k : Nat) (x : UaPort) (j : Nat) : (s.setPort k x).crew j = s.crew j := rfl
@[simp] theorem setPort_task (s : State) (k : Nat) (x : UaPort) (j : Nat) : (s.setPort k x).task j = s.task j := rfl
@[simp] theorem setPort_context (s : State) (k : Nat) (x : UaPort) (j : Nat) : (s.setPort k x).context j = s.context j := rfl
@[simp] theorem setPort_core (s : State) (k : Nat) (x : UaPort) (j : Nat) : (s.setPort k x).core j = s.core j := rfl
@[simp] theorem setPort_die (s : State) (k : Nat) (x : UaPort) (j : Nat) : (s.setPort k x).die j = s.die j := rfl
@[simp] theorem setPort_stack (s : State) (k : Nat) (x : UaPort) (j : Nat) : (s.setPort k x).stack j = s.stack j := rfl
@[simp] theorem setPort_group (s : State) (k : Nat) (x : UaPort) (j : Nat) : (s.setPort k x).group j = s.group j := rfl

/-! ### Each field of State after each update -/

@[simp] theorem setWave_agenda_field (s : State) (k : WaveKey) (w : Wave) : (s.setWave k w).agenda = s.agenda := rfl
@[simp] theorem setWave_accidents_field (s : State) (k : WaveKey) (w : Wave) : (s.setWave k w).accidents = s.accidents := rfl
@[simp] theorem setWave_sel_field (s : State) (k : WaveKey) (w : Wave) : (s.setWave k w).sel = s.sel := rfl
@[simp] theorem setWave_pending_field (s : State) (k : WaveKey) (w : Wave) : (s.setWave k w).pending = s.pending := rfl
@[simp] theorem setWave_prior_field (s : State) (k : WaveKey) (w : Wave) : (s.setWave k w).prior = s.prior := rfl
@[simp] theorem setWave_phase_field (s : State) (k : WaveKey) (w : Wave) : (s.setWave k w).phase = s.phase := rfl
@[simp] theorem setWave_nextId_field (s : State) (k : WaveKey) (w : Wave) : (s.setWave k w).nextId = s.nextId := rfl
@[simp] theorem setWave_freeCount_field (s : State) (k : WaveKey) (w : Wave) : (s.setWave k w).freeCount = s.freeCount := rfl
@[simp] theorem setWave_clock_field (s : State) (k : WaveKey) (w : Wave) : (s.setWave k w).clock = s.clock := rfl
@[simp] theorem setWave_ptimeBase_field (s : State) (k : WaveKey) (w : Wave) : (s.setWave k w).ptimeBase = s.ptimeBase := rfl
@[simp] theorem setWave_ptimeAt_field (s : State) (k : WaveKey) (w : Wave) : (s.setWave k w).ptimeAt = s.ptimeAt := rfl
@[simp] theorem setWave_mem_field (s : State) (k : WaveKey) (w : Wave) : (s.setWave k w).mem = s.mem := rfl
@[simp] theorem setWave_poisoned_field (s : State) (k : WaveKey) (w : Wave) : (s.setWave k w).poisoned = s.poisoned := rfl
@[simp] theorem setWave_localGib_field (s : State) (k : WaveKey) (w : Wave) : (s.setWave k w).localGib = s.localGib := rfl
@[simp] theorem setWave_binPool_field (s : State) (k : WaveKey) (w : Wave) : (s.setWave k w).binPool = s.binPool := rfl
@[simp] theorem setWave_frames_field (s : State) (k : WaveKey) (w : Wave) : (s.setWave k w).frames = s.frames := rfl
@[simp] theorem setWave_scouts_field (s : State) (k : WaveKey) (w : Wave) : (s.setWave k w).scouts = s.scouts := rfl
@[simp] theorem setWave_teams_field (s : State) (k : WaveKey) (w : Wave) : (s.setWave k w).teams = s.teams := rfl
@[simp] theorem setWave_crews_field (s : State) (k : WaveKey) (w : Wave) : (s.setWave k w).crews = s.crews := rfl
@[simp] theorem setWave_tasks_field (s : State) (k : WaveKey) (w : Wave) : (s.setWave k w).tasks = s.tasks := rfl
@[simp] theorem setWave_contexts_field (s : State) (k : WaveKey) (w : Wave) : (s.setWave k w).contexts = s.contexts := rfl
@[simp] theorem setWave_lastChosen_field (s : State) (k : WaveKey) (w : Wave) : (s.setWave k w).lastChosen = s.lastChosen := rfl
@[simp] theorem setWave_chosen_field (s : State) (k : WaveKey) (w : Wave) : (s.setWave k w).chosen = s.chosen := rfl
@[simp] theorem setWave_lastDepEval_field (s : State) (k : WaveKey) (w : Wave) : (s.setWave k w).lastDepEval = s.lastDepEval := rfl
@[simp] theorem setWave_groups_field (s : State) (k : WaveKey) (w : Wave) : (s.setWave k w).groups = s.groups := rfl
@[simp] theorem setWave_cores_field (s : State) (k : WaveKey) (w : Wave) : (s.setWave k w).cores = s.cores := rfl
@[simp] theorem setWave_dies_field (s : State) (k : WaveKey) (w : Wave) : (s.setWave k w).dies = s.dies := rfl
@[simp] theorem setWave_hbm_field (s : State) (k : WaveKey) (w : Wave) : (s.setWave k w).hbm = s.hbm := rfl
@[simp] theorem setWave_net_field (s : State) (k : WaveKey) (w : Wave) : (s.setWave k w).net = s.net := rfl
@[simp] theorem setWave_faults_field (s : State) (k : WaveKey) (w : Wave) : (s.setWave k w).faults = s.faults := rfl
@[simp] theorem setWave_invalidations_field (s : State) (k : WaveKey) (w : Wave) : (s.setWave k w).invalidations = s.invalidations := rfl
@[simp] theorem setWave_migrations_field (s : State) (k : WaveKey) (w : Wave) : (s.setWave k w).migrations = s.migrations := rfl
@[simp] theorem setWave_quiescence_field (s : State) (k : WaveKey) (w : Wave) : (s.setWave k w).quiescence = s.quiescence := rfl
@[simp] theorem setWave_quiesceAt_field (s : State) (k : WaveKey) (w : Wave) : (s.setWave k w).quiesceAt = s.quiesceAt := rfl
@[simp] theorem setWave_spoil_field (s : State) (k : WaveKey) (w : Wave) : (s.setWave k w).spoil = s.spoil := rfl
@[simp] theorem setWave_log_field (s : State) (k : WaveKey) (w : Wave) : (s.setWave k w).log = s.log := rfl
@[simp] theorem setWave_logSeq_field (s : State) (k : WaveKey) (w : Wave) : (s.setWave k w).logSeq = s.logSeq := rfl
@[simp] theorem setWave_logLost_field (s : State) (k : WaveKey) (w : Wave) : (s.setWave k w).logLost = s.logLost := rfl
@[simp] theorem setWave_passes_field (s : State) (k : WaveKey) (w : Wave) : (s.setWave k w).passes = s.passes := rfl
@[simp] theorem setWave_sessions_field (s : State) (k : WaveKey) (w : Wave) : (s.setWave k w).sessions = s.sessions := rfl
@[simp] theorem setWave_outbox_field (s : State) (k : WaveKey) (w : Wave) : (s.setWave k w).outbox = s.outbox := rfl
@[simp] theorem setWave_rdmaOut_field (s : State) (k : WaveKey) (w : Wave) : (s.setWave k w).rdmaOut = s.rdmaOut := rfl
@[simp] theorem setWave_hostPorts_field (s : State) (k : WaveKey) (w : Wave) : (s.setWave k w).hostPorts = s.hostPorts := rfl
@[simp] theorem setWave_fabmap_field (s : State) (k : WaveKey) (w : Wave) : (s.setWave k w).fabmap = s.fabmap := rfl
@[simp] theorem setWave_ports_field (s : State) (k : WaveKey) (w : Wave) : (s.setWave k w).ports = s.ports := rfl
@[simp] theorem setWave_cgroups_field (s : State) (k : WaveKey) (w : Wave) : (s.setWave k w).cgroups = s.cgroups := rfl
@[simp] theorem setWave_patches_field (s : State) (k : WaveKey) (w : Wave) : (s.setWave k w).patches = s.patches := rfl
@[simp] theorem setWave_patchVersion_field (s : State) (k : WaveKey) (w : Wave) : (s.setWave k w).patchVersion = s.patchVersion := rfl
@[simp] theorem setWave_upsets_field (s : State) (k : WaveKey) (w : Wave) : (s.setWave k w).upsets = s.upsets := rfl
@[simp] theorem setTeam_agenda_field (s : State) (k : Nat) (x : Team) : (s.setTeam k x).agenda = s.agenda := rfl
@[simp] theorem setTeam_accidents_field (s : State) (k : Nat) (x : Team) : (s.setTeam k x).accidents = s.accidents := rfl
@[simp] theorem setTeam_sel_field (s : State) (k : Nat) (x : Team) : (s.setTeam k x).sel = s.sel := rfl
@[simp] theorem setTeam_pending_field (s : State) (k : Nat) (x : Team) : (s.setTeam k x).pending = s.pending := rfl
@[simp] theorem setTeam_prior_field (s : State) (k : Nat) (x : Team) : (s.setTeam k x).prior = s.prior := rfl
@[simp] theorem setTeam_phase_field (s : State) (k : Nat) (x : Team) : (s.setTeam k x).phase = s.phase := rfl
@[simp] theorem setTeam_nextId_field (s : State) (k : Nat) (x : Team) : (s.setTeam k x).nextId = s.nextId := rfl
@[simp] theorem setTeam_freeCount_field (s : State) (k : Nat) (x : Team) : (s.setTeam k x).freeCount = s.freeCount := rfl
@[simp] theorem setTeam_clock_field (s : State) (k : Nat) (x : Team) : (s.setTeam k x).clock = s.clock := rfl
@[simp] theorem setTeam_ptimeBase_field (s : State) (k : Nat) (x : Team) : (s.setTeam k x).ptimeBase = s.ptimeBase := rfl
@[simp] theorem setTeam_ptimeAt_field (s : State) (k : Nat) (x : Team) : (s.setTeam k x).ptimeAt = s.ptimeAt := rfl
@[simp] theorem setTeam_mem_field (s : State) (k : Nat) (x : Team) : (s.setTeam k x).mem = s.mem := rfl
@[simp] theorem setTeam_poisoned_field (s : State) (k : Nat) (x : Team) : (s.setTeam k x).poisoned = s.poisoned := rfl
@[simp] theorem setTeam_localGib_field (s : State) (k : Nat) (x : Team) : (s.setTeam k x).localGib = s.localGib := rfl
@[simp] theorem setTeam_binPool_field (s : State) (k : Nat) (x : Team) : (s.setTeam k x).binPool = s.binPool := rfl
@[simp] theorem setTeam_frames_field (s : State) (k : Nat) (x : Team) : (s.setTeam k x).frames = s.frames := rfl
@[simp] theorem setTeam_waves_field (s : State) (k : Nat) (x : Team) : (s.setTeam k x).waves = s.waves := rfl
@[simp] theorem setTeam_scouts_field (s : State) (k : Nat) (x : Team) : (s.setTeam k x).scouts = s.scouts := rfl
@[simp] theorem setTeam_crews_field (s : State) (k : Nat) (x : Team) : (s.setTeam k x).crews = s.crews := rfl
@[simp] theorem setTeam_tasks_field (s : State) (k : Nat) (x : Team) : (s.setTeam k x).tasks = s.tasks := rfl
@[simp] theorem setTeam_contexts_field (s : State) (k : Nat) (x : Team) : (s.setTeam k x).contexts = s.contexts := rfl
@[simp] theorem setTeam_lastChosen_field (s : State) (k : Nat) (x : Team) : (s.setTeam k x).lastChosen = s.lastChosen := rfl
@[simp] theorem setTeam_chosen_field (s : State) (k : Nat) (x : Team) : (s.setTeam k x).chosen = s.chosen := rfl
@[simp] theorem setTeam_lastDepEval_field (s : State) (k : Nat) (x : Team) : (s.setTeam k x).lastDepEval = s.lastDepEval := rfl
@[simp] theorem setTeam_groups_field (s : State) (k : Nat) (x : Team) : (s.setTeam k x).groups = s.groups := rfl
@[simp] theorem setTeam_cores_field (s : State) (k : Nat) (x : Team) : (s.setTeam k x).cores = s.cores := rfl
@[simp] theorem setTeam_dies_field (s : State) (k : Nat) (x : Team) : (s.setTeam k x).dies = s.dies := rfl
@[simp] theorem setTeam_hbm_field (s : State) (k : Nat) (x : Team) : (s.setTeam k x).hbm = s.hbm := rfl
@[simp] theorem setTeam_net_field (s : State) (k : Nat) (x : Team) : (s.setTeam k x).net = s.net := rfl
@[simp] theorem setTeam_faults_field (s : State) (k : Nat) (x : Team) : (s.setTeam k x).faults = s.faults := rfl
@[simp] theorem setTeam_invalidations_field (s : State) (k : Nat) (x : Team) : (s.setTeam k x).invalidations = s.invalidations := rfl
@[simp] theorem setTeam_migrations_field (s : State) (k : Nat) (x : Team) : (s.setTeam k x).migrations = s.migrations := rfl
@[simp] theorem setTeam_quiescence_field (s : State) (k : Nat) (x : Team) : (s.setTeam k x).quiescence = s.quiescence := rfl
@[simp] theorem setTeam_quiesceAt_field (s : State) (k : Nat) (x : Team) : (s.setTeam k x).quiesceAt = s.quiesceAt := rfl
@[simp] theorem setTeam_spoil_field (s : State) (k : Nat) (x : Team) : (s.setTeam k x).spoil = s.spoil := rfl
@[simp] theorem setTeam_log_field (s : State) (k : Nat) (x : Team) : (s.setTeam k x).log = s.log := rfl
@[simp] theorem setTeam_logSeq_field (s : State) (k : Nat) (x : Team) : (s.setTeam k x).logSeq = s.logSeq := rfl
@[simp] theorem setTeam_logLost_field (s : State) (k : Nat) (x : Team) : (s.setTeam k x).logLost = s.logLost := rfl
@[simp] theorem setTeam_passes_field (s : State) (k : Nat) (x : Team) : (s.setTeam k x).passes = s.passes := rfl
@[simp] theorem setTeam_sessions_field (s : State) (k : Nat) (x : Team) : (s.setTeam k x).sessions = s.sessions := rfl
@[simp] theorem setTeam_outbox_field (s : State) (k : Nat) (x : Team) : (s.setTeam k x).outbox = s.outbox := rfl
@[simp] theorem setTeam_rdmaOut_field (s : State) (k : Nat) (x : Team) : (s.setTeam k x).rdmaOut = s.rdmaOut := rfl
@[simp] theorem setTeam_hostPorts_field (s : State) (k : Nat) (x : Team) : (s.setTeam k x).hostPorts = s.hostPorts := rfl
@[simp] theorem setTeam_fabmap_field (s : State) (k : Nat) (x : Team) : (s.setTeam k x).fabmap = s.fabmap := rfl
@[simp] theorem setTeam_ports_field (s : State) (k : Nat) (x : Team) : (s.setTeam k x).ports = s.ports := rfl
@[simp] theorem setTeam_cgroups_field (s : State) (k : Nat) (x : Team) : (s.setTeam k x).cgroups = s.cgroups := rfl
@[simp] theorem setTeam_patches_field (s : State) (k : Nat) (x : Team) : (s.setTeam k x).patches = s.patches := rfl
@[simp] theorem setTeam_patchVersion_field (s : State) (k : Nat) (x : Team) : (s.setTeam k x).patchVersion = s.patchVersion := rfl
@[simp] theorem setTeam_upsets_field (s : State) (k : Nat) (x : Team) : (s.setTeam k x).upsets = s.upsets := rfl
@[simp] theorem setCrew_agenda_field (s : State) (k : Nat) (x : Crew) : (s.setCrew k x).agenda = s.agenda := rfl
@[simp] theorem setCrew_accidents_field (s : State) (k : Nat) (x : Crew) : (s.setCrew k x).accidents = s.accidents := rfl
@[simp] theorem setCrew_sel_field (s : State) (k : Nat) (x : Crew) : (s.setCrew k x).sel = s.sel := rfl
@[simp] theorem setCrew_pending_field (s : State) (k : Nat) (x : Crew) : (s.setCrew k x).pending = s.pending := rfl
@[simp] theorem setCrew_prior_field (s : State) (k : Nat) (x : Crew) : (s.setCrew k x).prior = s.prior := rfl
@[simp] theorem setCrew_phase_field (s : State) (k : Nat) (x : Crew) : (s.setCrew k x).phase = s.phase := rfl
@[simp] theorem setCrew_nextId_field (s : State) (k : Nat) (x : Crew) : (s.setCrew k x).nextId = s.nextId := rfl
@[simp] theorem setCrew_freeCount_field (s : State) (k : Nat) (x : Crew) : (s.setCrew k x).freeCount = s.freeCount := rfl
@[simp] theorem setCrew_clock_field (s : State) (k : Nat) (x : Crew) : (s.setCrew k x).clock = s.clock := rfl
@[simp] theorem setCrew_ptimeBase_field (s : State) (k : Nat) (x : Crew) : (s.setCrew k x).ptimeBase = s.ptimeBase := rfl
@[simp] theorem setCrew_ptimeAt_field (s : State) (k : Nat) (x : Crew) : (s.setCrew k x).ptimeAt = s.ptimeAt := rfl
@[simp] theorem setCrew_mem_field (s : State) (k : Nat) (x : Crew) : (s.setCrew k x).mem = s.mem := rfl
@[simp] theorem setCrew_poisoned_field (s : State) (k : Nat) (x : Crew) : (s.setCrew k x).poisoned = s.poisoned := rfl
@[simp] theorem setCrew_localGib_field (s : State) (k : Nat) (x : Crew) : (s.setCrew k x).localGib = s.localGib := rfl
@[simp] theorem setCrew_binPool_field (s : State) (k : Nat) (x : Crew) : (s.setCrew k x).binPool = s.binPool := rfl
@[simp] theorem setCrew_frames_field (s : State) (k : Nat) (x : Crew) : (s.setCrew k x).frames = s.frames := rfl
@[simp] theorem setCrew_waves_field (s : State) (k : Nat) (x : Crew) : (s.setCrew k x).waves = s.waves := rfl
@[simp] theorem setCrew_scouts_field (s : State) (k : Nat) (x : Crew) : (s.setCrew k x).scouts = s.scouts := rfl
@[simp] theorem setCrew_teams_field (s : State) (k : Nat) (x : Crew) : (s.setCrew k x).teams = s.teams := rfl
@[simp] theorem setCrew_tasks_field (s : State) (k : Nat) (x : Crew) : (s.setCrew k x).tasks = s.tasks := rfl
@[simp] theorem setCrew_contexts_field (s : State) (k : Nat) (x : Crew) : (s.setCrew k x).contexts = s.contexts := rfl
@[simp] theorem setCrew_lastChosen_field (s : State) (k : Nat) (x : Crew) : (s.setCrew k x).lastChosen = s.lastChosen := rfl
@[simp] theorem setCrew_chosen_field (s : State) (k : Nat) (x : Crew) : (s.setCrew k x).chosen = s.chosen := rfl
@[simp] theorem setCrew_lastDepEval_field (s : State) (k : Nat) (x : Crew) : (s.setCrew k x).lastDepEval = s.lastDepEval := rfl
@[simp] theorem setCrew_groups_field (s : State) (k : Nat) (x : Crew) : (s.setCrew k x).groups = s.groups := rfl
@[simp] theorem setCrew_cores_field (s : State) (k : Nat) (x : Crew) : (s.setCrew k x).cores = s.cores := rfl
@[simp] theorem setCrew_dies_field (s : State) (k : Nat) (x : Crew) : (s.setCrew k x).dies = s.dies := rfl
@[simp] theorem setCrew_hbm_field (s : State) (k : Nat) (x : Crew) : (s.setCrew k x).hbm = s.hbm := rfl
@[simp] theorem setCrew_net_field (s : State) (k : Nat) (x : Crew) : (s.setCrew k x).net = s.net := rfl
@[simp] theorem setCrew_faults_field (s : State) (k : Nat) (x : Crew) : (s.setCrew k x).faults = s.faults := rfl
@[simp] theorem setCrew_invalidations_field (s : State) (k : Nat) (x : Crew) : (s.setCrew k x).invalidations = s.invalidations := rfl
@[simp] theorem setCrew_migrations_field (s : State) (k : Nat) (x : Crew) : (s.setCrew k x).migrations = s.migrations := rfl
@[simp] theorem setCrew_quiescence_field (s : State) (k : Nat) (x : Crew) : (s.setCrew k x).quiescence = s.quiescence := rfl
@[simp] theorem setCrew_quiesceAt_field (s : State) (k : Nat) (x : Crew) : (s.setCrew k x).quiesceAt = s.quiesceAt := rfl
@[simp] theorem setCrew_spoil_field (s : State) (k : Nat) (x : Crew) : (s.setCrew k x).spoil = s.spoil := rfl
@[simp] theorem setCrew_log_field (s : State) (k : Nat) (x : Crew) : (s.setCrew k x).log = s.log := rfl
@[simp] theorem setCrew_logSeq_field (s : State) (k : Nat) (x : Crew) : (s.setCrew k x).logSeq = s.logSeq := rfl
@[simp] theorem setCrew_logLost_field (s : State) (k : Nat) (x : Crew) : (s.setCrew k x).logLost = s.logLost := rfl
@[simp] theorem setCrew_passes_field (s : State) (k : Nat) (x : Crew) : (s.setCrew k x).passes = s.passes := rfl
@[simp] theorem setCrew_sessions_field (s : State) (k : Nat) (x : Crew) : (s.setCrew k x).sessions = s.sessions := rfl
@[simp] theorem setCrew_outbox_field (s : State) (k : Nat) (x : Crew) : (s.setCrew k x).outbox = s.outbox := rfl
@[simp] theorem setCrew_rdmaOut_field (s : State) (k : Nat) (x : Crew) : (s.setCrew k x).rdmaOut = s.rdmaOut := rfl
@[simp] theorem setCrew_hostPorts_field (s : State) (k : Nat) (x : Crew) : (s.setCrew k x).hostPorts = s.hostPorts := rfl
@[simp] theorem setCrew_fabmap_field (s : State) (k : Nat) (x : Crew) : (s.setCrew k x).fabmap = s.fabmap := rfl
@[simp] theorem setCrew_ports_field (s : State) (k : Nat) (x : Crew) : (s.setCrew k x).ports = s.ports := rfl
@[simp] theorem setCrew_cgroups_field (s : State) (k : Nat) (x : Crew) : (s.setCrew k x).cgroups = s.cgroups := rfl
@[simp] theorem setCrew_patches_field (s : State) (k : Nat) (x : Crew) : (s.setCrew k x).patches = s.patches := rfl
@[simp] theorem setCrew_patchVersion_field (s : State) (k : Nat) (x : Crew) : (s.setCrew k x).patchVersion = s.patchVersion := rfl
@[simp] theorem setCrew_upsets_field (s : State) (k : Nat) (x : Crew) : (s.setCrew k x).upsets = s.upsets := rfl
@[simp] theorem setTask_agenda_field (s : State) (k : Nat) (x : Task) : (s.setTask k x).agenda = s.agenda := rfl
@[simp] theorem setTask_accidents_field (s : State) (k : Nat) (x : Task) : (s.setTask k x).accidents = s.accidents := rfl
@[simp] theorem setTask_sel_field (s : State) (k : Nat) (x : Task) : (s.setTask k x).sel = s.sel := rfl
@[simp] theorem setTask_pending_field (s : State) (k : Nat) (x : Task) : (s.setTask k x).pending = s.pending := rfl
@[simp] theorem setTask_prior_field (s : State) (k : Nat) (x : Task) : (s.setTask k x).prior = s.prior := rfl
@[simp] theorem setTask_phase_field (s : State) (k : Nat) (x : Task) : (s.setTask k x).phase = s.phase := rfl
@[simp] theorem setTask_nextId_field (s : State) (k : Nat) (x : Task) : (s.setTask k x).nextId = s.nextId := rfl
@[simp] theorem setTask_freeCount_field (s : State) (k : Nat) (x : Task) : (s.setTask k x).freeCount = s.freeCount := rfl
@[simp] theorem setTask_clock_field (s : State) (k : Nat) (x : Task) : (s.setTask k x).clock = s.clock := rfl
@[simp] theorem setTask_ptimeBase_field (s : State) (k : Nat) (x : Task) : (s.setTask k x).ptimeBase = s.ptimeBase := rfl
@[simp] theorem setTask_ptimeAt_field (s : State) (k : Nat) (x : Task) : (s.setTask k x).ptimeAt = s.ptimeAt := rfl
@[simp] theorem setTask_mem_field (s : State) (k : Nat) (x : Task) : (s.setTask k x).mem = s.mem := rfl
@[simp] theorem setTask_poisoned_field (s : State) (k : Nat) (x : Task) : (s.setTask k x).poisoned = s.poisoned := rfl
@[simp] theorem setTask_localGib_field (s : State) (k : Nat) (x : Task) : (s.setTask k x).localGib = s.localGib := rfl
@[simp] theorem setTask_binPool_field (s : State) (k : Nat) (x : Task) : (s.setTask k x).binPool = s.binPool := rfl
@[simp] theorem setTask_frames_field (s : State) (k : Nat) (x : Task) : (s.setTask k x).frames = s.frames := rfl
@[simp] theorem setTask_waves_field (s : State) (k : Nat) (x : Task) : (s.setTask k x).waves = s.waves := rfl
@[simp] theorem setTask_scouts_field (s : State) (k : Nat) (x : Task) : (s.setTask k x).scouts = s.scouts := rfl
@[simp] theorem setTask_teams_field (s : State) (k : Nat) (x : Task) : (s.setTask k x).teams = s.teams := rfl
@[simp] theorem setTask_crews_field (s : State) (k : Nat) (x : Task) : (s.setTask k x).crews = s.crews := rfl
@[simp] theorem setTask_contexts_field (s : State) (k : Nat) (x : Task) : (s.setTask k x).contexts = s.contexts := rfl
@[simp] theorem setTask_lastChosen_field (s : State) (k : Nat) (x : Task) : (s.setTask k x).lastChosen = s.lastChosen := rfl
@[simp] theorem setTask_chosen_field (s : State) (k : Nat) (x : Task) : (s.setTask k x).chosen = s.chosen := rfl
@[simp] theorem setTask_lastDepEval_field (s : State) (k : Nat) (x : Task) : (s.setTask k x).lastDepEval = s.lastDepEval := rfl
@[simp] theorem setTask_groups_field (s : State) (k : Nat) (x : Task) : (s.setTask k x).groups = s.groups := rfl
@[simp] theorem setTask_cores_field (s : State) (k : Nat) (x : Task) : (s.setTask k x).cores = s.cores := rfl
@[simp] theorem setTask_dies_field (s : State) (k : Nat) (x : Task) : (s.setTask k x).dies = s.dies := rfl
@[simp] theorem setTask_hbm_field (s : State) (k : Nat) (x : Task) : (s.setTask k x).hbm = s.hbm := rfl
@[simp] theorem setTask_net_field (s : State) (k : Nat) (x : Task) : (s.setTask k x).net = s.net := rfl
@[simp] theorem setTask_faults_field (s : State) (k : Nat) (x : Task) : (s.setTask k x).faults = s.faults := rfl
@[simp] theorem setTask_invalidations_field (s : State) (k : Nat) (x : Task) : (s.setTask k x).invalidations = s.invalidations := rfl
@[simp] theorem setTask_migrations_field (s : State) (k : Nat) (x : Task) : (s.setTask k x).migrations = s.migrations := rfl
@[simp] theorem setTask_quiescence_field (s : State) (k : Nat) (x : Task) : (s.setTask k x).quiescence = s.quiescence := rfl
@[simp] theorem setTask_quiesceAt_field (s : State) (k : Nat) (x : Task) : (s.setTask k x).quiesceAt = s.quiesceAt := rfl
@[simp] theorem setTask_spoil_field (s : State) (k : Nat) (x : Task) : (s.setTask k x).spoil = s.spoil := rfl
@[simp] theorem setTask_log_field (s : State) (k : Nat) (x : Task) : (s.setTask k x).log = s.log := rfl
@[simp] theorem setTask_logSeq_field (s : State) (k : Nat) (x : Task) : (s.setTask k x).logSeq = s.logSeq := rfl
@[simp] theorem setTask_logLost_field (s : State) (k : Nat) (x : Task) : (s.setTask k x).logLost = s.logLost := rfl
@[simp] theorem setTask_passes_field (s : State) (k : Nat) (x : Task) : (s.setTask k x).passes = s.passes := rfl
@[simp] theorem setTask_sessions_field (s : State) (k : Nat) (x : Task) : (s.setTask k x).sessions = s.sessions := rfl
@[simp] theorem setTask_outbox_field (s : State) (k : Nat) (x : Task) : (s.setTask k x).outbox = s.outbox := rfl
@[simp] theorem setTask_rdmaOut_field (s : State) (k : Nat) (x : Task) : (s.setTask k x).rdmaOut = s.rdmaOut := rfl
@[simp] theorem setTask_hostPorts_field (s : State) (k : Nat) (x : Task) : (s.setTask k x).hostPorts = s.hostPorts := rfl
@[simp] theorem setTask_fabmap_field (s : State) (k : Nat) (x : Task) : (s.setTask k x).fabmap = s.fabmap := rfl
@[simp] theorem setTask_ports_field (s : State) (k : Nat) (x : Task) : (s.setTask k x).ports = s.ports := rfl
@[simp] theorem setTask_cgroups_field (s : State) (k : Nat) (x : Task) : (s.setTask k x).cgroups = s.cgroups := rfl
@[simp] theorem setTask_patches_field (s : State) (k : Nat) (x : Task) : (s.setTask k x).patches = s.patches := rfl
@[simp] theorem setTask_patchVersion_field (s : State) (k : Nat) (x : Task) : (s.setTask k x).patchVersion = s.patchVersion := rfl
@[simp] theorem setTask_upsets_field (s : State) (k : Nat) (x : Task) : (s.setTask k x).upsets = s.upsets := rfl
@[simp] theorem setContext_agenda_field (s : State) (k : Nat) (x : Context) : (s.setContext k x).agenda = s.agenda := rfl
@[simp] theorem setContext_accidents_field (s : State) (k : Nat) (x : Context) : (s.setContext k x).accidents = s.accidents := rfl
@[simp] theorem setContext_sel_field (s : State) (k : Nat) (x : Context) : (s.setContext k x).sel = s.sel := rfl
@[simp] theorem setContext_pending_field (s : State) (k : Nat) (x : Context) : (s.setContext k x).pending = s.pending := rfl
@[simp] theorem setContext_prior_field (s : State) (k : Nat) (x : Context) : (s.setContext k x).prior = s.prior := rfl
@[simp] theorem setContext_phase_field (s : State) (k : Nat) (x : Context) : (s.setContext k x).phase = s.phase := rfl
@[simp] theorem setContext_nextId_field (s : State) (k : Nat) (x : Context) : (s.setContext k x).nextId = s.nextId := rfl
@[simp] theorem setContext_freeCount_field (s : State) (k : Nat) (x : Context) : (s.setContext k x).freeCount = s.freeCount := rfl
@[simp] theorem setContext_clock_field (s : State) (k : Nat) (x : Context) : (s.setContext k x).clock = s.clock := rfl
@[simp] theorem setContext_ptimeBase_field (s : State) (k : Nat) (x : Context) : (s.setContext k x).ptimeBase = s.ptimeBase := rfl
@[simp] theorem setContext_ptimeAt_field (s : State) (k : Nat) (x : Context) : (s.setContext k x).ptimeAt = s.ptimeAt := rfl
@[simp] theorem setContext_mem_field (s : State) (k : Nat) (x : Context) : (s.setContext k x).mem = s.mem := rfl
@[simp] theorem setContext_poisoned_field (s : State) (k : Nat) (x : Context) : (s.setContext k x).poisoned = s.poisoned := rfl
@[simp] theorem setContext_localGib_field (s : State) (k : Nat) (x : Context) : (s.setContext k x).localGib = s.localGib := rfl
@[simp] theorem setContext_binPool_field (s : State) (k : Nat) (x : Context) : (s.setContext k x).binPool = s.binPool := rfl
@[simp] theorem setContext_frames_field (s : State) (k : Nat) (x : Context) : (s.setContext k x).frames = s.frames := rfl
@[simp] theorem setContext_waves_field (s : State) (k : Nat) (x : Context) : (s.setContext k x).waves = s.waves := rfl
@[simp] theorem setContext_scouts_field (s : State) (k : Nat) (x : Context) : (s.setContext k x).scouts = s.scouts := rfl
@[simp] theorem setContext_teams_field (s : State) (k : Nat) (x : Context) : (s.setContext k x).teams = s.teams := rfl
@[simp] theorem setContext_crews_field (s : State) (k : Nat) (x : Context) : (s.setContext k x).crews = s.crews := rfl
@[simp] theorem setContext_tasks_field (s : State) (k : Nat) (x : Context) : (s.setContext k x).tasks = s.tasks := rfl
@[simp] theorem setContext_lastChosen_field (s : State) (k : Nat) (x : Context) : (s.setContext k x).lastChosen = s.lastChosen := rfl
@[simp] theorem setContext_chosen_field (s : State) (k : Nat) (x : Context) : (s.setContext k x).chosen = s.chosen := rfl
@[simp] theorem setContext_lastDepEval_field (s : State) (k : Nat) (x : Context) : (s.setContext k x).lastDepEval = s.lastDepEval := rfl
@[simp] theorem setContext_groups_field (s : State) (k : Nat) (x : Context) : (s.setContext k x).groups = s.groups := rfl
@[simp] theorem setContext_cores_field (s : State) (k : Nat) (x : Context) : (s.setContext k x).cores = s.cores := rfl
@[simp] theorem setContext_dies_field (s : State) (k : Nat) (x : Context) : (s.setContext k x).dies = s.dies := rfl
@[simp] theorem setContext_hbm_field (s : State) (k : Nat) (x : Context) : (s.setContext k x).hbm = s.hbm := rfl
@[simp] theorem setContext_net_field (s : State) (k : Nat) (x : Context) : (s.setContext k x).net = s.net := rfl
@[simp] theorem setContext_faults_field (s : State) (k : Nat) (x : Context) : (s.setContext k x).faults = s.faults := rfl
@[simp] theorem setContext_invalidations_field (s : State) (k : Nat) (x : Context) : (s.setContext k x).invalidations = s.invalidations := rfl
@[simp] theorem setContext_migrations_field (s : State) (k : Nat) (x : Context) : (s.setContext k x).migrations = s.migrations := rfl
@[simp] theorem setContext_quiescence_field (s : State) (k : Nat) (x : Context) : (s.setContext k x).quiescence = s.quiescence := rfl
@[simp] theorem setContext_quiesceAt_field (s : State) (k : Nat) (x : Context) : (s.setContext k x).quiesceAt = s.quiesceAt := rfl
@[simp] theorem setContext_spoil_field (s : State) (k : Nat) (x : Context) : (s.setContext k x).spoil = s.spoil := rfl
@[simp] theorem setContext_log_field (s : State) (k : Nat) (x : Context) : (s.setContext k x).log = s.log := rfl
@[simp] theorem setContext_logSeq_field (s : State) (k : Nat) (x : Context) : (s.setContext k x).logSeq = s.logSeq := rfl
@[simp] theorem setContext_logLost_field (s : State) (k : Nat) (x : Context) : (s.setContext k x).logLost = s.logLost := rfl
@[simp] theorem setContext_passes_field (s : State) (k : Nat) (x : Context) : (s.setContext k x).passes = s.passes := rfl
@[simp] theorem setContext_sessions_field (s : State) (k : Nat) (x : Context) : (s.setContext k x).sessions = s.sessions := rfl
@[simp] theorem setContext_outbox_field (s : State) (k : Nat) (x : Context) : (s.setContext k x).outbox = s.outbox := rfl
@[simp] theorem setContext_rdmaOut_field (s : State) (k : Nat) (x : Context) : (s.setContext k x).rdmaOut = s.rdmaOut := rfl
@[simp] theorem setContext_hostPorts_field (s : State) (k : Nat) (x : Context) : (s.setContext k x).hostPorts = s.hostPorts := rfl
@[simp] theorem setContext_fabmap_field (s : State) (k : Nat) (x : Context) : (s.setContext k x).fabmap = s.fabmap := rfl
@[simp] theorem setContext_ports_field (s : State) (k : Nat) (x : Context) : (s.setContext k x).ports = s.ports := rfl
@[simp] theorem setContext_cgroups_field (s : State) (k : Nat) (x : Context) : (s.setContext k x).cgroups = s.cgroups := rfl
@[simp] theorem setContext_patches_field (s : State) (k : Nat) (x : Context) : (s.setContext k x).patches = s.patches := rfl
@[simp] theorem setContext_patchVersion_field (s : State) (k : Nat) (x : Context) : (s.setContext k x).patchVersion = s.patchVersion := rfl
@[simp] theorem setContext_upsets_field (s : State) (k : Nat) (x : Context) : (s.setContext k x).upsets = s.upsets := rfl
@[simp] theorem setCore_agenda_field (s : State) (k : Nat) (x : CoreSt) : (s.setCore k x).agenda = s.agenda := rfl
@[simp] theorem setCore_accidents_field (s : State) (k : Nat) (x : CoreSt) : (s.setCore k x).accidents = s.accidents := rfl
@[simp] theorem setCore_sel_field (s : State) (k : Nat) (x : CoreSt) : (s.setCore k x).sel = s.sel := rfl
@[simp] theorem setCore_pending_field (s : State) (k : Nat) (x : CoreSt) : (s.setCore k x).pending = s.pending := rfl
@[simp] theorem setCore_prior_field (s : State) (k : Nat) (x : CoreSt) : (s.setCore k x).prior = s.prior := rfl
@[simp] theorem setCore_phase_field (s : State) (k : Nat) (x : CoreSt) : (s.setCore k x).phase = s.phase := rfl
@[simp] theorem setCore_nextId_field (s : State) (k : Nat) (x : CoreSt) : (s.setCore k x).nextId = s.nextId := rfl
@[simp] theorem setCore_freeCount_field (s : State) (k : Nat) (x : CoreSt) : (s.setCore k x).freeCount = s.freeCount := rfl
@[simp] theorem setCore_clock_field (s : State) (k : Nat) (x : CoreSt) : (s.setCore k x).clock = s.clock := rfl
@[simp] theorem setCore_ptimeBase_field (s : State) (k : Nat) (x : CoreSt) : (s.setCore k x).ptimeBase = s.ptimeBase := rfl
@[simp] theorem setCore_ptimeAt_field (s : State) (k : Nat) (x : CoreSt) : (s.setCore k x).ptimeAt = s.ptimeAt := rfl
@[simp] theorem setCore_mem_field (s : State) (k : Nat) (x : CoreSt) : (s.setCore k x).mem = s.mem := rfl
@[simp] theorem setCore_poisoned_field (s : State) (k : Nat) (x : CoreSt) : (s.setCore k x).poisoned = s.poisoned := rfl
@[simp] theorem setCore_localGib_field (s : State) (k : Nat) (x : CoreSt) : (s.setCore k x).localGib = s.localGib := rfl
@[simp] theorem setCore_binPool_field (s : State) (k : Nat) (x : CoreSt) : (s.setCore k x).binPool = s.binPool := rfl
@[simp] theorem setCore_frames_field (s : State) (k : Nat) (x : CoreSt) : (s.setCore k x).frames = s.frames := rfl
@[simp] theorem setCore_waves_field (s : State) (k : Nat) (x : CoreSt) : (s.setCore k x).waves = s.waves := rfl
@[simp] theorem setCore_scouts_field (s : State) (k : Nat) (x : CoreSt) : (s.setCore k x).scouts = s.scouts := rfl
@[simp] theorem setCore_teams_field (s : State) (k : Nat) (x : CoreSt) : (s.setCore k x).teams = s.teams := rfl
@[simp] theorem setCore_crews_field (s : State) (k : Nat) (x : CoreSt) : (s.setCore k x).crews = s.crews := rfl
@[simp] theorem setCore_tasks_field (s : State) (k : Nat) (x : CoreSt) : (s.setCore k x).tasks = s.tasks := rfl
@[simp] theorem setCore_contexts_field (s : State) (k : Nat) (x : CoreSt) : (s.setCore k x).contexts = s.contexts := rfl
@[simp] theorem setCore_lastChosen_field (s : State) (k : Nat) (x : CoreSt) : (s.setCore k x).lastChosen = s.lastChosen := rfl
@[simp] theorem setCore_chosen_field (s : State) (k : Nat) (x : CoreSt) : (s.setCore k x).chosen = s.chosen := rfl
@[simp] theorem setCore_lastDepEval_field (s : State) (k : Nat) (x : CoreSt) : (s.setCore k x).lastDepEval = s.lastDepEval := rfl
@[simp] theorem setCore_groups_field (s : State) (k : Nat) (x : CoreSt) : (s.setCore k x).groups = s.groups := rfl
@[simp] theorem setCore_dies_field (s : State) (k : Nat) (x : CoreSt) : (s.setCore k x).dies = s.dies := rfl
@[simp] theorem setCore_hbm_field (s : State) (k : Nat) (x : CoreSt) : (s.setCore k x).hbm = s.hbm := rfl
@[simp] theorem setCore_net_field (s : State) (k : Nat) (x : CoreSt) : (s.setCore k x).net = s.net := rfl
@[simp] theorem setCore_faults_field (s : State) (k : Nat) (x : CoreSt) : (s.setCore k x).faults = s.faults := rfl
@[simp] theorem setCore_invalidations_field (s : State) (k : Nat) (x : CoreSt) : (s.setCore k x).invalidations = s.invalidations := rfl
@[simp] theorem setCore_migrations_field (s : State) (k : Nat) (x : CoreSt) : (s.setCore k x).migrations = s.migrations := rfl
@[simp] theorem setCore_quiescence_field (s : State) (k : Nat) (x : CoreSt) : (s.setCore k x).quiescence = s.quiescence := rfl
@[simp] theorem setCore_quiesceAt_field (s : State) (k : Nat) (x : CoreSt) : (s.setCore k x).quiesceAt = s.quiesceAt := rfl
@[simp] theorem setCore_spoil_field (s : State) (k : Nat) (x : CoreSt) : (s.setCore k x).spoil = s.spoil := rfl
@[simp] theorem setCore_log_field (s : State) (k : Nat) (x : CoreSt) : (s.setCore k x).log = s.log := rfl
@[simp] theorem setCore_logSeq_field (s : State) (k : Nat) (x : CoreSt) : (s.setCore k x).logSeq = s.logSeq := rfl
@[simp] theorem setCore_logLost_field (s : State) (k : Nat) (x : CoreSt) : (s.setCore k x).logLost = s.logLost := rfl
@[simp] theorem setCore_passes_field (s : State) (k : Nat) (x : CoreSt) : (s.setCore k x).passes = s.passes := rfl
@[simp] theorem setCore_sessions_field (s : State) (k : Nat) (x : CoreSt) : (s.setCore k x).sessions = s.sessions := rfl
@[simp] theorem setCore_outbox_field (s : State) (k : Nat) (x : CoreSt) : (s.setCore k x).outbox = s.outbox := rfl
@[simp] theorem setCore_rdmaOut_field (s : State) (k : Nat) (x : CoreSt) : (s.setCore k x).rdmaOut = s.rdmaOut := rfl
@[simp] theorem setCore_hostPorts_field (s : State) (k : Nat) (x : CoreSt) : (s.setCore k x).hostPorts = s.hostPorts := rfl
@[simp] theorem setCore_fabmap_field (s : State) (k : Nat) (x : CoreSt) : (s.setCore k x).fabmap = s.fabmap := rfl
@[simp] theorem setCore_ports_field (s : State) (k : Nat) (x : CoreSt) : (s.setCore k x).ports = s.ports := rfl
@[simp] theorem setCore_cgroups_field (s : State) (k : Nat) (x : CoreSt) : (s.setCore k x).cgroups = s.cgroups := rfl
@[simp] theorem setCore_patches_field (s : State) (k : Nat) (x : CoreSt) : (s.setCore k x).patches = s.patches := rfl
@[simp] theorem setCore_patchVersion_field (s : State) (k : Nat) (x : CoreSt) : (s.setCore k x).patchVersion = s.patchVersion := rfl
@[simp] theorem setCore_upsets_field (s : State) (k : Nat) (x : CoreSt) : (s.setCore k x).upsets = s.upsets := rfl
@[simp] theorem setDie_agenda_field (s : State) (k : Nat) (x : Die) : (s.setDie k x).agenda = s.agenda := rfl
@[simp] theorem setDie_accidents_field (s : State) (k : Nat) (x : Die) : (s.setDie k x).accidents = s.accidents := rfl
@[simp] theorem setDie_sel_field (s : State) (k : Nat) (x : Die) : (s.setDie k x).sel = s.sel := rfl
@[simp] theorem setDie_pending_field (s : State) (k : Nat) (x : Die) : (s.setDie k x).pending = s.pending := rfl
@[simp] theorem setDie_prior_field (s : State) (k : Nat) (x : Die) : (s.setDie k x).prior = s.prior := rfl
@[simp] theorem setDie_phase_field (s : State) (k : Nat) (x : Die) : (s.setDie k x).phase = s.phase := rfl
@[simp] theorem setDie_nextId_field (s : State) (k : Nat) (x : Die) : (s.setDie k x).nextId = s.nextId := rfl
@[simp] theorem setDie_freeCount_field (s : State) (k : Nat) (x : Die) : (s.setDie k x).freeCount = s.freeCount := rfl
@[simp] theorem setDie_clock_field (s : State) (k : Nat) (x : Die) : (s.setDie k x).clock = s.clock := rfl
@[simp] theorem setDie_ptimeBase_field (s : State) (k : Nat) (x : Die) : (s.setDie k x).ptimeBase = s.ptimeBase := rfl
@[simp] theorem setDie_ptimeAt_field (s : State) (k : Nat) (x : Die) : (s.setDie k x).ptimeAt = s.ptimeAt := rfl
@[simp] theorem setDie_mem_field (s : State) (k : Nat) (x : Die) : (s.setDie k x).mem = s.mem := rfl
@[simp] theorem setDie_poisoned_field (s : State) (k : Nat) (x : Die) : (s.setDie k x).poisoned = s.poisoned := rfl
@[simp] theorem setDie_localGib_field (s : State) (k : Nat) (x : Die) : (s.setDie k x).localGib = s.localGib := rfl
@[simp] theorem setDie_binPool_field (s : State) (k : Nat) (x : Die) : (s.setDie k x).binPool = s.binPool := rfl
@[simp] theorem setDie_frames_field (s : State) (k : Nat) (x : Die) : (s.setDie k x).frames = s.frames := rfl
@[simp] theorem setDie_waves_field (s : State) (k : Nat) (x : Die) : (s.setDie k x).waves = s.waves := rfl
@[simp] theorem setDie_scouts_field (s : State) (k : Nat) (x : Die) : (s.setDie k x).scouts = s.scouts := rfl
@[simp] theorem setDie_teams_field (s : State) (k : Nat) (x : Die) : (s.setDie k x).teams = s.teams := rfl
@[simp] theorem setDie_crews_field (s : State) (k : Nat) (x : Die) : (s.setDie k x).crews = s.crews := rfl
@[simp] theorem setDie_tasks_field (s : State) (k : Nat) (x : Die) : (s.setDie k x).tasks = s.tasks := rfl
@[simp] theorem setDie_contexts_field (s : State) (k : Nat) (x : Die) : (s.setDie k x).contexts = s.contexts := rfl
@[simp] theorem setDie_lastChosen_field (s : State) (k : Nat) (x : Die) : (s.setDie k x).lastChosen = s.lastChosen := rfl
@[simp] theorem setDie_chosen_field (s : State) (k : Nat) (x : Die) : (s.setDie k x).chosen = s.chosen := rfl
@[simp] theorem setDie_lastDepEval_field (s : State) (k : Nat) (x : Die) : (s.setDie k x).lastDepEval = s.lastDepEval := rfl
@[simp] theorem setDie_groups_field (s : State) (k : Nat) (x : Die) : (s.setDie k x).groups = s.groups := rfl
@[simp] theorem setDie_cores_field (s : State) (k : Nat) (x : Die) : (s.setDie k x).cores = s.cores := rfl
@[simp] theorem setDie_hbm_field (s : State) (k : Nat) (x : Die) : (s.setDie k x).hbm = s.hbm := rfl
@[simp] theorem setDie_net_field (s : State) (k : Nat) (x : Die) : (s.setDie k x).net = s.net := rfl
@[simp] theorem setDie_faults_field (s : State) (k : Nat) (x : Die) : (s.setDie k x).faults = s.faults := rfl
@[simp] theorem setDie_invalidations_field (s : State) (k : Nat) (x : Die) : (s.setDie k x).invalidations = s.invalidations := rfl
@[simp] theorem setDie_migrations_field (s : State) (k : Nat) (x : Die) : (s.setDie k x).migrations = s.migrations := rfl
@[simp] theorem setDie_quiescence_field (s : State) (k : Nat) (x : Die) : (s.setDie k x).quiescence = s.quiescence := rfl
@[simp] theorem setDie_quiesceAt_field (s : State) (k : Nat) (x : Die) : (s.setDie k x).quiesceAt = s.quiesceAt := rfl
@[simp] theorem setDie_spoil_field (s : State) (k : Nat) (x : Die) : (s.setDie k x).spoil = s.spoil := rfl
@[simp] theorem setDie_log_field (s : State) (k : Nat) (x : Die) : (s.setDie k x).log = s.log := rfl
@[simp] theorem setDie_logSeq_field (s : State) (k : Nat) (x : Die) : (s.setDie k x).logSeq = s.logSeq := rfl
@[simp] theorem setDie_logLost_field (s : State) (k : Nat) (x : Die) : (s.setDie k x).logLost = s.logLost := rfl
@[simp] theorem setDie_passes_field (s : State) (k : Nat) (x : Die) : (s.setDie k x).passes = s.passes := rfl
@[simp] theorem setDie_sessions_field (s : State) (k : Nat) (x : Die) : (s.setDie k x).sessions = s.sessions := rfl
@[simp] theorem setDie_outbox_field (s : State) (k : Nat) (x : Die) : (s.setDie k x).outbox = s.outbox := rfl
@[simp] theorem setDie_rdmaOut_field (s : State) (k : Nat) (x : Die) : (s.setDie k x).rdmaOut = s.rdmaOut := rfl
@[simp] theorem setDie_hostPorts_field (s : State) (k : Nat) (x : Die) : (s.setDie k x).hostPorts = s.hostPorts := rfl
@[simp] theorem setDie_fabmap_field (s : State) (k : Nat) (x : Die) : (s.setDie k x).fabmap = s.fabmap := rfl
@[simp] theorem setDie_ports_field (s : State) (k : Nat) (x : Die) : (s.setDie k x).ports = s.ports := rfl
@[simp] theorem setDie_cgroups_field (s : State) (k : Nat) (x : Die) : (s.setDie k x).cgroups = s.cgroups := rfl
@[simp] theorem setDie_patches_field (s : State) (k : Nat) (x : Die) : (s.setDie k x).patches = s.patches := rfl
@[simp] theorem setDie_patchVersion_field (s : State) (k : Nat) (x : Die) : (s.setDie k x).patchVersion = s.patchVersion := rfl
@[simp] theorem setDie_upsets_field (s : State) (k : Nat) (x : Die) : (s.setDie k x).upsets = s.upsets := rfl
@[simp] theorem setStack_agenda_field (s : State) (k : Nat) (x : Stack) : (s.setStack k x).agenda = s.agenda := rfl
@[simp] theorem setStack_accidents_field (s : State) (k : Nat) (x : Stack) : (s.setStack k x).accidents = s.accidents := rfl
@[simp] theorem setStack_sel_field (s : State) (k : Nat) (x : Stack) : (s.setStack k x).sel = s.sel := rfl
@[simp] theorem setStack_pending_field (s : State) (k : Nat) (x : Stack) : (s.setStack k x).pending = s.pending := rfl
@[simp] theorem setStack_prior_field (s : State) (k : Nat) (x : Stack) : (s.setStack k x).prior = s.prior := rfl
@[simp] theorem setStack_phase_field (s : State) (k : Nat) (x : Stack) : (s.setStack k x).phase = s.phase := rfl
@[simp] theorem setStack_nextId_field (s : State) (k : Nat) (x : Stack) : (s.setStack k x).nextId = s.nextId := rfl
@[simp] theorem setStack_freeCount_field (s : State) (k : Nat) (x : Stack) : (s.setStack k x).freeCount = s.freeCount := rfl
@[simp] theorem setStack_clock_field (s : State) (k : Nat) (x : Stack) : (s.setStack k x).clock = s.clock := rfl
@[simp] theorem setStack_ptimeBase_field (s : State) (k : Nat) (x : Stack) : (s.setStack k x).ptimeBase = s.ptimeBase := rfl
@[simp] theorem setStack_ptimeAt_field (s : State) (k : Nat) (x : Stack) : (s.setStack k x).ptimeAt = s.ptimeAt := rfl
@[simp] theorem setStack_mem_field (s : State) (k : Nat) (x : Stack) : (s.setStack k x).mem = s.mem := rfl
@[simp] theorem setStack_poisoned_field (s : State) (k : Nat) (x : Stack) : (s.setStack k x).poisoned = s.poisoned := rfl
@[simp] theorem setStack_localGib_field (s : State) (k : Nat) (x : Stack) : (s.setStack k x).localGib = s.localGib := rfl
@[simp] theorem setStack_binPool_field (s : State) (k : Nat) (x : Stack) : (s.setStack k x).binPool = s.binPool := rfl
@[simp] theorem setStack_frames_field (s : State) (k : Nat) (x : Stack) : (s.setStack k x).frames = s.frames := rfl
@[simp] theorem setStack_waves_field (s : State) (k : Nat) (x : Stack) : (s.setStack k x).waves = s.waves := rfl
@[simp] theorem setStack_scouts_field (s : State) (k : Nat) (x : Stack) : (s.setStack k x).scouts = s.scouts := rfl
@[simp] theorem setStack_teams_field (s : State) (k : Nat) (x : Stack) : (s.setStack k x).teams = s.teams := rfl
@[simp] theorem setStack_crews_field (s : State) (k : Nat) (x : Stack) : (s.setStack k x).crews = s.crews := rfl
@[simp] theorem setStack_tasks_field (s : State) (k : Nat) (x : Stack) : (s.setStack k x).tasks = s.tasks := rfl
@[simp] theorem setStack_contexts_field (s : State) (k : Nat) (x : Stack) : (s.setStack k x).contexts = s.contexts := rfl
@[simp] theorem setStack_lastChosen_field (s : State) (k : Nat) (x : Stack) : (s.setStack k x).lastChosen = s.lastChosen := rfl
@[simp] theorem setStack_chosen_field (s : State) (k : Nat) (x : Stack) : (s.setStack k x).chosen = s.chosen := rfl
@[simp] theorem setStack_lastDepEval_field (s : State) (k : Nat) (x : Stack) : (s.setStack k x).lastDepEval = s.lastDepEval := rfl
@[simp] theorem setStack_groups_field (s : State) (k : Nat) (x : Stack) : (s.setStack k x).groups = s.groups := rfl
@[simp] theorem setStack_cores_field (s : State) (k : Nat) (x : Stack) : (s.setStack k x).cores = s.cores := rfl
@[simp] theorem setStack_dies_field (s : State) (k : Nat) (x : Stack) : (s.setStack k x).dies = s.dies := rfl
@[simp] theorem setStack_net_field (s : State) (k : Nat) (x : Stack) : (s.setStack k x).net = s.net := rfl
@[simp] theorem setStack_faults_field (s : State) (k : Nat) (x : Stack) : (s.setStack k x).faults = s.faults := rfl
@[simp] theorem setStack_invalidations_field (s : State) (k : Nat) (x : Stack) : (s.setStack k x).invalidations = s.invalidations := rfl
@[simp] theorem setStack_migrations_field (s : State) (k : Nat) (x : Stack) : (s.setStack k x).migrations = s.migrations := rfl
@[simp] theorem setStack_quiescence_field (s : State) (k : Nat) (x : Stack) : (s.setStack k x).quiescence = s.quiescence := rfl
@[simp] theorem setStack_quiesceAt_field (s : State) (k : Nat) (x : Stack) : (s.setStack k x).quiesceAt = s.quiesceAt := rfl
@[simp] theorem setStack_spoil_field (s : State) (k : Nat) (x : Stack) : (s.setStack k x).spoil = s.spoil := rfl
@[simp] theorem setStack_log_field (s : State) (k : Nat) (x : Stack) : (s.setStack k x).log = s.log := rfl
@[simp] theorem setStack_logSeq_field (s : State) (k : Nat) (x : Stack) : (s.setStack k x).logSeq = s.logSeq := rfl
@[simp] theorem setStack_logLost_field (s : State) (k : Nat) (x : Stack) : (s.setStack k x).logLost = s.logLost := rfl
@[simp] theorem setStack_passes_field (s : State) (k : Nat) (x : Stack) : (s.setStack k x).passes = s.passes := rfl
@[simp] theorem setStack_sessions_field (s : State) (k : Nat) (x : Stack) : (s.setStack k x).sessions = s.sessions := rfl
@[simp] theorem setStack_outbox_field (s : State) (k : Nat) (x : Stack) : (s.setStack k x).outbox = s.outbox := rfl
@[simp] theorem setStack_rdmaOut_field (s : State) (k : Nat) (x : Stack) : (s.setStack k x).rdmaOut = s.rdmaOut := rfl
@[simp] theorem setStack_hostPorts_field (s : State) (k : Nat) (x : Stack) : (s.setStack k x).hostPorts = s.hostPorts := rfl
@[simp] theorem setStack_fabmap_field (s : State) (k : Nat) (x : Stack) : (s.setStack k x).fabmap = s.fabmap := rfl
@[simp] theorem setStack_ports_field (s : State) (k : Nat) (x : Stack) : (s.setStack k x).ports = s.ports := rfl
@[simp] theorem setStack_cgroups_field (s : State) (k : Nat) (x : Stack) : (s.setStack k x).cgroups = s.cgroups := rfl
@[simp] theorem setStack_patches_field (s : State) (k : Nat) (x : Stack) : (s.setStack k x).patches = s.patches := rfl
@[simp] theorem setStack_patchVersion_field (s : State) (k : Nat) (x : Stack) : (s.setStack k x).patchVersion = s.patchVersion := rfl
@[simp] theorem setStack_upsets_field (s : State) (k : Nat) (x : Stack) : (s.setStack k x).upsets = s.upsets := rfl
@[simp] theorem setGroup_agenda_field (s : State) (k : Nat) (x : Group) : (s.setGroup k x).agenda = s.agenda := rfl
@[simp] theorem setGroup_accidents_field (s : State) (k : Nat) (x : Group) : (s.setGroup k x).accidents = s.accidents := rfl
@[simp] theorem setGroup_sel_field (s : State) (k : Nat) (x : Group) : (s.setGroup k x).sel = s.sel := rfl
@[simp] theorem setGroup_pending_field (s : State) (k : Nat) (x : Group) : (s.setGroup k x).pending = s.pending := rfl
@[simp] theorem setGroup_prior_field (s : State) (k : Nat) (x : Group) : (s.setGroup k x).prior = s.prior := rfl
@[simp] theorem setGroup_phase_field (s : State) (k : Nat) (x : Group) : (s.setGroup k x).phase = s.phase := rfl
@[simp] theorem setGroup_nextId_field (s : State) (k : Nat) (x : Group) : (s.setGroup k x).nextId = s.nextId := rfl
@[simp] theorem setGroup_freeCount_field (s : State) (k : Nat) (x : Group) : (s.setGroup k x).freeCount = s.freeCount := rfl
@[simp] theorem setGroup_clock_field (s : State) (k : Nat) (x : Group) : (s.setGroup k x).clock = s.clock := rfl
@[simp] theorem setGroup_ptimeBase_field (s : State) (k : Nat) (x : Group) : (s.setGroup k x).ptimeBase = s.ptimeBase := rfl
@[simp] theorem setGroup_ptimeAt_field (s : State) (k : Nat) (x : Group) : (s.setGroup k x).ptimeAt = s.ptimeAt := rfl
@[simp] theorem setGroup_mem_field (s : State) (k : Nat) (x : Group) : (s.setGroup k x).mem = s.mem := rfl
@[simp] theorem setGroup_poisoned_field (s : State) (k : Nat) (x : Group) : (s.setGroup k x).poisoned = s.poisoned := rfl
@[simp] theorem setGroup_localGib_field (s : State) (k : Nat) (x : Group) : (s.setGroup k x).localGib = s.localGib := rfl
@[simp] theorem setGroup_binPool_field (s : State) (k : Nat) (x : Group) : (s.setGroup k x).binPool = s.binPool := rfl
@[simp] theorem setGroup_frames_field (s : State) (k : Nat) (x : Group) : (s.setGroup k x).frames = s.frames := rfl
@[simp] theorem setGroup_waves_field (s : State) (k : Nat) (x : Group) : (s.setGroup k x).waves = s.waves := rfl
@[simp] theorem setGroup_scouts_field (s : State) (k : Nat) (x : Group) : (s.setGroup k x).scouts = s.scouts := rfl
@[simp] theorem setGroup_teams_field (s : State) (k : Nat) (x : Group) : (s.setGroup k x).teams = s.teams := rfl
@[simp] theorem setGroup_crews_field (s : State) (k : Nat) (x : Group) : (s.setGroup k x).crews = s.crews := rfl
@[simp] theorem setGroup_tasks_field (s : State) (k : Nat) (x : Group) : (s.setGroup k x).tasks = s.tasks := rfl
@[simp] theorem setGroup_contexts_field (s : State) (k : Nat) (x : Group) : (s.setGroup k x).contexts = s.contexts := rfl
@[simp] theorem setGroup_lastChosen_field (s : State) (k : Nat) (x : Group) : (s.setGroup k x).lastChosen = s.lastChosen := rfl
@[simp] theorem setGroup_chosen_field (s : State) (k : Nat) (x : Group) : (s.setGroup k x).chosen = s.chosen := rfl
@[simp] theorem setGroup_lastDepEval_field (s : State) (k : Nat) (x : Group) : (s.setGroup k x).lastDepEval = s.lastDepEval := rfl
@[simp] theorem setGroup_cores_field (s : State) (k : Nat) (x : Group) : (s.setGroup k x).cores = s.cores := rfl
@[simp] theorem setGroup_dies_field (s : State) (k : Nat) (x : Group) : (s.setGroup k x).dies = s.dies := rfl
@[simp] theorem setGroup_hbm_field (s : State) (k : Nat) (x : Group) : (s.setGroup k x).hbm = s.hbm := rfl
@[simp] theorem setGroup_net_field (s : State) (k : Nat) (x : Group) : (s.setGroup k x).net = s.net := rfl
@[simp] theorem setGroup_faults_field (s : State) (k : Nat) (x : Group) : (s.setGroup k x).faults = s.faults := rfl
@[simp] theorem setGroup_invalidations_field (s : State) (k : Nat) (x : Group) : (s.setGroup k x).invalidations = s.invalidations := rfl
@[simp] theorem setGroup_migrations_field (s : State) (k : Nat) (x : Group) : (s.setGroup k x).migrations = s.migrations := rfl
@[simp] theorem setGroup_quiescence_field (s : State) (k : Nat) (x : Group) : (s.setGroup k x).quiescence = s.quiescence := rfl
@[simp] theorem setGroup_quiesceAt_field (s : State) (k : Nat) (x : Group) : (s.setGroup k x).quiesceAt = s.quiesceAt := rfl
@[simp] theorem setGroup_spoil_field (s : State) (k : Nat) (x : Group) : (s.setGroup k x).spoil = s.spoil := rfl
@[simp] theorem setGroup_log_field (s : State) (k : Nat) (x : Group) : (s.setGroup k x).log = s.log := rfl
@[simp] theorem setGroup_logSeq_field (s : State) (k : Nat) (x : Group) : (s.setGroup k x).logSeq = s.logSeq := rfl
@[simp] theorem setGroup_logLost_field (s : State) (k : Nat) (x : Group) : (s.setGroup k x).logLost = s.logLost := rfl
@[simp] theorem setGroup_passes_field (s : State) (k : Nat) (x : Group) : (s.setGroup k x).passes = s.passes := rfl
@[simp] theorem setGroup_sessions_field (s : State) (k : Nat) (x : Group) : (s.setGroup k x).sessions = s.sessions := rfl
@[simp] theorem setGroup_outbox_field (s : State) (k : Nat) (x : Group) : (s.setGroup k x).outbox = s.outbox := rfl
@[simp] theorem setGroup_rdmaOut_field (s : State) (k : Nat) (x : Group) : (s.setGroup k x).rdmaOut = s.rdmaOut := rfl
@[simp] theorem setGroup_hostPorts_field (s : State) (k : Nat) (x : Group) : (s.setGroup k x).hostPorts = s.hostPorts := rfl
@[simp] theorem setGroup_fabmap_field (s : State) (k : Nat) (x : Group) : (s.setGroup k x).fabmap = s.fabmap := rfl
@[simp] theorem setGroup_ports_field (s : State) (k : Nat) (x : Group) : (s.setGroup k x).ports = s.ports := rfl
@[simp] theorem setGroup_cgroups_field (s : State) (k : Nat) (x : Group) : (s.setGroup k x).cgroups = s.cgroups := rfl
@[simp] theorem setGroup_patches_field (s : State) (k : Nat) (x : Group) : (s.setGroup k x).patches = s.patches := rfl
@[simp] theorem setGroup_patchVersion_field (s : State) (k : Nat) (x : Group) : (s.setGroup k x).patchVersion = s.patchVersion := rfl
@[simp] theorem setGroup_upsets_field (s : State) (k : Nat) (x : Group) : (s.setGroup k x).upsets = s.upsets := rfl
@[simp] theorem setPort_agenda_field (s : State) (k : Nat) (x : UaPort) : (s.setPort k x).agenda = s.agenda := rfl
@[simp] theorem setPort_accidents_field (s : State) (k : Nat) (x : UaPort) : (s.setPort k x).accidents = s.accidents := rfl
@[simp] theorem setPort_sel_field (s : State) (k : Nat) (x : UaPort) : (s.setPort k x).sel = s.sel := rfl
@[simp] theorem setPort_pending_field (s : State) (k : Nat) (x : UaPort) : (s.setPort k x).pending = s.pending := rfl
@[simp] theorem setPort_prior_field (s : State) (k : Nat) (x : UaPort) : (s.setPort k x).prior = s.prior := rfl
@[simp] theorem setPort_phase_field (s : State) (k : Nat) (x : UaPort) : (s.setPort k x).phase = s.phase := rfl
@[simp] theorem setPort_nextId_field (s : State) (k : Nat) (x : UaPort) : (s.setPort k x).nextId = s.nextId := rfl
@[simp] theorem setPort_freeCount_field (s : State) (k : Nat) (x : UaPort) : (s.setPort k x).freeCount = s.freeCount := rfl
@[simp] theorem setPort_clock_field (s : State) (k : Nat) (x : UaPort) : (s.setPort k x).clock = s.clock := rfl
@[simp] theorem setPort_ptimeBase_field (s : State) (k : Nat) (x : UaPort) : (s.setPort k x).ptimeBase = s.ptimeBase := rfl
@[simp] theorem setPort_ptimeAt_field (s : State) (k : Nat) (x : UaPort) : (s.setPort k x).ptimeAt = s.ptimeAt := rfl
@[simp] theorem setPort_mem_field (s : State) (k : Nat) (x : UaPort) : (s.setPort k x).mem = s.mem := rfl
@[simp] theorem setPort_poisoned_field (s : State) (k : Nat) (x : UaPort) : (s.setPort k x).poisoned = s.poisoned := rfl
@[simp] theorem setPort_localGib_field (s : State) (k : Nat) (x : UaPort) : (s.setPort k x).localGib = s.localGib := rfl
@[simp] theorem setPort_binPool_field (s : State) (k : Nat) (x : UaPort) : (s.setPort k x).binPool = s.binPool := rfl
@[simp] theorem setPort_frames_field (s : State) (k : Nat) (x : UaPort) : (s.setPort k x).frames = s.frames := rfl
@[simp] theorem setPort_waves_field (s : State) (k : Nat) (x : UaPort) : (s.setPort k x).waves = s.waves := rfl
@[simp] theorem setPort_scouts_field (s : State) (k : Nat) (x : UaPort) : (s.setPort k x).scouts = s.scouts := rfl
@[simp] theorem setPort_teams_field (s : State) (k : Nat) (x : UaPort) : (s.setPort k x).teams = s.teams := rfl
@[simp] theorem setPort_crews_field (s : State) (k : Nat) (x : UaPort) : (s.setPort k x).crews = s.crews := rfl
@[simp] theorem setPort_tasks_field (s : State) (k : Nat) (x : UaPort) : (s.setPort k x).tasks = s.tasks := rfl
@[simp] theorem setPort_contexts_field (s : State) (k : Nat) (x : UaPort) : (s.setPort k x).contexts = s.contexts := rfl
@[simp] theorem setPort_lastChosen_field (s : State) (k : Nat) (x : UaPort) : (s.setPort k x).lastChosen = s.lastChosen := rfl
@[simp] theorem setPort_chosen_field (s : State) (k : Nat) (x : UaPort) : (s.setPort k x).chosen = s.chosen := rfl
@[simp] theorem setPort_lastDepEval_field (s : State) (k : Nat) (x : UaPort) : (s.setPort k x).lastDepEval = s.lastDepEval := rfl
@[simp] theorem setPort_groups_field (s : State) (k : Nat) (x : UaPort) : (s.setPort k x).groups = s.groups := rfl
@[simp] theorem setPort_cores_field (s : State) (k : Nat) (x : UaPort) : (s.setPort k x).cores = s.cores := rfl
@[simp] theorem setPort_dies_field (s : State) (k : Nat) (x : UaPort) : (s.setPort k x).dies = s.dies := rfl
@[simp] theorem setPort_hbm_field (s : State) (k : Nat) (x : UaPort) : (s.setPort k x).hbm = s.hbm := rfl
@[simp] theorem setPort_net_field (s : State) (k : Nat) (x : UaPort) : (s.setPort k x).net = s.net := rfl
@[simp] theorem setPort_faults_field (s : State) (k : Nat) (x : UaPort) : (s.setPort k x).faults = s.faults := rfl
@[simp] theorem setPort_invalidations_field (s : State) (k : Nat) (x : UaPort) : (s.setPort k x).invalidations = s.invalidations := rfl
@[simp] theorem setPort_migrations_field (s : State) (k : Nat) (x : UaPort) : (s.setPort k x).migrations = s.migrations := rfl
@[simp] theorem setPort_quiescence_field (s : State) (k : Nat) (x : UaPort) : (s.setPort k x).quiescence = s.quiescence := rfl
@[simp] theorem setPort_quiesceAt_field (s : State) (k : Nat) (x : UaPort) : (s.setPort k x).quiesceAt = s.quiesceAt := rfl
@[simp] theorem setPort_spoil_field (s : State) (k : Nat) (x : UaPort) : (s.setPort k x).spoil = s.spoil := rfl
@[simp] theorem setPort_log_field (s : State) (k : Nat) (x : UaPort) : (s.setPort k x).log = s.log := rfl
@[simp] theorem setPort_logSeq_field (s : State) (k : Nat) (x : UaPort) : (s.setPort k x).logSeq = s.logSeq := rfl
@[simp] theorem setPort_logLost_field (s : State) (k : Nat) (x : UaPort) : (s.setPort k x).logLost = s.logLost := rfl
@[simp] theorem setPort_passes_field (s : State) (k : Nat) (x : UaPort) : (s.setPort k x).passes = s.passes := rfl
@[simp] theorem setPort_sessions_field (s : State) (k : Nat) (x : UaPort) : (s.setPort k x).sessions = s.sessions := rfl
@[simp] theorem setPort_outbox_field (s : State) (k : Nat) (x : UaPort) : (s.setPort k x).outbox = s.outbox := rfl
@[simp] theorem setPort_rdmaOut_field (s : State) (k : Nat) (x : UaPort) : (s.setPort k x).rdmaOut = s.rdmaOut := rfl
@[simp] theorem setPort_hostPorts_field (s : State) (k : Nat) (x : UaPort) : (s.setPort k x).hostPorts = s.hostPorts := rfl
@[simp] theorem setPort_fabmap_field (s : State) (k : Nat) (x : UaPort) : (s.setPort k x).fabmap = s.fabmap := rfl
@[simp] theorem setPort_cgroups_field (s : State) (k : Nat) (x : UaPort) : (s.setPort k x).cgroups = s.cgroups := rfl
@[simp] theorem setPort_patches_field (s : State) (k : Nat) (x : UaPort) : (s.setPort k x).patches = s.patches := rfl
@[simp] theorem setPort_patchVersion_field (s : State) (k : Nat) (x : UaPort) : (s.setPort k x).patchVersion = s.patchVersion := rfl
@[simp] theorem setPort_upsets_field (s : State) (k : Nat) (x : UaPort) : (s.setPort k x).upsets = s.upsets := rfl

/-! ### Operations on the issuing wave -/

theorem modWave_eq (s : State) (k : WaveKey) (f : Wave → Wave) : s.modWave k f = s.setWave k (f (s.wave k)) := rfl
theorem modCur_eq (s : State) (f : Wave → Wave) : s.modCur f = s.setWave s.sel.key (f s.cur) := rfl
theorem cur_eq (s : State) : s.cur = s.wave s.sel.key := rfl
theorem advance_eq (s : State) : s.advance = s.setWave s.sel.key (s.cur.moveTo s.sel.mask s.sel.next) := rfl
@[simp] theorem modCur_mem (s : State) (f : Wave → Wave) : (s.modCur f).mem = s.mem := rfl
@[simp] theorem modCur_sel (s : State) (f : Wave → Wave) : (s.modCur f).sel = s.sel := rfl
@[simp] theorem modCur_cur (s : State) (f : Wave → Wave) : (s.modCur f).cur = f s.cur := by simp [modCur_eq, State.cur]
@[simp] theorem advance_mem (s : State) : s.advance.mem = s.mem := rfl
@[simp] theorem advance_sel (s : State) : s.advance.sel = s.sel := rfl
@[simp] theorem setWave_sel_cur (s : State) (w : Wave) : (s.setWave s.sel.key w).cur = w := by simp [State.cur]

end Sys2Proof.Laws
end

