-- ==== Sys2Proof/Laws/Operands.lean ====
section
/-! SUPPORT. What the shared operations of the lane instructions can do: clearing marks, writing a register, the common checks, and one
lemma for each kind of lane instruction that says what it does wherever its form is ready. -/

namespace Sys2Proof.Laws

open Sys2Proof.Machine

theorem clearClaim_row (w : Wave) (m : LaneMask) (n k : Nat) :
    (w.clearClaim m n).row k = if k = n then unclaimed m (w.row k) else w.row k := by
  by_cases hk : k = n
  · subst hk
    rw [if_pos rfl]
    unfold Wave.clearClaim
    split
    · rename_i h; rw [h]; rfl
    · rename_i r h
      rw [h]
      simp only [unclaimed]
      split
      · exact assocGet_assocErase_same w.rows k
      · exact assocGet_assocSet_same w.rows k _
  · rw [if_neg hk]
    unfold Wave.clearClaim
    split
    · rfl
    · simp only []
      split
      · exact assocGet_assocErase_other w.rows n k hk
      · exact assocGet_assocSet_other w.rows n k _ hk

theorem unclaimed_idem (m : LaneMask) (r : Option Row) : unclaimed m (unclaimed m r) = unclaimed m r := by
  cases r with
  | none => rfl
  | some r =>
    simp only [unclaimed]
    split
    · rename_i h
      split at h
      · rename_i h; simp_all
      · simp_all
    · rename_i x y h
      split at h
      · simp_all
      · rename_i h0
        simp only [Option.some.injEq] at h
        subst h
        simp [BitVec.and_assoc, h0]

theorem foldClear_row (l : List Nat) (w : Wave) (m : LaneMask) (k : Nat) :
    (l.foldl (fun w n => w.clearClaim m n) w).row k = if k ∈ l then unclaimed m (w.row k) else w.row k := by
  induction l generalizing w with
  | nil => simp
  | cons n t ih =>
    rw [List.foldl_cons, ih, clearClaim_row]
    by_cases h1 : k = n
    · subst h1; by_cases h2 : k ∈ t <;> simp [h2, unclaimed_idem]
    · by_cases h2 : k ∈ t <;> simp [h1, h2]

theorem clearMarks_row (w : Wave) (m : LaneMask) (l : List Nat) (k : Nat) :
    (w.clearMarks m l).row k = if k ∈ l then unclaimed m (w.row k) else w.row k := by
  simp [Wave.clearMarks, foldClear_row]

theorem clearClaim_eq (w : Wave) (m : LaneMask) (n : Nat) : ∃ rows, w.clearClaim m n = { w with rows := rows } := by
  simp only [Wave.clearClaim]; split
  · exact ⟨w.rows, rfl⟩
  · split <;> exact ⟨_, rfl⟩
theorem foldClear_eq (l : List Nat) (w : Wave) (m : LaneMask) : ∃ rows, l.foldl (fun w n => w.clearClaim m n) w = { w with rows := rows } := by
  induction l generalizing w with
  | nil => exact ⟨w.rows, rfl⟩
  | cons n t ih =>
    obtain ⟨r, hr⟩ := clearClaim_eq w m n
    obtain ⟨r', hr'⟩ := ih (w.clearClaim m n)
    exact ⟨r', by rw [List.foldl_cons, hr', hr]⟩
theorem clearMarks_eq (w : Wave) (m : LaneMask) (l : List Nat) : ∃ rows, w.clearMarks m l = { w with rows := rows } := foldClear_eq _ w m

theorem writeV_eq (w : Wave) (g : Pool) (n : Nat) (m : LaneMask) (v : Fin 32 → Word) (p : LaneMask) :
    ∃ rows granted, w.writeV g n m v p = { w with rows := rows, granted := granted } := by
  simp only [Wave.writeV]; split
  · exact ⟨_, _, rfl⟩
  · exact ⟨_, _, rfl⟩

theorem writeV_zero (w : Wave) (g : Pool) (n : Nat) (m : LaneMask) (v : Fin 32 → Word) (p : LaneMask) (h : m = 0) : w.writeV g n m v p = w := by
  unfold Wave.writeV; rw [if_pos h]

theorem writeV_row (w : Wave) (g : Pool) (n : Nat) (m : LaneMask) (v : Fin 32 → Word) (p : LaneMask) (h : m ≠ 0) :
    (w.writeV g n m v p).row n = some (((w.row n).getD (Row.fresh w.live (w.nextPlace g))).put m v p) := by
  unfold Wave.writeV; rw [if_neg h]; exact assocGet_assocSet_same _ _ _

theorem writeV_other (w : Wave) (g : Pool) (n k : Nat) (m : LaneMask) (v : Fin 32 → Word) (p : LaneMask) (h : k ≠ n ∨ m = 0) :
    (w.writeV g n m v p).row k = w.row k := by
  by_cases hm : m = 0
  · rw [writeV_zero _ _ _ _ _ _ hm]
  · unfold Wave.writeV; rw [if_neg hm]; exact assocGet_assocSet_other _ _ _ _ (h.resolve_right hm)

theorem writeV_word (w : Wave) (g : Pool) (n : Nat) (m : LaneMask) (v : Fin 32 → Word) (p : LaneMask) (j : Fin 32) (hj : m.getLsbD j.val = true) :
    (w.writeV g n m v p).vword n j = v j ∧ ((w.writeV g n m v p).vpois n).getLsbD j.val = p.getLsbD j.val := by
  have hm : m ≠ 0 := by rintro rfl; simp at hj
  unfold Wave.vword Wave.vpois
  rw [writeV_row _ _ _ _ _ _ hm]
  simp [Row.put, ← BitVec.getLsbD_eq_getElem, hj]

theorem fresh_word (m : LaneMask) (g : Nat) (j : Fin 32) : (Row.fresh m g).words[j] = 0 := by simp [Row.fresh]

theorem writeV_keep (w : Wave) (g : Pool) (n : Nat) (m : LaneMask) (v : Fin 32 → Word) (p : LaneMask) (j : Fin 32) (hj : m.getLsbD j.val = false) :
    (w.writeV g n m v p).vword n j = w.vword n j ∧ ((w.writeV g n m v p).vpois n).getLsbD j.val = (w.vpois n).getLsbD j.val := by
  by_cases hm : m = 0
  · rw [writeV_zero _ _ _ _ _ _ hm]; simp
  · unfold Wave.vword Wave.vpois
    rw [writeV_row _ _ _ _ _ _ hm]
    cases hr : w.row n with
    | none => simp [← BitVec.getLsbD_eq_getElem, hj, Row.put, Row.fresh]
    | some r => simp [← BitVec.getLsbD_eq_getElem, hj, Row.put]

theorem room_stall (s : State) (need freed : Nat) (h : s.room 2) (hn : need ≤ 2) : s.mustStall need freed = false := by
  simp [State.mustStall, h.1]; intro _ ; have := h.2; omega

theorem inject_unarmed (w : Wave) (u n : Nat) (h : w.errinj.getLsbD 31 = false) : w.inject u n = (w, none) := by
  unfold Wave.inject; simp only [h, Bool.false_and, Bool.false_eq_true, if_false]

theorem setWave_same (s : State) (k : WaveKey) (w : Wave) (h : s.hasWave k) (e : s.wave k = w) : s.setWave k w = s := by
  subst e
  have : ∀ (l : List (WaveKey × Wave)), (assocGet l k).isSome → assocSet l k ((assocGet l k).getD Wave.absent) = l := by
    intro l hl
    induction l with
    | nil => simp [assocGet] at hl
    | cons p t ih =>
      obtain ⟨k', v⟩ := p
      by_cases hk : k' = k
      · simp [assocGet, assocSet, hk]
      · simp [assocGet, assocSet, hk] at hl ⊢; exact ih hl
  simp [State.setWave, State.wave, this _ h]

theorem badWords_clean (n : Nat) (r : Row) (m : LaneMask) (h : r.par = 0) : badWords n r m = [] := by
  simp [badWords, h, maskLanes]

theorem readParity_unarmed (s : State) (names : List Nat) (m : LaneMask) (h : s.unarmed) :
    s.readParity names m = (s.setWave s.sel.key s.cur, false) := by
  have hi : ∀ n, (if m.getLsbD s.cur.injLane.val then s.cur.inject 3 n else (s.cur, none)) = (s.cur, none) := by
    intro n; rw [inject_unarmed _ _ _ h.1, ite_self]
  have hs : ∀ l : List Nat, l.flatMap (fun n => ((s.cur.row n).map (fun r => badWords n r m)).getD []) = [] := by
    intro l
    rw [List.flatMap_eq_nil_iff]
    intro n _
    cases hr : s.cur.row n with
    | none => rfl
    | some r => simp [badWords_clean n r m (h.2.1 n r hr)]
  simp only [State.readParity, hi, hs]
  rfl

theorem rowNeed_le (w : Wave) (l : List Nat) : w.rowNeed l ≤ l.length :=
  le_trans (List.length_filter_le _ _) (List.Sublist.length_le (List.dedup_sublist l))

theorem laneBegin_ready (s : State) (reads writes marks : List Nat) (g : BitVec 3) (gn : Bool) (hw : writes.length ≤ 2)
    (h1 : s.cur.guardPois s.sel.mask g = 0) (h2 : s.canRead reads) (h3 : s.room 2) (h4 : s.unarmed) :
    s.laneBegin reads g gn writes marks = .go (s.setWave s.sel.key s.cur) (s.cur.guardLanes s.sel.mask g gn) := by
  simp only [State.laneBegin, h1, ne_eq, not_true_eq_false, if_false]
  have hu : ¬ ((s.cur.fpc.getLsbD 4 && (decide ¬ s.cur.guardLanes s.sel.mask g gn = 0) && reads.any (fun n => (assocGet s.readRows n).isNone)) = true) := by
    rcases h2 with h2 | h2
    · rw [h2]; simp only [Bool.false_and, Bool.false_eq_true, not_false_eq_true]
    · simp only [Bool.and_eq_true, List.any_eq_true]
      rintro ⟨-, n, hn, he⟩
      have := h2 n hn
      simp [Option.isSome_iff_ne_none] at this
      simp [this] at he
  rw [if_neg hu, room_stall s _ _ h3 (by
    split
    · omega
    · have := rowNeed_le (s.cur.clearMarks s.sel.mask marks) writes; omega), readParity_unarmed s _ _ h4]
  rfl

theorem vnames_len (f : BitVec 6) : (vnames f 2).length ≤ 2 := by simp only [vnames]; split <;> simp
theorem vname_len (f : BitVec 6) : (vname f).length ≤ 2 := by simp only [vname]; split <;> simp


/-- The row map after a lane instruction that writes one name. -/
theorem one_write (s : State) (marks : List Nat) (g : Pool) (d : Nat) (m : LaneMask) (v : Fin 32 → Word) (p : LaneMask) (fl : Flags) :
    ∃ rows granted, (((s.cur.clearMarks s.sel.mask marks).writeV g d m v p).raise fl).moveTo s.sel.mask s.sel.next
      = { s.cur with rows := rows, granted := granted, lanes := (s.cur.moveTo s.sel.mask s.sel.next).lanes,
                     fpc := s.cur.fpc ||| (fl.setWidth 32 <<< 8) } ∧
        rows = ((s.cur.clearMarks s.sel.mask marks).writeV g d m v p).rows := by
  obtain ⟨r1, h1⟩ := clearMarks_eq s.cur s.sel.mask marks
  rw [h1]
  obtain ⟨r2, g2, h2⟩ := writeV_eq { s.cur with rows := r1 } g d m v p
  rw [h2]
  exact ⟨r2, g2, rfl, rfl⟩


theorem laneEnd_eq (s : State) (marks : List Nat) (f : Pool → Wave → Wave) :
    ∃ pool, (s.setWave s.sel.key s.cur).laneEnd marks f =
      s.setWave s.sel.key ((f pool (s.cur.clearMarks s.sel.mask marks)).moveTo s.sel.mask s.sel.next) :=
  ⟨_, by simp [State.laneEnd, State.advance, State.modCur, State.modWave, State.cur]; rfl⟩

theorem setWave_cur (s : State) : (s.setWave s.sel.key s.cur).cur = s.cur := by simp [State.cur]

theorem fpc_zero (w : Word) : w ||| ((0 : Flags).setWidth 32 <<< 8) = w := by simp

theorem foldl_zero (l : List (Fin 32)) (a : Flags) (f : Fin 32 → Flags) (h : ∀ i, f i = 0) : l.foldl (fun acc i => acc ||| f i) a = a := by
  induction l generalizing a with
  | nil => rfl
  | cons x t ih => rw [List.foldl_cons, ih, h]; simp

theorem laneFlags_zero (m : LaneMask) (f : Fin 32 → Flags) (h : ∀ i, f i = 0) : laneFlags m f = 0 := foldl_zero _ _ _ h

theorem raise_zero (w : Wave) : w.raise 0 = w := by simp [Wave.raise]

/-- A lane instruction of one result register does what its form says. -/
theorem single_does (fm : LaneForm) (i : Instr) (s : State) (hw : fm.wide = false) (hr : fm.ready s)
    (F : State → LaneMask → Pool → Wave → Wave)
    (hF : ∀ s' gran w, s'.cur = s.cur → F s' (fm.lanes s) gran w =
      (w.putV gran fm.d (fm.lanes s) (fun j => loWord (fm.res s j).1) (fm.pois s)).raise (laneFlags (fm.lanes s) (fun j => (fm.res s j).2)))
    (he : exec i s = match s.laneBegin fm.reads fm.g fm.gn (vname fm.d) fm.marks with
      | .stop s => .next s
      | .go s' e => s'.laneDone fm.marks (F s' e)) :
    fm.does i s := by
  obtain ⟨h1, h2, h3, h4⟩ := hr
  rw [laneBegin_ready s fm.reads (vname fm.d) fm.marks fm.g fm.gn (vname_len _) h1 h2 h3 h4] at he
  simp only [State.laneDone] at he
  have hFs : F (s.setWave s.sel.key s.cur) (s.cur.guardLanes s.sel.mask fm.g fm.gn) = fun gran w => (w.putV gran fm.d (fm.lanes s) (fun j => loWord (fm.res s j).1) (fm.pois s)).raise (laneFlags (fm.lanes s) (fun j => (fm.res s j).2)) := by
    funext gran w; exact hF _ gran w (setWave_cur s)
  rw [hFs] at he
  obtain ⟨gran, hl⟩ := laneEnd_eq s fm.marks (fun gran w => (w.putV gran fm.d (fm.lanes s) (fun j => loWord (fm.res s j).1) (fm.pois s)).raise (laneFlags (fm.lanes s) (fun j => (fm.res s j).2)))
  have he2 := he.trans (congrArg Host.Outcome.next hl)
  by_cases hd : fm.d.toNat < 62
  · obtain ⟨rows, granted, heq, hrows⟩ := one_write s fm.marks gran fm.d.toNat (fm.lanes s) (fun j => loWord (fm.res s j).1) (fm.pois s) (laneFlags (fm.lanes s) (fun j => (fm.res s j).2))
    have hrow : ∀ n, (fm.after s rows granted).row n = ((s.cur.clearMarks s.sel.mask fm.marks).writeV gran fm.d.toNat (fm.lanes s) (fun j => loWord (fm.res s j).1) (fm.pois s)).row n := by
      intro n; simp only [Wave.row, LaneForm.after, hrows]
    have hdest : fm.dests = [fm.d.toNat] := by simp [LaneForm.dests, hw, vname, hd]
    refine ⟨rows, granted, ?_, ?_, ?_, ?_⟩
    · rw [he2]; simp only [Wave.putV, hd, if_true]; exact congrArg (fun w => Host.Outcome.next (s.setWave s.sel.key w)) heq
    · intro n hn j hj
      rw [hdest, List.mem_singleton] at hn; subst hn
      have := writeV_word (s.cur.clearMarks s.sel.mask fm.marks) gran fm.d.toNat (fm.lanes s) (fun j => loWord (fm.res s j).1) (fm.pois s) j hj
      simp only [Wave.vword, Wave.vpois, hrow] at this ⊢
      simpa [LaneForm.word] using this
    · intro n hn hm j hj
      rw [hdest, List.mem_singleton] at hn; subst hn
      have := writeV_keep (s.cur.clearMarks s.sel.mask fm.marks) gran fm.d.toNat (fm.lanes s) (fun j => loWord (fm.res s j).1) (fm.pois s) j hj
      simp only [Wave.vword, Wave.vpois, hrow] at this ⊢
      rw [this.1, this.2]
      simp [clearMarks_row, hm]
    · intro n hn
      have h5 := writeV_other (s.cur.clearMarks s.sel.mask fm.marks) gran fm.d.toNat n (fm.lanes s) (fun j => loWord (fm.res s j).1) (fm.pois s)
        (by rcases hn with hn | hn
            · left; rw [hdest] at hn; simpa using hn
            · right; exact hn)
      have h6 := hrow n
      rw [h5, clearMarks_row] at h6
      exact h6
  · obtain ⟨r1, hc⟩ := clearMarks_eq s.cur s.sel.mask fm.marks
    have hdest : fm.dests = [] := by simp only [LaneForm.dests, hw, vname, hd]; rfl
    refine ⟨r1, s.cur.granted, ?_, ?_, ?_, ?_⟩
    · rw [he2]; simp only [Wave.putV, hd, if_false]; rw [hc]; rfl
    · intro n hn; rw [hdest] at hn; simp at hn
    · intro n hn; rw [hdest] at hn; simp at hn
    · intro n _
      have := clearMarks_row s.cur s.sel.mask fm.marks n
      rw [hc] at this
      exact this


theorem op_does (fm : LaneForm) (i : Instr) (s : State) (hw : fm.wide = false) (hr : fm.ready s)
    (val : Wave → Fin 32 → Word) (pois : Wave → LaneMask)
    (hv : ∀ j, loWord (fm.res s j).1 = val s.cur j) (h0 : ∀ j, (fm.res s j).2 = 0) (hp : fm.pois s = pois s.cur)
    (he : exec i s = s.laneOp fm.reads fm.marks fm.g fm.gn fm.d val pois) : fm.does i s := by
  refine single_does fm i s hw hr (fun s' e gran w => w.putV gran fm.d e (val s'.cur) (pois s'.cur)) ?_ he
  intro s' gran w hc
  rw [laneFlags_zero _ _ h0, raise_zero, hc, ← hp]
  congr 1
  funext j; exact (hv j).symm

theorem op_of (fm : LaneForm) (i : Instr) (s : State) (hw : fm.wide = false)
    (val : Wave → Fin 32 → Word) (pois : Wave → LaneMask)
    (hv : ∀ j, loWord (fm.res s j).1 = val s.cur j) (h0 : ∀ j, (fm.res s j).2 = 0) (hp : fm.pois s = pois s.cur)
    (he : exec i s = s.laneOp fm.reads fm.marks fm.g fm.gn fm.d val pois) : fm.of i s := fun hr => op_does fm i s hw hr val pois hv h0 hp he

theorem f_of (fm : LaneForm) (i : Instr) (s : State) (hw : fm.wide = false)
    (val : Wave → Fin 32 → Nat × Flags) (pois : Wave → LaneMask)
    (hv : ∀ j, loWord (fm.res s j).1 = BitVec.ofNat 32 (val s.cur j).1) (h0 : ∀ j, (fm.res s j).2 = (val s.cur j).2) (hp : fm.pois s = pois s.cur)
    (he : exec i s = s.laneF fm.reads fm.marks fm.g fm.gn fm.d val pois) : fm.of i s := by
  intro hr
  refine single_does fm i s hw hr (fun s' e gran w => (w.putV gran fm.d e (fun i => BitVec.ofNat 32 (val s'.cur i).1) (pois s'.cur)).raise (laneFlags e (fun i => (val s'.cur i).2))) ?_ he
  intro s' gran w hc
  rw [hc, ← hp]
  congr 2
  · funext j; exact (hv j).symm
  · funext j; exact (h0 j).symm

theorem two_writes (fm : LaneForm) (s : State) (marks : List Nat) (g : Pool) (d : Nat) (m : LaneMask) (v v' : Fin 32 → Word) (p : LaneMask) :
    ∃ rows granted, ((((s.cur.clearMarks s.sel.mask marks).writeV g d m v p).writeV g (d + 1) m v' p).raise (laneFlags (fm.lanes s) (fun j => (fm.res s j).2))).moveTo s.sel.mask s.sel.next
      = fm.after s rows granted ∧
        rows = (((s.cur.clearMarks s.sel.mask marks).writeV g d m v p).writeV g (d + 1) m v' p).rows := by
  obtain ⟨r1, h1⟩ := clearMarks_eq s.cur s.sel.mask marks
  rw [h1]
  obtain ⟨r2, g2, h2⟩ := writeV_eq { s.cur with rows := r1 } g d m v p
  rw [h2]
  obtain ⟨r3, g3, h3⟩ := writeV_eq { s.cur with rows := r2, granted := g2 } g (d + 1) m v' p
  rw [h3]
  exact ⟨r3, g3, rfl, rfl⟩

theorem vword_of_row {a b : Wave} {n : Nat} (h : a.row n = b.row n) (j : Fin 32) : a.vword n j = b.vword n j := by simp [Wave.vword, h]
theorem vpois_of_row {a b : Wave} {n : Nat} (h : a.row n = b.row n) : a.vpois n = b.vpois n := by simp [Wave.vpois, h]

theorem residue_unarmed (s : State) (W : Wave) (u n : Nat) (e : LaneMask) (ds : List Nat) (h : W.errinj.getLsbD 31 = false) :
    (s.setWave s.sel.key W).residue u n e ds = s.setWave s.sel.key W := by
  simp only [State.residue, setWave_sel_field, setWave_wave]
  split
  · rfl
  · rw [inject_unarmed _ _ _ h]; simp

theorem after_errinj (fm : LaneForm) (s : State) (r : List (Nat × Row)) (g : Nat) : (fm.after s r g).errinj = s.cur.errinj := by
  simp only [LaneForm.after]

theorem pair_does (fm : LaneForm) (i : Instr) (s : State) (hw : fm.wide = true) (hr : fm.ready s)
    (F : State → LaneMask → Pool → Wave → Wave) (units : List Nat) (ds : List Nat)
    (hF : ∀ s' gran w, s'.cur = s.cur → F s' (fm.lanes s) gran w =
      (w.putPair gran fm.d (fm.lanes s) (fun j => (fm.res s j).1) (fm.pois s)).raise (laneFlags (fm.lanes s) (fun j => (fm.res s j).2)))
    (he : exec i s = match s.laneBegin fm.reads fm.g fm.gn (vnames fm.d 2) fm.marks with
      | .stop s => .next s
      | .go s' e => .next (units.foldl (fun t u => t.residue u 1 e ds) (s'.laneEnd fm.marks (F s' e)))) :
    fm.does i s := by
  obtain ⟨h1, h2, h3, h4⟩ := hr
  rw [laneBegin_ready s fm.reads (vnames fm.d 2) fm.marks fm.g fm.gn (vnames_len _) h1 h2 h3 h4] at he
  simp only [State.laneDone] at he
  have hFs : F (s.setWave s.sel.key s.cur) (s.cur.guardLanes s.sel.mask fm.g fm.gn) = fun gran w => (w.putPair gran fm.d (fm.lanes s) (fun j => (fm.res s j).1) (fm.pois s)).raise (laneFlags (fm.lanes s) (fun j => (fm.res s j).2)) := by
    funext gran w; exact hF _ gran w (setWave_cur s)
  rw [hFs] at he
  obtain ⟨gran, hl⟩ := laneEnd_eq s fm.marks (fun gran w => (w.putPair gran fm.d (fm.lanes s) (fun j => (fm.res s j).1) (fm.pois s)).raise (laneFlags (fm.lanes s) (fun j => (fm.res s j).2)))
  rw [hl] at he
  have hres : ∀ (W : Wave), W.errinj = s.cur.errinj → ∀ e (us : List Nat), us.foldl (fun t u => t.residue u 1 e ds) (s.setWave s.sel.key W) = s.setWave s.sel.key W := by
    intro W hW e us
    induction us with
    | nil => rfl
    | cons u t ih => rw [List.foldl_cons, residue_unarmed s W u 1 e ds (by rw [hW]; exact h4.1), ih]
  by_cases hd : fm.d.toNat < 62
  · obtain ⟨rows, granted, heq, hrows⟩ := two_writes fm s fm.marks gran fm.d.toNat (fm.lanes s) (fun j => loWord (fm.res s j).1) (fun j => hiWord (fm.res s j).1) (fm.pois s)
    have hrow : ∀ n, (fm.after s rows granted).row n = (((s.cur.clearMarks s.sel.mask fm.marks).writeV gran fm.d.toNat (fm.lanes s) (fun j => loWord (fm.res s j).1) (fm.pois s)).writeV gran (fm.d.toNat + 1) (fm.lanes s) (fun j => hiWord (fm.res s j).1) (fm.pois s)).row n := by
      intro n; simp only [Wave.row, LaneForm.after, hrows]
    have hdest : fm.dests = [fm.d.toNat, fm.d.toNat + 1] := by simp [LaneForm.dests, hw, vnames, hd, List.range_succ]
    have he3 : exec i s = .next (s.setWave s.sel.key (fm.after s rows granted)) := by
      rw [he]
      simp only [Wave.putPair, hd, if_true]
      rw [heq, hres (fm.after s rows granted) (after_errinj _ _ _ _)]
    have hlo := fun n (hn : n ≠ fm.d.toNat + 1 ∨ fm.lanes s = 0) => writeV_other ((s.cur.clearMarks s.sel.mask fm.marks).writeV gran fm.d.toNat (fm.lanes s) (fun j => loWord (fm.res s j).1) (fm.pois s)) gran (fm.d.toNat + 1) n (fm.lanes s) (fun j => hiWord (fm.res s j).1) (fm.pois s) hn
    have hlo2 := fun n (hn : n ≠ fm.d.toNat ∨ fm.lanes s = 0) => writeV_other (s.cur.clearMarks s.sel.mask fm.marks) gran (fm.d.toNat) n (fm.lanes s) (fun j => loWord (fm.res s j).1) (fm.pois s) hn
    refine ⟨rows, granted, he3, ?_, ?_, ?_⟩
    · intro n hn j hj
      rw [hdest] at hn
      simp only [List.mem_cons, List.not_mem_nil, or_false] at hn
      rcases hn with rfl | rfl
      · have h7 := (hrow fm.d.toNat).trans (hlo _ (by left; omega))
        rw [vword_of_row h7, vpois_of_row h7]
        have := writeV_word (s.cur.clearMarks s.sel.mask fm.marks) gran fm.d.toNat (fm.lanes s) (fun j => loWord (fm.res s j).1) (fm.pois s) j hj
        simpa [LaneForm.word] using this
      · rw [vword_of_row (hrow _), vpois_of_row (hrow _)]
        have := writeV_word ((s.cur.clearMarks s.sel.mask fm.marks).writeV gran fm.d.toNat (fm.lanes s) (fun j => loWord (fm.res s j).1) (fm.pois s)) gran (fm.d.toNat + 1) (fm.lanes s) (fun j => hiWord (fm.res s j).1) (fm.pois s) j hj
        simpa [LaneForm.word] using this
    · intro n hn hm j hj
      rw [hdest] at hn
      simp only [List.mem_cons, List.not_mem_nil, or_false] at hn
      rcases hn with rfl | rfl
      · have h7 := (hrow fm.d.toNat).trans (hlo _ (by left; omega))
        rw [vword_of_row h7, vpois_of_row h7]
        have := writeV_keep (s.cur.clearMarks s.sel.mask fm.marks) gran fm.d.toNat (fm.lanes s) (fun j => loWord (fm.res s j).1) (fm.pois s) j hj
        rw [this.1, this.2]
        have h8 : (s.cur.clearMarks s.sel.mask fm.marks).row fm.d.toNat = s.cur.row fm.d.toNat := by simp [clearMarks_row, hm]
        rw [vword_of_row h8, vpois_of_row h8]; exact ⟨rfl, rfl⟩
      · rw [vword_of_row (hrow _), vpois_of_row (hrow _)]
        have := writeV_keep ((s.cur.clearMarks s.sel.mask fm.marks).writeV gran fm.d.toNat (fm.lanes s) (fun j => loWord (fm.res s j).1) (fm.pois s)) gran (fm.d.toNat + 1) (fm.lanes s) (fun j => hiWord (fm.res s j).1) (fm.pois s) j hj
        rw [this.1, this.2]
        have h8 := (hlo2 (fm.d.toNat + 1) (by left; omega)).trans (show (s.cur.clearMarks s.sel.mask fm.marks).row (fm.d.toNat + 1) = s.cur.row (fm.d.toNat + 1) by simp [clearMarks_row, hm])
        rw [vword_of_row h8, vpois_of_row h8]; exact ⟨rfl, rfl⟩
    · intro n hn
      have h5 : n ≠ fm.d.toNat + 1 ∨ fm.lanes s = 0 := by
        rcases hn with hn | hn
        · left; rw [hdest] at hn; simp at hn; exact hn.2
        · exact Or.inr hn
      have h6 : n ≠ fm.d.toNat ∨ fm.lanes s = 0 := by
        rcases hn with hn | hn
        · left; rw [hdest] at hn; simp at hn; exact hn.1
        · exact Or.inr hn
      have h9 := ((hrow n).trans (hlo n h5)).trans (hlo2 n h6)
      rw [clearMarks_row] at h9
      exact h9
  · obtain ⟨r1, hc⟩ := clearMarks_eq s.cur s.sel.mask fm.marks
    have hdest : fm.dests = [] := by simp only [LaneForm.dests, hw, vnames, hd]; rfl
    refine ⟨r1, s.cur.granted, ?_, ?_, ?_, ?_⟩
    · rw [he]; simp only [Wave.putPair, hd, if_false]; rw [hc]
      have heq' : (({ s.cur with rows := r1 } : Wave).raise (laneFlags (fm.lanes s) (fun j => (fm.res s j).2))).moveTo s.sel.mask s.sel.next = fm.after s r1 s.cur.granted := rfl
      rw [heq', hres (fm.after s r1 s.cur.granted) (after_errinj _ _ _ _)]
    · intro n hn; rw [hdest] at hn; simp at hn
    · intro n hn; rw [hdest] at hn; simp at hn
    · intro n _
      have := clearMarks_row s.cur s.sel.mask fm.marks n
      rw [hc] at this
      exact this

theorem p_of (fm : LaneForm) (i : Instr) (s : State) (hw : fm.wide = true)
    (val : Wave → Fin 32 → DWord) (pois : Wave → LaneMask)
    (hv : ∀ j, (fm.res s j).1 = val s.cur j) (h0 : ∀ j, (fm.res s j).2 = 0) (hp : fm.pois s = pois s.cur)
    (he : exec i s = s.lanePair fm.reads fm.marks fm.g fm.gn fm.d val pois) : fm.of i s := by
  intro hr
  refine pair_does fm i s hw hr (fun s' e gran w => w.putPair gran fm.d e (val s'.cur) (pois s'.cur)) [] [] ?_ he
  intro s' gran w hc
  rw [laneFlags_zero _ _ h0, raise_zero, hc, ← hp]
  congr 1
  funext j; exact (hv j).symm

theorem d_of (fm : LaneForm) (i : Instr) (s : State) (hw : fm.wide = true) (units : List Nat)
    (val : Wave → Fin 32 → Nat × Flags) (pois : Wave → LaneMask)
    (hv : ∀ j, (fm.res s j).1 = BitVec.ofNat 64 (val s.cur j).1) (h0 : ∀ j, (fm.res s j).2 = (val s.cur j).2) (hp : fm.pois s = pois s.cur)
    (he : exec i s = s.laneD fm.reads fm.marks fm.g fm.gn fm.d units val pois) : fm.of i s := by
  intro hr
  refine pair_does fm i s hw hr (fun s' e gran w => (w.putPair gran fm.d e (fun i => BitVec.ofNat 64 (val s'.cur i).1) (pois s'.cur)).raise (laneFlags e (fun i => (val s'.cur i).2))) units (vnames fm.d 2) ?_ he
  intro s' gran w hc
  rw [hc, ← hp]
  congr 2
  · funext j; exact (hv j).symm
  · funext j; exact (h0 j).symm

/-! ### Instructions by their operand form -/

theorem lo_set (w : Word) : loWord (w.setWidth 64) = w := by simp [loWord]

theorem v3Op_of (i : Instr) (f : V3) (s : State) (op op' : Word → Word → Word) (he : exec i s = s.v3Op f op')
    (h : ∀ a b, op a b = op' a b) : LaneForm.of i (formV3 f op) s := by
  refine op_of _ i s rfl (fun w i => op' (w.vsrc f.a f.lit i) (w.vsrc f.b f.lit i)) (fun w => w.vsrcPois f.a ||| w.vsrcPois f.b) ?_
    (fun _ => rfl) rfl ?_
  · intro j; simp only [formV3, lo_set, h]
  · rw [he]; unfold State.v3Op; rfl

theorem v3One_of (i : Instr) (f : V3) (s : State) (op op' : Word → Word) (he : exec i s = s.v3One f op')
    (h : ∀ a, op a = op' a) : LaneForm.of i (formOne f op) s := by
  refine op_of _ i s rfl (fun w i => op' (w.vsrc f.a f.lit i)) (fun w => w.vsrcPois f.a) ?_ (fun _ => rfl) rfl ?_
  · intro j; simp only [formOne, lo_set, h]
  · rw [he]; unfold State.v3One; rfl

theorem v4Op_of (i : Instr) (f : V4) (s : State) (op op' : Word → Word → Word → Word) (he : exec i s = s.v4Op f op')
    (h : ∀ a b c, op a b c = op' a b c) : LaneForm.of i (formV4 f op) s := by
  refine op_of _ i s rfl (fun w i => op' (w.vsrc f.a f.lit i) (w.vsrc f.b f.lit i) (w.vsrc f.c f.lit i))
    (fun w => w.vsrcPois f.a ||| w.vsrcPois f.b ||| w.vsrcPois f.c) ?_ (fun _ => rfl) rfl ?_
  · intro j; simp only [formV4, formPlain, lo_set, h]
  · rw [he]; unfold State.v4Op; rfl

theorem viOp_of (i : Instr) (f : VI) (s : State) (op op' : Word → Word) (he : exec i s = s.viOp f op')
    (h : ∀ a, op a = op' a) : LaneForm.of i (formVI f op) s := by
  refine op_of _ i s rfl (fun w i => op' (w.vsrc f.a 0 i)) (fun w => w.vsrcPois f.a) ?_ (fun _ => rfl) rfl ?_
  · intro j; simp only [formVI, formPlain, lo_set, h]
  · rw [he]; unfold State.viOp; rfl

theorem plainOp_of (i : Instr) (s : State) (d : BitVec 6) (reads : List Nat) (res : State → Fin 32 → DWord × Flags) (pois : State → LaneMask)
    (val : Wave → Fin 32 → Word) (p : Wave → LaneMask) (he : exec i s = s.laneOp reads [] 7#3 false d val p)
    (hv : ∀ j, loWord (res s j).1 = val s.cur j) (h0 : ∀ j, (res s j).2 = 0) (hp : pois s = p s.cur) :
    LaneForm.of i (formPlain d false reads res pois) s := op_of _ i s rfl val p hv h0 hp he

end Sys2Proof.Laws
end

