-- ==== Sys2Proof/Laws/Access.lean ====
section
/-! SUPPORT. What the shared operations of a global access do: the checks at issue, the translation of its lines, the walker's marks, the
counting of the operation and the requests for its misses. -/

namespace Sys2Proof.Laws

open Sys2Proof.Machine

/-! ### Translation depends on memory, the contexts and the windows alone -/

theorem window_congr (s t : State) (h : t.localGib = s.localGib) (pa : Nat) : t.window pa = s.window pa := by
  unfold State.window State.interleavedEnd; rw [h]
theorem isFabric_congr (s t : State) (h : t.localGib = s.localGib) (pa : Nat) : t.isFabric pa = s.isFabric pa := by
  unfold State.isFabric; rw [window_congr s t h]
theorem homeAgrees_congr (s t : State) (h : t.localGib = s.localGib) (a b c : Nat) : t.homeAgrees a b c = s.homeAgrees a b c := by
  unfold State.homeAgrees State.interleavedEnd; rw [window_congr s t h, h]
theorem walkFrom_congr (s t : State) (hm : t.mem = s.mem) (hg : t.localGib = s.localGib) (va n tbl : Nat) : t.walkFrom va n tbl = s.walkFrom va n tbl := by
  induction n generalizing tbl with
  | zero => rfl
  | succ n ih =>
    have h1 : ∀ a, t.entryAt a = s.entryAt a := fun a => by unfold State.entryAt; rw [hm]
    have h2 : ∀ e l, t.leafMalformed e l = s.leafMalformed e l := fun e l => by unfold State.leafMalformed; rw [homeAgrees_congr s t hg]
    have h3 : ∀ e l, t.tableMalformed e l = s.tableMalformed e l := fun e l => by unfold State.tableMalformed; rw [window_congr s t hg]
    simp only [State.walkFrom, h1, h2, h3, ih]
theorem translate_congr (s t : State) (hm : t.mem = s.mem) (hg : t.localGib = s.localGib) (hc : t.contexts = s.contexts) (c va : Nat) (acc : Access) :
    t.translate c va acc = s.translate c va acc := by
  have h : t.walk c va = s.walk c va := by unfold State.walk State.context; rw [walkFrom_congr s t hm hg, hc]
  unfold State.translate; rw [h]

/-! ### The beginning of an instruction without guard -/

theorem guardPois_seven (w : Wave) (m : LaneMask) : w.guardPois m 7#3 = 0 := by
  simp [Wave.guardPois, Wave.laneMask, Lane.pp, maskOf]
  apply BitVec.eq_of_getLsbD_eq; intro i hi; simp [BitVec.getLsbD_ofFnLE]

theorem guardLanes_seven (w : Wave) (m : LaneMask) : w.guardLanes m 7#3 false = m := by
  simp [Wave.guardLanes, Wave.laneMask, Lane.p, maskOf]
  apply BitVec.eq_of_getLsbD_eq; intro i hi; simp [hi]

theorem mustStall_room (s : State) (n need freed : Nat) (h : n = 0 ∨ s.room n) (hn : need ≤ n) : s.mustStall need freed = false := by
  rcases h with h | h
  · have : need = 0 := by omega
    simp [State.mustStall, this]
  · simp [State.mustStall, h.1]; intro _ ; have := h.2; omega

theorem laneBegin_begins (s : State) (reads writes : List Nat) (n : Nat) (hw : writes.length ≤ n) (h : s.begins reads n) :
    s.laneBegin reads 7#3 false writes [] = .go (s.setWave s.sel.key s.cur) s.sel.mask := by
  obtain ⟨h2, h3, h4⟩ := h
  simp only [State.laneBegin, guardPois_seven, guardLanes_seven, ne_eq, not_true_eq_false, if_false]
  have hu : ¬ ((s.cur.fpc.getLsbD 4 && (decide ¬ s.sel.mask = 0) && reads.any (fun n => (assocGet s.readRows n).isNone)) = true) := by
    rcases h2 with h2 | h2
    · rw [h2]; simp only [Bool.false_and, Bool.false_eq_true, not_false_eq_true]
    · simp only [Bool.and_eq_true, List.any_eq_true]
      rintro ⟨-, n, hn, he⟩
      have := h2 n hn
      simp [Option.isSome_iff_ne_none] at this
      simp [this] at he
  rw [if_neg hu, mustStall_room s n _ _ h3 (by
    split
    · omega
    · have := rowNeed_le (s.cur.clearMarks s.sel.mask []) writes; omega), readParity_unarmed s _ _ h4]
  rfl

theorem vnames_length (f : BitVec 6) (n : Nat) : (vnames f n).length ≤ n := by simp only [vnames]; split <;> simp

/-! ### The checks of an access -/

theorem and_maskOf_zero (m : LaneMask) (p : Fin 32 → Bool) (h : ∀ i : Fin 32, m.getLsbD i.val = true → p i = false) : m &&& maskOf p = 0 := by
  apply BitVec.eq_of_getLsbD_eq; intro i hi
  rw [BitVec.getLsbD_and, maskOf, BitVec.getLsbD_ofFnLE]
  cases hm : m.getLsbD i with
  | false => simp
  | true => simp [hi, h ⟨i, hi⟩ hm]

theorem accessChecks_none (s : State) (a : BitVec 6) (br : BitVec 4) (imm width : Nat) (acc : Access)
    (h : s.Accessible a br imm width acc) : firstTrap (s.accessChecks a br imm width acc) = none := by
  obtain ⟨h1, ⟨h2, h3⟩, ⟨h4, h5⟩, h6, h7, -⟩ := h
  have mis : s.sel.mask &&& ~~~(s.sel.mask &&& maskOf (fun i => Rec.outOfBounds (s.cur.brec br) (s.cur.elem a imm i))) &&&
      maskOf (fun i => decide (Rec.addr (s.cur.brec br) i.val (s.cur.elem a imm i) % Rec.align (s.cur.brec br) width ≠ 0)) = 0 := by
    apply and_maskOf_zero
    intro i hi
    simp [BitVec.getLsbD_and, maskOf, BitVec.getLsbD_ofFnLE] at hi
    have := h7 i hi.1
    simp [hi.1] at hi
    simpa using this hi
  have perm : ((acc ≠ .write && !Rec.readable (s.cur.brec br)) || (acc.writes && !Rec.writable (s.cur.brec br))) = false := by
    rcases h5 with h5 | h5
    · rcases h4 with h4 | h4
      · rw [h4] at h5; simp [Access.writes] at h5
      · simp [h4, h5]
    · rcases h4 with h4 | h4 <;> simp [h4, h5]
  have oob : Rec.foob (s.cur.brec br) = false ∨
      s.sel.mask &&& maskOf (fun i => Rec.outOfBounds (s.cur.brec br) (s.cur.elem a imm i)) = 0 := by
    rcases h6 with h6 | h6
    · exact .inl h6
    · exact .inr (and_maskOf_zero _ _ h6)
  unfold State.accessChecks
  simp only [h1, h2, h3, perm, mis, State.check, Bool.false_eq_true, if_false, ne_eq, not_true_eq_false, decide_false, decide_true, ite_self]
  rcases oob with oob | oob <;> simp [oob, firstTrap]

/-! ### The lines of an access -/

theorem mem_linesOf (lanes : List (Fin 32 × List Nat)) (v : Nat) : v ∈ linesOf lanes ↔ ∃ l ∈ lanes, ∃ va ∈ l.2, lineAddr va = v := by
  simp [linesOf, List.mem_dedup, List.mem_map, List.mem_flatMap]
  constructor
  · rintro ⟨a, ⟨i, b, h1, h2⟩, h3⟩; exact ⟨i, b, h1, a, h2, h3⟩
  · rintro ⟨i, b, h1, a, h2, h3⟩; exact ⟨a, ⟨i, b, h1, h2⟩, h3⟩

/-- Lines as an access has translated them at a state: every one is a line of the access, with its translation or none. -/
def Translated (s : State) (lanes : List (Fin 32 × List Nat)) (acc : Access) (ls : List LineX) : Prop :=
  ∀ l ∈ ls, l.vline ∈ linesOf lanes ∧ (l.x = none ∨ l.x = some (s.translate s.cur.ctx l.vline acc))

theorem lineX_translated {s : State} {lanes : List (Fin 32 × List Nat)} {acc : Access} {ls : List LineX} (h : Translated s lanes acc ls) (va : Nat) :
    lineX ls va = none ∨ (lineAddr va ∈ linesOf lanes ∧ lineX ls va = some (s.translate s.cur.ctx (lineAddr va) acc)) := by
  unfold lineX
  cases hf : ls.find? (fun l => decide (l.vline = lineAddr va)) with
  | none => simp
  | some l =>
    have hm := List.mem_of_find?_eq_some hf
    have he : l.vline = lineAddr va := by simpa using List.find?_some hf
    obtain ⟨h1, h2⟩ := h l hm
    rw [he] at h1 h2
    rcases h2 with h2 | h2
    · left; simp [h2]
    · right; exact ⟨h1, by simp [h2]⟩

theorem prepLines_ok' (s : State) (acc : Access) (bypass fab : Bool) (br : Nat) (lanes : List (Fin 32 × List Nat)) (h : s.reaches lanes acc fab) :
    ∃ ls, s.prepLines acc bypass fab br lanes = .ok ls ∧ Translated s lanes acc ls ∧
      (bypass = true → ∀ v ∈ linesOf lanes, lineX ls v = some (s.translate s.cur.ctx v acc)) := by
  have hT : Translated s lanes acc ((linesOf lanes).map (fun v =>
      ⟨v, if s.needsXlat s.sel.key.core s.cur.ctx s.cur.team acc bypass v (lanes.flatMap Prod.snd) then some (s.translate s.cur.ctx v acc) else none⟩)) := by
    intro l hl
    obtain ⟨v, hv, rfl⟩ := List.mem_map.1 hl
    refine ⟨hv, ?_⟩
    dsimp only
    split
    · exact .inr rfl
    · exact .inl rfl
  refine ⟨_, ?_, hT, ?_⟩
  case refine_2 =>
    intro hb v hv
    unfold lineX
    subst hb
    have hv' : lineAddr v = v := by obtain ⟨l, hl, va, hva, rfl⟩ := (mem_linesOf _ _).1 hv; unfold lineAddr; omega
    rw [hv']
    have gen : ∀ (f : Nat → Option Xlat) (L : List Nat), v ∈ L →
        ((L.map (fun v => (⟨v, f v⟩ : LineX))).find? (fun l => decide (l.vline = v))).bind LineX.x = f v := by
      intro f L
      induction L with
      | nil => intro h; simp at h
      | cons y t ih =>
        intro h
        simp only [List.map_cons, List.find?_cons]
        by_cases hy : y = v
        · subst hy; simp
        · simp only [hy, decide_false]
          rcases List.mem_cons.1 h with h | h
          · exact absurd h.symm hy
          · exact ih h
    rw [gen _ _ hv]
    simp [State.needsXlat]
  unfold State.prepLines
  dsimp only
  have good : ∀ l ∈ lanes, ∀ va ∈ l.2, ∀ x, lineX ((linesOf lanes).map (fun v =>
      (⟨v, if s.needsXlat s.sel.key.core s.cur.ctx s.cur.team acc bypass v (lanes.flatMap Prod.snd) then some (s.translate s.cur.ctx v acc) else none⟩ : LineX))) va = some x →
      ∃ pa e ea, x = .ok pa e ea ∧ (fab = true ∨ s.isFabric pa = false) := by
    intro l hl va hva x hx
    rcases lineX_translated hT va with h0 | ⟨-, h0⟩
    · rw [h0] at hx; exact absurd hx (by simp)
    · rw [h0] at hx
      obtain ⟨pa, e, ea, he, hf⟩ := h l hl va hva
      exact ⟨pa, e, ea, by rw [← he]; exact (Option.some.inj hx).symm, hf⟩
  split
  · rename_i i vs hf
    exfalso
    have hm := List.mem_of_find?_eq_some hf
    have hp := List.find?_some hf
    simp only [List.any_eq_true] at hp
    obtain ⟨va, hva, hp⟩ := hp
    split at hp
    · rename_i x hx
      obtain ⟨pa, e, ea, rfl, -⟩ := good _ hm va hva x hx
      simp [Xlat.bad] at hp
    · simp at hp
  · split
    · rename_i i vs hf
      exfalso
      have hm := List.mem_of_find?_eq_some hf
      have hp := List.find?_some hf
      simp only [List.any_eq_true] at hp
      obtain ⟨va, hva, hp⟩ := hp
      split at hp
      · rename_i pa' e' ea' hx
        obtain ⟨pa, e, ea, hx', hfab⟩ := good _ hm va hva _ hx
        cases hx'
        rcases hfab with hfab | hfab <;> simp [hfab] at hp
      · simp at hp
    · rfl

theorem prepLines_ok (s : State) (acc : Access) (bypass fab : Bool) (br : Nat) (lanes : List (Fin 32 × List Nat)) (h : s.reaches lanes acc fab) :
    ∃ ls, s.prepLines acc bypass fab br lanes = .ok ls ∧ Translated s lanes acc ls := by
  obtain ⟨ls, h1, h2, -⟩ := prepLines_ok' s acc bypass fab br lanes h; exact ⟨ls, h1, h2⟩

/-! ### The walker's marks -/

theorem cellGet_cellSet_nonzero (m : List Host.Cell) (a : Nat) (v : Byte) (h : v ≠ 0#8) : cellGet (cellSet m a v) a = v := by
  induction m with
  | nil => simp [cellSet, h, cellGet]
  | cons p t ih =>
    obtain ⟨b, w⟩ := p
    simp only [cellSet, if_neg h]
    split
    · simp [cellGet]
    · split
      · simp [cellGet]
      · rename_i h2; simp [cellGet, Ne.symm h2, ih]

theorem markAD_mem (s : State) (ea : Nat) (wr : Bool) (a : Nat) :
    cellGet (s.markAD ea wr).mem a = if a = ea then cellGet s.mem a ||| (if wr then 0x60#8 else 0x20#8) else cellGet s.mem a := by
  show cellGet (cellSet s.mem ea (cellGet s.mem ea ||| (if wr then 0x60#8 else 0x20#8))) a = _
  by_cases h : a = ea
  · subst h
    rw [if_pos rfl, cellGet_cellSet_nonzero]
    intro h0
    have := congrArg (fun b : Byte => b.getLsbD 5) h0
    cases wr <;> simp at this
  · rw [if_neg h]; exact cellGet_cellSet_other _ _ _ _ h

theorem or_mark (b : Byte) (m : Byte) : b ||| m ||| m = b ||| m := by rw [BitVec.or_assoc, BitVec.or_self]

/-- What a fold of marks over lines changes. -/
theorem marks_fold (acc : Access) (ls : List LineX) (s : State) :
    ∃ m, ls.foldl (fun s l => match l.x with
      | some (.ok _ _ ea) => s.markAD ea acc.writes
      | _ => s) s = { s with mem := m } ∧
    ∀ a, cellGet m a = cellGet s.mem a ∨
      (cellGet m a = cellGet s.mem a ||| (if acc.writes then 0x60#8 else 0x20#8) ∧ ∃ l ∈ ls, ∃ pa e, l.x = some (.ok pa e a)) := by
  induction ls generalizing s with
  | nil => exact ⟨s.mem, rfl, fun _ => .inl rfl⟩
  | cons l t ih =>
    simp only [List.foldl_cons]
    split
    · rename_i pa e ea hx
      obtain ⟨m, h1, h2⟩ := ih (s.markAD ea acc.writes)
      refine ⟨m, by rw [h1]; simp [State.markAD], fun a => ?_⟩
      have hm := markAD_mem s ea acc.writes a
      rcases h2 a with h2 | ⟨h2, l', hl', pa', e', hx'⟩
      · rw [h2, hm]
        split
        · rename_i ha; subst ha
          exact .inr ⟨rfl, l, List.mem_cons_self .., pa, e, hx⟩
        · exact .inl rfl
      · refine .inr ⟨?_, l', List.mem_cons_of_mem _ hl', pa', e', hx'⟩
        rw [h2, hm]
        split
        · exact or_mark _ _
        · rfl
    · obtain ⟨m, h1, h2⟩ := ih s
      refine ⟨m, h1, fun a => ?_⟩
      rcases h2 a with h2 | ⟨h2, l', hl', hx'⟩
      · exact .inl h2
      · exact .inr ⟨h2, l', List.mem_cons_of_mem _ hl', hx'⟩

/-- The marks of an access: home memory as walked says, and the wave's refusals spent. -/
theorem marked_spec (s s0 : State) (h0 : s0.cur.ctx = s.cur.ctx ∧ s0.mem = s.mem ∧ s0.poisoned = s.poisoned) (lanes : List (Fin 32 × List Nat)) (acc : Access)
    (ls : List LineX) (h : Translated s lanes acc ls) :
    ∃ m, s0.marked ls acc = ({ s0 with mem := m }).setWave s0.sel.key { s0.cur with refused := [] } ∧
      ∀ t : State, t.mem = m → t.poisoned = s.poisoned → s.walked t lanes acc := by
  obtain ⟨m, h1, h2⟩ := marks_fold acc ls s0
  refine ⟨m, ?_, fun t ht hp => ⟨hp, fun a => ?_⟩⟩
  · exact (congrArg (fun x : State => x.modCur (fun w => { w with refused := [] })) h1).trans rfl
  · rw [ht]
    rcases h2 a with h2 | ⟨h2, l, hl, pa, e, hx⟩
    · left; rw [h2, h0.2.1]
    · right
      refine ⟨by rw [h2, h0.2.1], ?_⟩
      obtain ⟨hv, hx'⟩ := h l hl
      rw [hx] at hx'
      obtain ⟨l', hl', va, hva, he⟩ := (mem_linesOf _ _).1 hv
      refine ⟨l', hl', va, hva, pa, e, ?_⟩
      rw [he]
      exact (Option.some.inj (hx'.resolve_left (by simp))).symm

/-! ### Issue of a load-like operation -/

/-- Rows mapped for a load: fresh rows for the names that had none. -/
theorem allocV_fold (pool : Pool) (dests : List Nat) (w : Wave) : ∃ rows granted,
    dests.foldl (fun w n => w.allocV pool n) w = { w with rows := rows, granted := granted } ∧
    (∀ n, n ∉ dests ∨ (w.row n).isSome = true → assocGet rows n = w.row n) ∧
    (∀ n ∈ dests, w.row n = none → ∃ g, assocGet rows n = some (Row.fresh w.live g)) := by
  induction dests generalizing w with
  | nil => exact ⟨w.rows, w.granted, rfl, fun n _ => rfl, by simp⟩
  | cons d t ih =>
    simp only [List.foldl_cons]
    obtain ⟨rows, granted, h1, h2, h3⟩ := ih (w.allocV pool d)
    by_cases hd : (w.row d).isSome
    · have he : w.allocV pool d = w := by simp [Wave.allocV, hd]
      rw [he] at h1 h2 h3
      refine ⟨rows, granted, by rw [he]; exact h1, fun n hn => ?_, fun n hn hr => ?_⟩
      · rcases hn with hn | hn
        · exact h2 n (.inl (fun h => hn (List.mem_cons_of_mem _ h)))
        · exact h2 n (.inr hn)
      · rcases List.mem_cons.1 hn with rfl | hn
        · simp [hr] at hd
        · exact h3 n hn hr
    · have hd' : w.row d = none := by simpa using hd
      have he : w.allocV pool d = { w with rows := assocSet w.rows d (Row.fresh w.live (w.nextPlace pool)), granted := w.granted - 1 } := by simp [Wave.allocV, hd']
      have hrow : ∀ n, (w.allocV pool d).row n = if n = d then some (Row.fresh w.live (w.nextPlace pool)) else w.row n := by
        intro n; rw [he]; simp only [Wave.row]
        split
        · rename_i h; subst h; simp
        · rename_i h; simp [h]
      have hlive : (w.allocV pool d).live = w.live := by rw [he]; rfl
      refine ⟨rows, granted, by rw [h1, he], fun n hn => ?_, fun n hn hr => ?_⟩
      · have hnd : n ≠ d := by
          rintro rfl
          rcases hn with hn | hn
          · exact hn (List.mem_cons_self ..)
          · simp [hd'] at hn
        have := h2 n (by
          rcases hn with hn | hn
          · exact .inl (fun h => hn (List.mem_cons_of_mem _ h))
          · right; rw [hrow, if_neg hnd]; exact hn)
        rw [this, hrow, if_neg hnd]
      · by_cases hnd : n = d
        · subst hnd
          refine ⟨w.nextPlace pool, ?_⟩
          have := h2 n (.inr (by rw [hrow]; simp))
          rw [this, hrow]; simp
        · rcases List.mem_cons.1 hn with rfl | hn
          · exact absurd rfl hnd
          · obtain ⟨g, hg⟩ := h3 n hn (by rw [hrow, if_neg hnd]; exact hr)
            exact ⟨g, by rw [hg, hlive]⟩

/-- A request that stands for another later on: the same but for marks, and for more operations that share its reply. -/
def Stands (q q' : Request) : Prop :=
  q'.key = q.key ∧ q'.op = q.op ∧ q'.vline = q.vline ∧ q'.pline = q.pline ∧ q'.kind = q.kind ∧ ∀ x ∈ q.sharers, x ∈ q'.sharers
theorem Stands.refl (q : Request) : Stands q q := ⟨rfl, rfl, rfl, rfl, rfl, fun _ h => h⟩
theorem Stands.trans {a b c : Request} (h : Stands a b) (h' : Stands b c) : Stands a c :=
  ⟨h'.1.trans h.1, h'.2.1.trans h.2.1, h'.2.2.1.trans h.2.2.1, h'.2.2.2.1.trans h.2.2.2.1, h'.2.2.2.2.1.trans h.2.2.2.2.1,
    fun x hx => h'.2.2.2.2.2 x (h.2.2.2.2.2 x hx)⟩
/-- Every request of a list still stands in another. -/
def AllStand (a b : List Request) : Prop := ∀ q ∈ a, ∃ q' ∈ b, Stands q q'
theorem AllStand.refl (a : List Request) : AllStand a a := fun q h => ⟨q, h, .refl q⟩
theorem AllStand.trans {a b c : List Request} (h : AllStand a b) (h' : AllStand b c) : AllStand a c := fun q hq => by
  obtain ⟨q1, h1, s1⟩ := h q hq
  obtain ⟨q2, h2, s2⟩ := h' q1 h1
  exact ⟨q2, h2, s1.trans s2⟩
theorem AllStand.append {a b c : List Request} (h : AllStand a b) : AllStand a (b ++ c) := fun q hq => by
  obtain ⟨q', h', s'⟩ := h q hq; exact ⟨q', List.mem_append_left _ h', s'⟩
theorem AllStand.map (a : List Request) (f : Request → Request) (h : ∀ q, Stands q (f q)) : AllStand a (a.map f) :=
  fun q hq => ⟨f q, List.mem_map_of_mem hq, h q⟩

/-- What sending a request changes: it is added; the marks of others may change. -/
theorem send_spec (s : State) (b : NetAgent) (k : WaveKey) (op ctx vline pline : Nat) (kind : ReqKind) (owners : List Nat) (acq : Bool) :
    ∃ net q, s.send b k op ctx vline pline kind owners acq = { s with net := net, nextId := s.nextId + 1 } ∧ AllStand s.net net ∧ q ∈ net ∧
      q.key = k ∧ q.op = op ∧ q.vline = vline ∧ q.pline = pline ∧ q.kind = kind ∧ q.dead = false := by
  unfold State.send State.fresh
  dsimp only
  refine ⟨_, _, rfl, ?_, List.mem_append_right _ (List.mem_singleton.2 rfl), rfl, rfl, rfl, rfl, rfl, rfl⟩
  apply AllStand.append
  split
  · apply AllStand.map
    intro q; split <;> exact ⟨rfl, rfl, rfl, rfl, rfl, fun _ h => h⟩
  · exact .refl _

/-- A read request for a line that serves an operation. -/
def Asked (k : WaveKey) (op vline pline : Nat) (q : Request) : Prop :=
  ((q.key = k ∧ q.op = op) ∨ (k, op) ∈ q.sharers) ∧ q.vline = vline ∧ q.pline = pline ∧ ∃ bypass noCopy, q.kind = .read bypass noCopy
theorem Asked.stands {k : WaveKey} {op v p : Nat} {q q' : Request} (h : Asked k op v p q) (h' : Stands q q') : Asked k op v p q' := by
  obtain ⟨h1, h2, h3, a, b, h4⟩ := h
  obtain ⟨g1, g2, g3, g4, g5, g6⟩ := h'
  refine ⟨?_, g3.trans h2, g4.trans h3, a, b, g5.trans h4⟩
  rcases h1 with h1 | h1
  · exact .inl ⟨g1.trans h1.1, g2.trans h1.2⟩
  · exact .inr (g6 _ h1)

/-- A read for a line is sent, or an older one is shared (R296). -/
theorem sendRead_spec (s : State) (b : NetAgent) (k : WaveKey) (op : Nat) (line : Nat × Nat) (bypass noCopy acq : Bool) :
    ∃ net id, s.sendRead b k op line bypass noCopy acq = { s with net := net, nextId := id } ∧ AllStand s.net net ∧
      ∃ q ∈ net, Asked k op line.1 line.2 q := by
  have hs : ∃ net id, s.send b k op (s.wave k).ctx line.1 line.2 (.read bypass noCopy) [] acq = { s with net := net, nextId := id } ∧
      AllStand s.net net ∧ ∃ q ∈ net, Asked k op line.1 line.2 q := by
    obtain ⟨net, q, h1, h2, h3, h4, h5, h6, h7, h8, -⟩ := send_spec s b k op (s.wave k).ctx line.1 line.2 (.read bypass noCopy) [] acq
    exact ⟨net, _, h1, h2, q, h3, .inl ⟨h4, h5⟩, h6, h7, _, _, h8⟩
  unfold State.sendRead
  dsimp only
  split
  · rename_i r hr
    split
    · have hm := List.mem_of_find?_eq_some hr
      have hp := List.find?_some hr
      simp only [Bool.and_eq_true, decide_eq_true_eq] at hp
      refine ⟨_, s.nextId, rfl, ?_, { r with sharers := r.sharers ++ [(k, op)] }, ?_, ?_⟩
      · apply AllStand.map
        intro q; split
        · exact ⟨rfl, rfl, rfl, rfl, rfl, fun _ h => List.mem_append_left _ h⟩
        · exact .refl q
      · exact List.mem_map.2 ⟨r, hm, by simp⟩
      · exact ⟨.inr (List.mem_append_right _ (List.mem_singleton.2 rfl)), hp.1.1.1.1.1.2, hp.1.1.1.1.2, _, _, hp.1.1.1.2⟩
    · exact hs
  · exact hs

/-- What sending reads changes: requests are added or shared, one for every line that is missing. -/
theorem sendReads_spec (s : State) (by_ : NetAgent) (k : WaveKey) (op : Nat) (ls : List LineX) (bypass acq : Bool) (accs : List LaneAcc) : ∃ net id,
    s.sendReads by_ k op ls bypass acq accs = { s with net := net, nextId := id } ∧ AllStand s.net net ∧
    ∀ x ∈ accs, ∀ b ∈ x.bytes, b.got = none → ∃ q ∈ net, Asked k op (lineAddr b.va) (lineAddr b.pa) q := by
  have main : ∀ (l : List (Nat × Nat)) (s : State), ∃ net id,
      l.foldl (fun s l =>
        let m := mtypeOf ls l.1
        s.sendRead by_ k op l (bypass || m = 1) (m = 2) acq) s = { s with net := net, nextId := id } ∧ AllStand s.net net ∧
      ∀ p ∈ l, ∃ q ∈ net, Asked k op p.1 p.2 q := by
    intro l
    induction l with
    | nil => intro s; exact ⟨s.net, s.nextId, rfl, .refl _, by simp⟩
    | cons p t ih =>
      intro s
      simp only [List.foldl_cons]
      obtain ⟨n1, i1, e1, a1, q1, hq1, as1⟩ := sendRead_spec s by_ k op p (bypass || mtypeOf ls p.1 = 1) (mtypeOf ls p.1 = 2) acq
      rw [e1]
      obtain ⟨net, id, h1, h2, h3⟩ := ih ({ s with net := n1, nextId := i1 })
      refine ⟨net, id, h1, a1.trans h2, fun p' hp' => ?_⟩
      rcases List.mem_cons.1 hp' with rfl | hp'
      · obtain ⟨q', hq', st⟩ := h2 q1 hq1
        exact ⟨q', hq', as1.stands st⟩
      · exact h3 p' hp'
  obtain ⟨net, id, h1, h2, h3⟩ := main (missing accs) s
  refine ⟨net, id, h1, h2, fun x hx b hb hg => ?_⟩
  have : (lineAddr b.va, lineAddr b.pa) ∈ missing accs := by
    simp only [missing, List.mem_dedup, List.mem_map, List.mem_filter, List.mem_flatMap]
    exact ⟨b, ⟨⟨x, hx, hb⟩, by simp [hg]⟩, rfl⟩
  exact h3 _ this

theorem cur_setWave (s : State) (k : WaveKey) (w : Wave) (h : s.sel.key = k) : (s.setWave k w).cur = w := by
  subst h; exact setWave_wave s s.sel.key w

/-! ### Adoption changes owners alone (R331) -/

theorem find_map_line (l : List Line) (f : Line → Line) (ctx vline : Nat) (held : Option Nat)
    (hf : ∀ x, (f x).ctx = x.ctx ∧ (f x).vline = x.vline ∧ (f x).held = x.held) :
    (l.map f).find? (fun l => decide (l.ctx = ctx ∧ l.vline = vline ∧ l.held = held)) =
      (l.find? (fun l => decide (l.ctx = ctx ∧ l.vline = vline ∧ l.held = held))).map f := by
  induction l with
  | nil => rfl
  | cons x t ih =>
    obtain ⟨h1, h2, h3⟩ := hf x
    simp only [List.map_cons, List.find?_cons, h1, h2, h3]
    split
    · rfl
    · exact ih

theorem assocGet_mapVal {κ α : Type} [DecidableEq κ] (l : List (κ × α)) (f : κ → α → α) (k : κ) :
    assocGet (l.map (fun p => (p.1, f p.1 p.2))) k = (assocGet l k).map (f k) := by
  induction l with
  | nil => rfl
  | cons p t ih =>
    obtain ⟨k', v⟩ := p
    simp only [List.map_cons, assocGet]
    split
    · rename_i h; subst h; rfl
    · exact ih

theorem adopt_bytes (s : State) (core ctx : Nat) (vas : List Nat) (owner c : Nat) (x va : Nat) (held : Option Nat) :
    (((s.adopt core ctx vas owner).core c).byteIn x va held).map (fun b => (b.val, b.pois, b.dirty)) =
      ((s.core c).byteIn x va held).map (fun b => (b.val, b.pois, b.dirty)) := by
  by_cases hc : c = core
  · subst hc
    have he : (s.adopt c ctx vas owner).core c = { s.core c with l1 := (s.core c).l1.map (fun l =>
        if l.ctx = ctx ∧ l.held = none ∧ vas.any (fun va => lineAddr va = l.vline) then
          { l with bytes := l.bytes.map (fun b =>
              if b.2.dirty && !b.2.owners.contains owner && vas.contains (l.vline + b.1)
              then (b.1, { b.2 with owners := b.2.owners ++ [owner] }) else b) }
        else l) } := by
      simp [State.adopt, State.modCore]
    rw [he]
    simp only [CoreSt.byteIn, CoreSt.line]
    rw [find_map_line _ _ _ _ _ (by intro l; split <;> exact ⟨rfl, rfl, rfl⟩)]
    cases List.find? _ (s.core c).l1 with
    | none => rfl
    | some l =>
      simp only [Option.map_some, Option.bind_some, Line.byte]
      split
      · have : ∀ (bs : List (Nat × LByte)), (assocGet (bs.map (fun b =>
              if b.2.dirty && !b.2.owners.contains owner && vas.contains (l.vline + b.1)
              then (b.1, { b.2 with owners := b.2.owners ++ [owner] }) else b)) (va % 128)).map (fun b => (b.val, b.pois, b.dirty)) =
            (assocGet bs (va % 128)).map (fun b => (b.val, b.pois, b.dirty)) := by
          intro bs
          induction bs with
          | nil => rfl
          | cons b t ih =>
            obtain ⟨k', v⟩ := b
            simp only [List.map_cons]
            split <;> (simp only [assocGet]; split) <;> first | rfl | exact ih
        exact this l.bytes
      · rfl
  · have : (s.adopt core ctx vas owner).core c = s.core c := by simp [State.adopt, State.modCore, State.setCore, State.core, hc]
    rw [this]

/-- Two states that differ in waves, cores, memory, requests and identities alone. -/
def Near (s t : State) : Prop := ∃ w c m n i, t = { s with waves := w, cores := c, mem := m, net := n, nextId := i }

theorem Near.refl (s : State) : Near s s := ⟨_, _, _, _, _, rfl⟩
theorem Near.trans {s t u : State} (h : Near s t) (h' : Near t u) : Near s u := by
  obtain ⟨_, _, _, _, _, rfl⟩ := h; obtain ⟨_, _, _, _, _, rfl⟩ := h'; exact ⟨_, _, _, _, _, rfl⟩
theorem Near.setWave (s : State) (k : WaveKey) (w : Wave) : Near s (s.setWave k w) := ⟨_, _, _, _, _, rfl⟩
theorem Near.eq {s t : State} (h : Near s t) :
    t = { s with waves := t.waves, cores := t.cores, mem := t.mem, net := t.net, nextId := t.nextId } := by
  obtain ⟨_, _, _, _, _, rfl⟩ := h; rfl
theorem Near.sel {s t : State} (h : Near s t) : t.sel = s.sel := by obtain ⟨_, _, _, _, _, rfl⟩ := h; rfl
theorem Near.clock {s t : State} (h : Near s t) : t.clock = s.clock := by obtain ⟨_, _, _, _, _, rfl⟩ := h; rfl
theorem Near.poisoned {s t : State} (h : Near s t) : t.poisoned = s.poisoned := by obtain ⟨_, _, _, _, _, rfl⟩ := h; rfl
theorem Near.team {s t : State} (h : Near s t) (n : Nat) : t.team n = s.team n := by obtain ⟨_, _, _, _, _, rfl⟩ := h; rfl

/-- What a step of an operation keeps: all but its wave. -/
structure Kept (s t : State) : Prop where
  near : Near s t
  others : ∀ k, k ≠ s.sel.key → assocGet t.waves k = assocGet s.waves k
theorem Kept.refl (s : State) : Kept s s := ⟨.refl s, fun _ _ => rfl⟩
theorem Kept.trans {s t u : State} (h : Kept s t) (h' : Kept t u) : Kept s u :=
  ⟨h.near.trans h'.near, fun k hk => (h'.others k (by rw [h.near.sel]; exact hk)).trans (h.others k hk)⟩
theorem Kept.setCur (s : State) (k : WaveKey) (hk : s.sel.key = k) (w : Wave) : Kept s (s.setWave k w) :=
  ⟨.setWave s _ w, fun j hj => by subst hk; exact assocGet_assocSet_other _ _ _ _ hj⟩

theorem issueOp_spec (s : State) (cls : Machine.Class) (kind : OpKind) : Kept s (s.issueOp cls kind) ∧ (s.issueOp cls kind).mem = s.mem ∧
    (s.issueOp cls kind).cores = s.cores ∧ (s.issueOp cls kind).net = s.net ∧
    (s.issueOp cls kind).cur = { s.cur with ops := s.cur.ops ++ [⟨s.nextId, cls, s.sel.pc, s.sel.mask, kind, false, none, s.clock⟩] } := by
  have h : s.issueOp cls kind = ({ s with nextId := s.nextId + 1 }).setWave s.sel.key
      { s.cur with ops := s.cur.ops ++ [(⟨s.nextId, cls, s.sel.pc, s.sel.mask, kind, false, none, s.clock⟩ : Op)] } := rfl
  rw [h]
  have k : Kept s ({ s with nextId := s.nextId + 1 } : State) := ⟨⟨s.waves, s.cores, s.mem, s.net, s.nextId + 1, rfl⟩, fun _ _ => rfl⟩
  exact ⟨k.trans (.setCur _ _ rfl _), rfl, rfl, rfl, cur_setWave _ _ _ rfl⟩

theorem advance_spec (s : State) : Kept s s.advance ∧ s.advance.mem = s.mem ∧ s.advance.cores = s.cores ∧ s.advance.net = s.net ∧
    s.advance.cur = s.cur.moveTo s.sel.mask s.sel.next := by
  rw [advance_eq]
  exact ⟨.setCur _ _ rfl _, rfl, rfl, rfl, cur_setWave _ _ _ rfl⟩

/-- Putting lines to the front changes no byte (R186). -/
theorem toFront_byteIn (c : CoreSt) (ctx : Nat) (vlines : List Nat) (x va : Nat) (held : Option Nat) :
    (c.toFront ctx vlines).byteIn x va held = c.byteIn x va held := by
  unfold CoreSt.byteIn
  congr 1
  unfold CoreSt.line CoreSt.toFront
  dsimp only
  rw [List.find?_append, List.find?_filter, List.find?_filter]
  by_cases hb : x = ctx ∧ vlines.contains (lineAddr va) = true
  · have h1 : ∀ l : Line, decide (decide (l.ctx = ctx ∧ vlines.contains l.vline = true) = true ∧ decide (l.ctx = x ∧ l.vline = lineAddr va ∧ l.held = held) = true) =
        decide (l.ctx = x ∧ l.vline = lineAddr va ∧ l.held = held) := by
      intro l; rw [decide_eq_decide]; simp only [decide_eq_true_eq]
      exact ⟨fun h => h.2, fun h => ⟨⟨h.1.trans hb.1, by rw [h.2.1]; exact hb.2⟩, h⟩⟩
    have h2 : ∀ l : Line, decide ((!decide (l.ctx = ctx ∧ vlines.contains l.vline = true)) = true ∧ decide (l.ctx = x ∧ l.vline = lineAddr va ∧ l.held = held) = true) = false := by
      intro l; rw [decide_eq_false_iff_not]; simp only [Bool.not_eq_true', decide_eq_false_iff_not, decide_eq_true_eq]
      rintro ⟨h, h3, h4, -⟩; exact h ⟨h3.trans hb.1, by rw [h4]; exact hb.2⟩
    simp only [h1, h2]
    rw [show List.find? (fun _ => false) c.l1 = none by induction c.l1 <;> simp_all, Option.or_none]
  · have h1 : ∀ l : Line, decide (decide (l.ctx = ctx ∧ vlines.contains l.vline = true) = true ∧ decide (l.ctx = x ∧ l.vline = lineAddr va ∧ l.held = held) = true) = false := by
      intro l; rw [decide_eq_false_iff_not]; simp only [decide_eq_true_eq]
      rintro ⟨h, h3, h4, -⟩; exact hb ⟨h3.symm.trans h.1, by rw [← h4]; exact h.2⟩
    have h2 : ∀ l : Line, decide ((!decide (l.ctx = ctx ∧ vlines.contains l.vline = true)) = true ∧ decide (l.ctx = x ∧ l.vline = lineAddr va ∧ l.held = held) = true) =
        decide (l.ctx = x ∧ l.vline = lineAddr va ∧ l.held = held) := by
      intro l; rw [decide_eq_decide]; simp only [Bool.not_eq_true', decide_eq_false_iff_not, decide_eq_true_eq]
      exact ⟨fun h => h.2, fun h => ⟨fun h' => hb ⟨h.1.symm.trans h'.1, by rw [← h.2.1]; exact h'.2⟩, h⟩⟩
    simp only [h1, h2]
    rw [show List.find? (fun _ => false) c.l1 = none by induction c.l1 <;> simp_all, Option.none_or]

/-- Everything that the issue of a load-like operation over translated lines does, where no error has struck a held byte that it reads. -/
theorem issueLoad_spec (s : State) (ls : List LineX) (bypass stream acq : Bool) (lanes : List (Fin 32 × List Nat)) (kind : List LaneAcc → OpKind)
    (hq : s.struckHeld s.cur.team (lanes.flatMap Prod.snd) = none) :
    Kept s (s.issueLoad ls bypass stream acq lanes kind) ∧ (s.issueLoad ls bypass stream acq lanes kind).mem = s.mem ∧
    (∀ c ctx va held, (((s.issueLoad ls bypass stream acq lanes kind).core c).byteIn ctx va held).map (fun b => (b.val, b.pois, b.dirty)) =
      ((s.core c).byteIn ctx va held).map (fun b => (b.val, b.pois, b.dirty))) ∧
    s.asks (s.issueLoad ls bypass stream acq lanes kind) (s.laneAccs ls bypass lanes) ∧
    (s.issueLoad ls bypass stream acq lanes kind).cur = { s.cur with
      lanes := (s.cur.moveTo s.sel.mask s.sel.next).lanes
      ops := s.cur.ops ++ [⟨s.nextId, .ld, s.sel.pc, s.sel.mask, kind (s.laneAccs ls bypass lanes), false, none, s.clock⟩] } := by
  set accs := s.laneAccs ls bypass lanes with haccs
  -- adoption
  obtain ⟨S4, hS4⟩ : ∃ S4, S4 = s.adopt s.sel.key.core s.cur.ctx (lanes.flatMap Prod.snd) s.cur.uid := ⟨_, rfl⟩
  have k4 : Kept s S4 := by rw [hS4]; exact ⟨⟨_, _, _, _, _, rfl⟩, fun _ _ => rfl⟩
  have c4 : S4.cur = s.cur := by rw [hS4]; rfl
  have m4 : S4.mem = s.mem := by rw [hS4]; rfl
  have n4 : S4.nextId = s.nextId := by rw [hS4]; rfl
  have b4 : ∀ c ctx va held, ((S4.core c).byteIn ctx va held).map (fun b => (b.val, b.pois, b.dirty)) =
      ((s.core c).byteIn ctx va held).map (fun b => (b.val, b.pois, b.dirty)) := by
    intro c x va held; rw [hS4]; exact adopt_bytes _ _ _ _ _ _ _ _ _
  -- the order of replacement
  obtain ⟨S5, hS5⟩ : ∃ S5, S5 = (if stream then S4.modCore s.sel.key.core (fun c => c.toFront s.cur.ctx (linesOf lanes)) else S4) := ⟨_, rfl⟩
  have k5 : Kept S4 S5 := by
    rw [hS5]; split
    · exact ⟨⟨_, _, _, _, _, rfl⟩, fun _ _ => rfl⟩
    · exact .refl _
  have c5 : S5.cur = s.cur := by rw [hS5, ← c4]; split <;> rfl
  have m5 : S5.mem = S4.mem := by rw [hS5]; split <;> rfl
  have n5 : S5.nextId = S4.nextId := by rw [hS5]; split <;> rfl
  have b5 : ∀ c ctx va held, (S5.core c).byteIn ctx va held = (S4.core c).byteIn ctx va held := by
    intro c x va held
    rw [hS5]
    split
    · by_cases hc : c = s.sel.key.core
      · subst hc
        rw [show (S4.modCore s.sel.key.core (fun c => c.toFront s.cur.ctx (linesOf lanes))).core s.sel.key.core =
          (S4.core s.sel.key.core).toFront s.cur.ctx (linesOf lanes) by simp [State.modCore]]
        exact toFront_byteIn _ _ _ _ _ _
      · rw [show (S4.modCore s.sel.key.core (fun c => c.toFront s.cur.ctx (linesOf lanes))).core c = S4.core c by simp [State.modCore, State.setCore, State.core, hc]]
    · rfl
  obtain ⟨k6, m6, x6, -, c6⟩ := issueOp_spec S5 .ld (kind accs)
  obtain ⟨S6, hS6⟩ : ∃ S6, S6 = S5.issueOp .ld (kind accs) := ⟨_, rfl⟩
  rw [← hS6] at k6 m6 x6 c6
  obtain ⟨net, id, hs1, -, hs3⟩ := sendReads_spec S6 (.core s.sel.key.core) s.sel.key s.nextId ls bypass acq accs
  obtain ⟨S7, hS7⟩ : ∃ S7, S7 = S6.sendReads (.core s.sel.key.core) s.sel.key s.nextId ls bypass acq accs := ⟨_, rfl⟩
  have e7 : S7 = { S6 with net := net, nextId := id } := by rw [hS7]; exact hs1
  have k7 : Kept S6 S7 := by rw [e7]; exact ⟨⟨_, _, _, _, _, rfl⟩, fun _ _ => rfl⟩
  obtain ⟨k8, m8, x8, n8, c8⟩ := advance_spec S7
  have hi : s.issueLoad ls bypass stream acq lanes kind = S7.advance := by
    unfold State.issueLoad
    dsimp only
    rw [hq]
    dsimp only
    rw [hS7, hS6, ← n4, ← n5, hS5, hS4]
    rfl
  have K5 : Kept s S5 := k4.trans k5
  have K : Kept s S7.advance := (K5.trans k6).trans (k7.trans k8)
  rw [hi]
  refine ⟨K, ?_, ?_, ?_, ?_⟩
  · rw [m8, e7]; exact m6.trans (m5.trans m4)
  · intro c ctx va held
    have : S7.advance.core c = S5.core c := by
      unfold State.core; rw [x8, e7]; show (assocGet S6.cores c).getD _ = _; rw [x6]
    rw [this, b5]; exact b4 c ctx va held
  · intro x hx b hb hg
    obtain ⟨q, hq, h⟩ := hs3 x hx b hb hg
    exact ⟨q, by rw [n8, e7]; exact hq, h⟩
  · have c7 : S7.cur = S6.cur := by rw [e7]; rfl
    have l7 : S7.sel = s.sel := ((K5.trans k6).trans k7).near.sel
    rw [c8, l7, c7, c6, c5, n5, n4, K5.near.sel, K5.near.clock]
    rfl

/-- What a wave sees of its release stores depends on the requests and on its own operations alone. -/
theorem releaseByte_congr (s t : State) (k : WaveKey) (hn : t.net = s.net) (ho : (t.wave k).ops = (s.wave k).ops) (pa : Nat) :
    t.releaseByte k pa = s.releaseByte k pa := by
  unfold State.releaseByte
  rw [hn]
  congr 2
  apply List.filter_congr
  intro r _
  by_cases h : r.key = k
  · unfold State.heldBack Wave.op; rw [h, ho]
  · simp [h]

theorem struckHeld_congr (s t : State) (h : ∀ n, t.team n = s.team n) (n : Nat) (vas : List Nat) : t.struckHeld n vas = s.struckHeld n vas := by
  unfold State.struckHeld State.regionOpen; rw [h]

/-- A load-like operation over its lines, from the effect that issues it; lanes': those for which the lines are translated, with the same
addresses. -/
theorem loads_of (s s1 : State) (h1 : s1 = s ∨ s1 = s.setWave s.sel.key s.cur) (i : Instr) (lanes' lanes : List (Fin 32 × List Nat)) (dests : List Nat)
    (bypass stream acq fab : Bool) (br : Nat) (rd : Option Nat) (kind : List LaneAcc → OpKind) (eff : State → List LineX → State)
    (hl : ∀ l ∈ lanes', ∃ l' ∈ lanes, l'.2 = l.2)
    (heff : ∀ s ls, (∃ g, eff s ls = (s.modCur (fun w => dests.foldl (fun w n => w.allocV g n) w)).issueLoad ls bypass stream acq lanes kind) ∨
      (dests = [] ∧ eff s ls = s.issueLoad ls bypass stream acq lanes kind))
    (he : exec i s = s1.withLines .read bypass fab br lanes' dests rd eff) (hr : s.reaches lanes .read fab)
    (hq : s.struckHeld s.cur.team (lanes.flatMap Prod.snd) = none) :
    s.loads i lanes dests bypass kind := by
  have k1 : Kept s s1 := by
    rcases h1 with h | h
    · rw [h]; exact .refl _
    · rw [h]; exact .setCur _ _ rfl _
  have hcur : s1.cur = s.cur := by
    rcases h1 with h | h
    · rw [h]
    · rw [h]; exact cur_setWave _ _ _ rfl
  have hmem : s1.mem = s.mem ∧ s1.nextId = s.nextId ∧ s1.cores = s.cores ∧ s1.net = s.net := by
    rcases h1 with h | h <;> rw [h] <;> exact ⟨rfl, rfl, rfl, rfl⟩
  have hxc : s1.localGib = s.localGib ∧ s1.contexts = s.contexts := by rcases h1 with h | h <;> rw [h] <;> exact ⟨rfl, rfl⟩
  have hxl : ∀ c va acc, s1.translate c va acc = s.translate c va acc := translate_congr s s1 hmem.1 hxc.1 hxc.2
  have hfabr : ∀ pa, s1.isFabric pa = s.isFabric pa := isFabric_congr s s1 hxc.1
  obtain ⟨ls, hp, hT⟩ := prepLines_ok s1 .read bypass fab br lanes' (by
    intro l hm va hva; obtain ⟨l0, hl0, e0⟩ := hl l hm
    obtain ⟨pa, e, ea, h, h'⟩ := hr l0 hl0 va (by rw [e0]; exact hva)
    exact ⟨pa, e, ea, by rw [hcur, hxl]; exact h, by rw [hfabr]; exact h'⟩)
  have hT' : Translated s lanes' .read ls := by
    intro l hl; have := hT l hl; rw [hcur, hxl] at this; exact this
  obtain ⟨m, hm, hw'⟩ := marked_spec s s1 ⟨by rw [hcur], hmem.1, k1.near.poisoned⟩ lanes' .read ls hT'
  have hw : ∀ t : State, t.mem = m → t.poisoned = s.poisoned → s.walked t lanes .read := by
    intro t h1 h2
    refine ⟨h2, fun a => ?_⟩
    rcases (hw' t h1 h2).2 a with h | ⟨h, l, hl', va, hva, pa, e, hx⟩
    · exact .inl h
    · obtain ⟨l0, hl0, e0⟩ := hl l hl'
      exact .inr ⟨h, l0, hl0, va, by rw [e0]; exact hva, pa, e, hx⟩
  have hx : exec i s = .next (eff (s1.marked ls .read) ls) := by rw [he]; unfold State.withLines; rw [hp]
  obtain ⟨S2, hS2⟩ : ∃ S2, S2 = s1.marked ls .read := ⟨_, rfl⟩
  rw [← hS2] at hm hx
  have k2 : Kept s1 S2 := by
    rw [hm]
    have k : Kept s1 ({ s1 with mem := m } : State) := ⟨⟨s1.waves, s1.cores, m, s1.net, s1.nextId, rfl⟩, fun _ _ => rfl⟩
    exact k.trans (.setCur _ _ rfl _)
  have c2 : S2.cur = { s.cur with refused := [] } := by rw [hm, cur_setWave _ _ _ rfl, hcur]
  have m2 : S2.mem = m ∧ S2.nextId = s.nextId ∧ S2.cores = s.cores ∧ S2.net = s.net := by rw [hm]; exact ⟨rfl, hmem.2.1, hmem.2.2.1, hmem.2.2.2⟩
  have kk2 : S2.sel = s.sel := (k1.trans k2).near.sel
  -- the wave with its registers mapped
  obtain ⟨rows, granted, S3, k3, c3, m3, hrows1, hrows2, hx3⟩ : ∃ rows granted S3,
      Kept S2 S3 ∧ S3.cur = { s.cur with refused := [], rows := rows, granted := granted } ∧ (S3.mem = m ∧ S3.nextId = s.nextId ∧ S3.cores = s.cores ∧ S3.net = s.net) ∧
      (∀ n, n ∉ dests ∨ (s.cur.row n).isSome = true → assocGet rows n = s.cur.row n) ∧
      (∀ n ∈ dests, s.cur.row n = none → ∃ g, assocGet rows n = some (Row.fresh s.cur.live g)) ∧
      eff S2 ls = S3.issueLoad ls bypass stream acq lanes kind := by
    rcases heff S2 ls with ⟨g, h⟩ | ⟨hd, h⟩
    · obtain ⟨rows, granted, ha, hb, hc⟩ := allocV_fold g dests ({ s.cur with refused := [] } : Wave)
      refine ⟨rows, granted, _, .setCur _ _ rfl _, ?_, m2, hb, hc, h⟩
      rw [cur_setWave _ _ _ rfl]
      show dests.foldl _ S2.cur = _
      rw [c2, ha]
    · subst hd
      exact ⟨s.cur.rows, s.cur.granted, S2, .refl _, c2, m2, fun n _ => rfl, by simp, h⟩
  rw [hx3] at hx
  have K3 : Kept s S3 := (k1.trans k2).trans k3
  have l3 : S3.sel = s.sel := K3.near.sel
  obtain ⟨k8, m8, b8, a8, c8⟩ := issueLoad_spec S3 ls bypass stream acq lanes kind (by
    rw [c3]; dsimp only; rw [struckHeld_congr s S3 K3.near.team]; exact hq)
  have K8 := K3.trans k8
  have hl1 : ∀ core ctx team va, S3.l1Byte core ctx team va = s.l1Byte core ctx team va := by
    intro core ctx team va
    unfold State.l1Byte State.core
    rw [m3.2.2.1, K3.near.team]
  refine ⟨_, S3.laneAccs ls bypass lanes, rows, granted, hx, K8.near.eq, ?_, K8.others, ?_, ⟨hrows1, hrows2⟩, ?_, ?_, ?_, ?_⟩
  · rw [c8, c3, l3, m3.2.1, K3.near.clock]; rfl
  · unfold accsOf State.laneAccs
    rw [List.map_map]
    apply List.map_congr_left
    intro l _
    refine Prod.ext rfl ?_
    dsimp only [Function.comp]
    rw [List.map_map]
    conv_rhs => rw [← List.map_id l.2]
    apply List.map_congr_left
    intro va _
    dsimp only [Function.comp, id]
    unfold State.findByte
    dsimp only
    repeat' split
    all_goals rfl
  · exact hw _ (m8.trans m3.1) K8.near.poisoned
  · intro c ctx va held
    rw [b8]
    have : S3.core c = s.core c := by unfold State.core; rw [m3.2.2.1]
    rw [this]
  · intro hb x hx' b hb' hpl
    have hrel : ∀ pa, S3.releaseByte s.sel.key pa = s.releaseByte s.sel.key pa := by
      refine releaseByte_congr s S3 s.sel.key m3.2.2.2 ?_
      have h : S3.cur.ops = s.cur.ops := by rw [c3]
      unfold State.cur at h; rw [l3] at h; exact h
    unfold State.laneAccs at hx'
    obtain ⟨l, hl, rfl⟩ := List.mem_map.1 hx'
    dsimp only at hb'
    obtain ⟨va, hva, rfl⟩ := List.mem_map.1 hb'
    rw [l3]
    have hw3 : S3.wave s.sel.key = { s.cur with refused := [], rows := rows, granted := granted } := by
      unfold State.cur at c3; rw [l3] at c3; exact c3
    have hva' : (S3.findByte s.sel.key ls bypass va).va = va := by
      unfold State.findByte; dsimp only; repeat' split
      all_goals rfl
    have hpa : (S3.findByte s.sel.key ls bypass va).pa = S3.plineOf s.sel.key.core s.cur.ctx s.cur.team ls (lineAddr va) + va % 128 := by
      unfold State.findByte; dsimp only; rw [hw3]; repeat' split
      all_goals rfl
    rw [l3, hva'] at hpl
    rw [hpa, hva']
    have hfind : bypass = false → (S3.findByte s.sel.key ls bypass va).got =
        match s.releaseByte s.sel.key (S3.plineOf s.sel.key.core s.cur.ctx s.cur.team ls (lineAddr va) + va % 128),
          s.l1Byte s.sel.key.core s.cur.ctx s.cur.team va with
        | some b, _ => some b
        | none, some b => some ⟨b.val, b.pois⟩
        | none, none => none := by
      intro hb
      unfold State.findByte
      dsimp only
      rw [hw3]
      dsimp only
      rw [hl1, hrel]
      have hcl : (mtypeOf ls va = 1) = False ∧ ((entryOf ls va).map Pte.state = some 1) = False ∧ (entryOf ls va).any Pte.psn = false := by
        rcases lineX_translated hT' va with h0 | ⟨-, h0⟩
        · simp [entryOf, mtypeOf, h0]
        · cases hx2 : s.translate s.cur.ctx (lineAddr va) .read with
          | ok pa e ea =>
            obtain ⟨e1, e2, e3⟩ := hpl pa e ea hx2
            have he : entryOf ls va = some e := by simp [entryOf, h0, hx2]
            simp [he, e1, e2, mtypeOf, e3]
          | fault a b c => simp [entryOf, mtypeOf, h0, hx2]
          | noPage l => simp [entryOf, mtypeOf, h0, hx2]
          | migrating l => simp [entryOf, mtypeOf, h0, hx2]
      simp only [hb, hcl.1, hcl.2.1, hcl.2.2, Bool.false_or, decide_false, if_false, Bool.false_and, Bool.false_eq_true]
      split <;> simp_all
    refine ⟨fun m hm => ?_, fun hn lb hlb => ?_⟩
    · rw [hfind hb, hm]
    · rw [hfind hb, hn, hlb]
  · intro x hx' b hb' hg
    obtain ⟨q, hq, h⟩ := a8 x hx' b hb' hg
    rw [l3, m3.2.1] at h
    exact ⟨q, hq, h⟩

/-- A VM load that meets no trap. -/
theorem accessible_same (s s1 : State) (h1 : s1 = s ∨ s1 = s.setWave s.sel.key s.cur) (a : BitVec 6) (br : BitVec 4) (imm w : Nat) (acc : Access) :
    s1.accessChecks a br imm w acc = s.accessChecks a br imm w acc ∧ s1.accessLanes a br imm w = s.accessLanes a br imm w ∧ s1.cur = s.cur := by
  have hc : s1.cur = s.cur := by
    rcases h1 with h | h
    · rw [h]
    · rw [h]; exact cur_setWave _ _ _ rfl
  have hs : s1.sel = s.sel := by rcases h1 with h | h <;> rw [h]; rfl
  refine ⟨?_, ?_, hc⟩
  · unfold State.accessChecks State.check; rw [hc, hs]
  · unfold State.accessLanes; rw [hc, hs]

theorem vmLoad_loads (i : Instr) (f : VM) (s : State) (w n : Nat) (sg : Bool) (hn : n ≤ 4) (hb : s.begins (vname f.a) 4)
    (ha : s.Accessible f.a f.br f.imm.toNat w .read) (he : exec i s = s.vmLoad f w n sg)
    (hq : s.struckHeld s.cur.team ((s.accessLanes f.a f.br f.imm.toNat w).flatMap Prod.snd) = none) :
    s.loads i (s.accessLanes f.a f.br f.imm.toNat w) (vnames f.d n) (decide (f.ch = 2#2)) (.load f.d.toNat w sg f.ch none none) := by
  have hg := laneBegin_begins s (vname f.a) (vnames f.d n) 4 (le_trans (vnames_length _ _) hn) hb
  obtain ⟨e1, e2, e3⟩ := accessible_same s (s.setWave s.sel.key s.cur) (.inr rfl) f.a f.br f.imm.toNat w .read
  refine loads_of s _ (.inr rfl) i (s.accessLanes f.a f.br f.imm.toNat w) _ _ _ (decide (f.ch = 1#2)) false (Rec.fab (s.cur.brec f.br)) f.br.toNat none _ (fun t ls =>
     ((t.modCur (fun w => (vnames f.d n).foldl (fun w m => w.allocV (t.pool t.sel.key.core) m) w)).issueLoad ls (decide (f.ch = 2#2)) (decide (f.ch = 1#2)) false
       ((s.setWave s.sel.key s.cur).accessLanes f.a f.br f.imm.toNat w) (fun accs => .load f.d.toNat w sg f.ch none none accs)))
       (fun l h => ⟨l, h, rfl⟩) ?_ ?_ ha.mapped hq
  · intro s ls; left; rw [e2]; exact ⟨_, rfl⟩
  · rw [he]; unfold State.vmLoad
    simp only [hg, e1, accessChecks_none s _ _ _ _ _ ha, e3, e2]

/-! ### Stores into the L1 (R184, R186, R233) -/

theorem find_putLine (c : CoreSt) (l : Line) (front : Bool) (ctx vline : Nat) (held : Option Nat) :
    (c.putLine l front).line ctx vline held =
      if l.ctx = ctx ∧ l.vline = vline ∧ l.held = held then some l else c.line ctx vline held := by
  cases front with
  | true =>
    unfold CoreSt.putLine CoreSt.line
    simp only [if_true, List.find?_cons, List.find?_filter]
    by_cases hl : l.ctx = ctx ∧ l.vline = vline ∧ l.held = held
    · simp [hl]
    · simp only [hl, decide_false, if_false]
      congr 1
      funext x
      rw [decide_eq_decide]
      simp only [Bool.not_eq_true', decide_eq_false_iff_not, decide_eq_true_eq]
      exact ⟨fun h => h.2, fun h => ⟨fun h' => hl ⟨h'.1.symm.trans h.1, h'.2.1.symm.trans h.2.1, h'.2.2.symm.trans h.2.2⟩, h⟩⟩
  | false =>
  unfold CoreSt.putLine CoreSt.line
  simp only [Bool.false_eq_true, if_false]
  split
  · rename_i ha
    simp only [List.any_eq_true, decide_eq_true_eq] at ha
    obtain ⟨x, hx, hxe⟩ := ha
    dsimp only
    have gen : ∀ L : List Line, ((∃ x ∈ L, x.ctx = l.ctx ∧ x.vline = l.vline ∧ x.held = l.held) ∨ ¬ (l.ctx = ctx ∧ l.vline = vline ∧ l.held = held)) →
        (L.map (fun x => if x.ctx = l.ctx ∧ x.vline = l.vline ∧ x.held = l.held then l else x)).find?
          (fun l => decide (l.ctx = ctx ∧ l.vline = vline ∧ l.held = held)) =
        if l.ctx = ctx ∧ l.vline = vline ∧ l.held = held then some l
          else L.find? (fun l => decide (l.ctx = ctx ∧ l.vline = vline ∧ l.held = held)) := by
      intro L
      induction L with
      | nil =>
        rintro (⟨x, hx, -⟩ | h)
        · simp at hx
        · simp [h]
      | cons y t ih =>
        intro h
        simp only [List.map_cons, List.find?_cons]
        by_cases hy : y.ctx = l.ctx ∧ y.vline = l.vline ∧ y.held = l.held
        · simp only [hy, and_self, if_true]
          by_cases hl : l.ctx = ctx ∧ l.vline = vline ∧ l.held = held
          · simp [hl]
          · simp only [hl, decide_false, if_false]
            rw [ih (.inr hl), if_neg hl]
        · simp only [hy, if_false]
          by_cases hy2 : y.ctx = ctx ∧ y.vline = vline ∧ y.held = held
          · have hl : ¬ (l.ctx = ctx ∧ l.vline = vline ∧ l.held = held) := by
              intro hl; apply hy; rw [hy2.1, hy2.2.1, hy2.2.2, hl.1, hl.2.1, hl.2.2]; simp
            simp [hy2, hl]
          · simp only [hy2, decide_false]
            apply ih
            rcases h with ⟨x, hx, hxe⟩ | h
            · rcases List.mem_cons.1 hx with rfl | hx
              · exact absurd hxe hy
              · exact .inl ⟨x, hx, hxe⟩
            · exact .inr h
    exact gen _ (.inl ⟨x, hx, hxe⟩)
  · rename_i ha
    have ha' : ∀ x ∈ c.l1, ¬ (x.ctx = l.ctx ∧ x.vline = l.vline ∧ x.held = l.held) := by
      intro x hx he; apply ha; simp only [List.any_eq_true, decide_eq_true_eq]; exact ⟨x, hx, he⟩
    dsimp only
    have hn : (l.ctx = ctx ∧ l.vline = vline ∧ l.held = held) →
        c.l1.find? (fun l => decide (l.ctx = ctx ∧ l.vline = vline ∧ l.held = held)) = none := by
      intro hl
      rw [List.find?_eq_none]
      intro x hx he
      simp only [decide_eq_true_eq] at he
      apply ha' x hx
      rw [he.1, he.2.1, he.2.2, hl.1, hl.2.1, hl.2.2]; simp
    simp only [List.find?_append, List.find?_cons, List.find?_nil]
    by_cases hl : l.ctx = ctx ∧ l.vline = vline ∧ l.held = held
    · rw [hn hl]; simp [hl]
    · simp [hl]

theorem putLine_length (c : CoreSt) (l : Line) (front : Bool) : (c.putLine l front).l1.length ≤ c.l1.length + 1 := by
  unfold CoreSt.putLine
  dsimp only
  split
  · simp only [List.length_cons]; exact Nat.succ_le_succ (List.length_filter_le _ _)
  · split <;> simp

theorem putLine_cap (c : CoreSt) (l : Line) (front : Bool) : (c.putLine l front).l1Cap = c.l1Cap := by
  unfold CoreSt.putLine CoreSt.l1Cap
  dsimp only
  split
  · rfl
  · split <;> rfl

theorem foldl_assocSet (bs : List (Nat × MByte)) (owner : Nat) (l : List (Nat × LByte)) (o : Nat) :
    assocGet (bs.foldl (fun acc b => assocSet acc b.1 ⟨b.2.val, b.2.pois, true, [owner]⟩) l) o =
      match assocGet bs.reverse o with
      | some m => some ⟨m.val, m.pois, true, [owner]⟩
      | none => assocGet l o := by
  induction bs using List.reverseRecOn generalizing l with
  | nil => rfl
  | append_singleton bs b ih =>
    rw [List.foldl_append, List.reverse_append]
    simp only [List.foldl_cons, List.foldl_nil, List.reverse_cons, List.reverse_nil, List.nil_append, List.singleton_append]
    obtain ⟨a, m⟩ := b
    by_cases h : a = o
    · subst h; simp [assocGet]
    · rw [assocGet_assocSet_other _ _ _ _ (Ne.symm h), ih]
      simp [assocGet, h]

/-- Writing bytes of one line into an L1 with room for the line. -/
theorem l1Write_spec (s : State) (core ctx vline pline : Nat) (e : Option (BitVec 64)) (bs : List (Nat × MByte)) (w : Wave) (front : Bool)
    (hr : (s.core core).l1.length + 1 ≤ (s.core core).l1Cap) :
    ∃ c, s.l1Write core ctx vline pline e bs w front = s.setCore core c ∧ c.l1.length ≤ (s.core core).l1.length + 1 ∧
      c.l1Cap = (s.core core).l1Cap ∧
      ∀ x va held, c.byteIn x va held =
        if x = ctx ∧ lineAddr va = vline ∧ held = (if s.regionOpen w.team then some w.team else none) then
          match assocGet bs.reverse (va % 128) with
          | some m => some ⟨m.val, m.pois, true, [w.uid]⟩
          | none => (s.core core).byteIn x va held
        else (s.core core).byteIn x va held := by
  unfold State.l1Write
  extract_lets held l0 l1
  have hl1 : l1.ctx = l0.ctx ∧ l1.vline = l0.vline ∧ l1.held = l0.held ∧ l1.bytes = l0.bytes := by
    simp only [l1]; split <;> simp
  have hl0 : l0.ctx = ctx ∧ l0.vline = vline ∧ l0.held = held ∧ ∀ o, assocGet l0.bytes o = ((s.core core).line ctx vline held).bind (fun l => l.byte o) := by
    simp only [l0]
    cases hf : (s.core core).line ctx vline held with
    | none => exact ⟨rfl, rfl, rfl, fun o => rfl⟩
    | some l =>
      have := List.find?_some hf
      simp only [decide_eq_true_eq] at this
      exact ⟨this.1, this.2.1, this.2.2, fun o => rfl⟩
  refine ⟨(s.core core).putLine (l1.write bs w.uid) front, ?_, putLine_length _ _ _, putLine_cap _ _ _, ?_⟩
  · unfold State.putLine
    have hlen := putLine_length (s.core core) (l1.write bs w.uid) front
    have h0 : ((s.modCore core (fun c => c.putLine (l1.write bs w.uid) front)).core core) = (s.core core).putLine (l1.write bs w.uid) front := by
      simp [State.modCore]
    simp only [h0, putLine_cap]
    rw [Nat.sub_eq_zero_of_le (by omega)]
    rfl
  · intro x va held'
    have hd : (l1.write bs w.uid).ctx = ctx ∧ (l1.write bs w.uid).vline = vline ∧ (l1.write bs w.uid).held = held := by
      refine ⟨?_, ?_, ?_⟩
      · exact hl1.1.trans hl0.1
      · exact hl1.2.1.trans hl0.2.1
      · exact hl1.2.2.1.trans hl0.2.2.1
    unfold CoreSt.byteIn
    rw [find_putLine, hd.1, hd.2.1, hd.2.2]
    by_cases h : x = ctx ∧ lineAddr va = vline ∧ held' = held
    · obtain ⟨rfl, rfl, rfl⟩ := h
      have hh : held = if s.regionOpen w.team = true then some w.team else none := rfl
      simp only [and_self, if_true, ← hh, Option.bind_some, Line.byte, Line.write]
      rw [foldl_assocSet, hl1.2.2.2, hl0.2.2.2]
      rfl
    · rw [if_neg (by intro h'; exact h ⟨h'.1.symm, h'.2.1.symm, h'.2.2.symm⟩), if_neg h]

theorem l1Write_congr (s : State) (core ctx vline pline : Nat) (e : Option (BitVec 64)) (bs : List (Nat × MByte)) (w w' : Wave) (front : Bool)
    (ht : w.team = w'.team) (hu : w.uid = w'.uid) : s.l1Write core ctx vline pline e bs w front = s.l1Write core ctx vline pline e bs w' front := by
  unfold State.l1Write; rw [ht, hu]

/-- With no release store held back a store writes all its bytes itself. -/
theorem overRelease_none (s : State) (k : WaveKey) (op pline : Nat) (bs : List (Nat × MByte)) (h : ∀ q ∈ s.net, q.key = k → s.heldBack q = false) :
    s.overRelease k op pline bs = (s, bs) := by
  unfold State.overRelease
  rw [List.filter_eq_nil_iff.2]
  · rfl
  · intro q hq hh
    simp only [Bool.and_eq_true, decide_eq_true_eq] at hh
    rw [h q hq hh.1.1] at hh
    exact absurd hh.2 (by simp)

/-- A line of a store into an L1 with room for it. -/
theorem storeL1_spec (s : State) (k : WaveKey) (op vline pline : Nat) (e : Option (BitVec 64)) (bs : List (Nat × MByte)) (front : Bool)
    (hr : (s.core k.core).l1.length + 1 ≤ (s.core k.core).l1Cap)
    (hb : s.regionOpen (s.wave k).team = true ∨ ∀ q ∈ s.net, q.key = k → s.heldBack q = false) :
    ∃ cores, s.storeL1 k op vline pline e bs front = { s with cores := cores } ∧ (∀ c, c ≠ k.core → assocGet cores c = assocGet s.cores c) ∧
      (({ s with cores := cores } : State).core k.core).l1.length ≤ (s.core k.core).l1.length + 1 ∧
      (({ s with cores := cores } : State).core k.core).l1Cap = (s.core k.core).l1Cap ∧
      ∀ x va held, (({ s with cores := cores } : State).core k.core).byteIn x va held =
        if x = (s.wave k).ctx ∧ lineAddr va = vline ∧ held = (if s.regionOpen (s.wave k).team then some (s.wave k).team else none) then
          match assocGet bs.reverse (va % 128) with
          | some m => some ⟨m.val, m.pois, true, [(s.wave k).uid]⟩
          | none => (s.core k.core).byteIn x va held
        else (s.core k.core).byteIn x va held := by
  have hrel : (if s.regionOpen (s.wave k).team then (s, bs) else s.overRelease k op pline bs) = (s, bs) := by
    rcases hb with hb | hb
    · rw [if_pos hb]
    · rw [overRelease_none s k op pline bs hb, ite_self]
  unfold State.storeL1
  dsimp only
  rw [hrel]
  dsimp only
  split
  · rename_i he
    rw [List.isEmpty_iff] at he
    subst he
    exact ⟨s.cores, rfl, fun _ _ => rfl, Nat.le_succ _, rfl, fun x va held => by simp [assocGet]⟩
  · obtain ⟨c, h1, h2, h3, h4⟩ := l1Write_spec s k.core (s.wave k).ctx vline pline e bs (s.wave k) front hr
    have hc : (s.setCore k.core c).core k.core = c := by simp
    exact ⟨_, h1, fun c' hc' => by simp [hc'], by show ((s.setCore k.core c).core k.core).l1.length ≤ _; rw [hc]; exact h2,
      by show ((s.setCore k.core c).core k.core).l1Cap = _; rw [hc]; exact h3, fun x va held => by
        show ((s.setCore k.core c).core k.core).byteIn x va held = _; rw [hc]; exact h4 x va held⟩

/-- The lines of a store into an L1 with room for them. -/
theorem storeFold_spec (k : WaveKey) (op : Nat) (front : Bool) (pl : State → Nat → Nat) (en : Nat → Option (BitVec 64))
    (bs : Nat → List (Nat × MByte)) (L : List Nat) (hn : L.Nodup) (s : State) (hr : (s.core k.core).l1.length + L.length ≤ (s.core k.core).l1Cap)
    (hb : s.regionOpen (s.wave k).team = true ∨ ∀ q ∈ s.net, q.key = k → s.heldBack q = false) :
    ∃ cores, L.foldl (fun s v => s.storeL1 k op v (pl s v) (en v) (bs v) front) s = { s with cores := cores } ∧
      (∀ c, c ≠ k.core → assocGet cores c = assocGet s.cores c) ∧
      ∀ x va held, ((({ s with cores := cores } : State)).core k.core).byteIn x va held =
        if x = (s.wave k).ctx ∧ lineAddr va ∈ L ∧ held = (if s.regionOpen (s.wave k).team then some (s.wave k).team else none) then
          match assocGet (bs (lineAddr va)).reverse (va % 128) with
          | some m => some ⟨m.val, m.pois, true, [(s.wave k).uid]⟩
          | none => (s.core k.core).byteIn x va held
        else (s.core k.core).byteIn x va held := by
  induction L generalizing s with
  | nil => exact ⟨s.cores, rfl, fun _ _ => rfl, fun x va held => by simp⟩
  | cons v t ih =>
    simp only [List.foldl_cons]
    simp only [List.length_cons] at hr
    obtain ⟨c1, h1, h2, h3, h4, h5⟩ := storeL1_spec s k op v (pl s v) (en v) (bs v) front (by omega) hb
    rw [h1]
    obtain ⟨cores, g1, g2, g3⟩ := ih (List.nodup_cons.1 hn).2 ({ s with cores := c1 } : State) (by rw [h4]; omega) hb
    refine ⟨cores, g1, fun c' hc' => (g2 c' hc').trans (h2 c' hc'), fun x va held => ?_⟩
    refine (g3 x va held).trans ?_
    rw [h5]
    have hv := (List.nodup_cons.1 hn).1
    have e1 : ({ s with cores := c1 } : State).wave k = s.wave k := rfl
    have e2 : ({ s with cores := c1 } : State).regionOpen (s.wave k).team = s.regionOpen (s.wave k).team := rfl
    rw [e1, e2]
    by_cases ht : lineAddr va ∈ t
    · have hne : lineAddr va ≠ v := fun h => hv (h ▸ ht)
      simp [ht, hne]
    · by_cases hva : lineAddr va = v
      · simp [ht, hva, hv]
      · simp [ht, hva]

theorem assocGet_lineBytes (ws : List (Nat × MByte)) (va : Nat) :
    assocGet (lineBytes (lineAddr va) ws).reverse (va % 128) = assocGet ws.reverse va := by
  unfold lineBytes
  rw [← List.map_reverse, ← List.filter_reverse]
  generalize ws.reverse = l
  induction l with
  | nil => rfl
  | cons p t ih =>
    obtain ⟨a, m⟩ := p
    by_cases h : lineAddr a = lineAddr va
    · by_cases h2 : a = va
      · subst h2; simp [assocGet]
      · have : a % 128 ≠ va % 128 := by unfold lineAddr at h; omega
        simp [h, assocGet, h2, this, ih]
    · have h2 : a ≠ va := fun e => h (by rw [e])
      simp [h, assocGet, h2, ih]

theorem assocGet_none_of {ws : List (Nat × MByte)} {va : Nat} (h : lineAddr va ∉ (ws.map (fun b => lineAddr b.1)).dedup) : assocGet ws.reverse va = none := by
  rw [List.mem_dedup] at h
  have : ∀ l : List (Nat × MByte), (∀ p ∈ l, p ∈ ws) → assocGet l va = none := by
    intro l
    induction l with
    | nil => intro _; rfl
    | cons p t ih =>
      intro hl
      obtain ⟨a, m⟩ := p
      have ha : a ≠ va := by
        intro e; apply h; rw [← e]
        exact List.mem_map.2 ⟨(a, m), hl _ (List.mem_cons_self ..), rfl⟩
      simp [assocGet, ha, ih (fun p hp => hl p (List.mem_cons_of_mem _ hp))]
  exact this _ (fun p hp => List.mem_reverse.1 hp)

theorem storedLines (lanes : List (Fin 32 × List Nat)) (data : Fin 32 → List MByte) :
    ((storedBytes lanes data).map (fun b => lineAddr b.1)).dedup.length ≤ (linesOf lanes).length := by
  apply List.Subperm.length_le
  apply List.Nodup.subperm (List.nodup_dedup _)
  intro v hv
  rw [List.mem_dedup] at hv
  obtain ⟨b, hb, rfl⟩ := List.mem_map.1 hv
  unfold storedBytes at hb
  obtain ⟨l, hl, hb⟩ := List.mem_flatMap.1 hb
  exact (mem_linesOf _ _).2 ⟨l, hl, b.1, (List.of_mem_zip hb).1, rfl⟩

theorem foldl_ext {α β : Type} (f g : α → β → α) (l : List β) (P : α → Prop) (hP : ∀ a b, P a → P (g a b)) (h : ∀ a, P a → ∀ b ∈ l, f a b = g a b) (a : α) (ha : P a) :
    l.foldl f a = l.foldl g a := by
  induction l generalizing a with
  | nil => rfl
  | cons b t ih =>
    simp only [List.foldl_cons]
    rw [h a ha b (List.mem_cons_self ..)]
    exact ih (fun a ha b hb => h a ha b (List.mem_cons_of_mem _ hb)) _ (hP a b ha)

theorem settle_moveTo (w : Wave) (c : Machine.Class) (m : LaneMask) (pc : Word) : (w.settle c).moveTo m pc = (w.moveTo m pc).settle c := by
  simp only [Wave.settle, Wave.moveTo, Wave.mapLanes]

theorem finish_moveTo (w : Wave) (id : Nat) (f : Option Failure) (m : LaneMask) (pc : Word) : (w.finish id f).moveTo m pc = (w.moveTo m pc).finish id f := by
  have hops : (w.moveTo m pc).ops = w.ops := by simp only [Wave.moveTo, Wave.mapLanes]
  have : (w.moveTo m pc).op id = w.op id := by unfold Wave.op; rw [hops]
  unfold Wave.finish
  rw [this]
  cases w.op id with
  | none => rfl
  | some o => dsimp only; rw [settle_moveTo]; simp only [Wave.moveTo, Wave.mapLanes, Wave.setOp]

/-- An operation that is no release store holds no write back. -/
theorem heldBack_issueOp (s : State) (cls : Machine.Class) (kind : OpKind) (h : Op.heldBack ⟨s.nextId, cls, s.sel.pc, s.sel.mask, kind, false, none, s.clock⟩ = false)
    (q : Request) (hq : s.heldBack q = false) : (s.issueOp cls kind).heldBack q = false := by
  obtain ⟨k, -, -, -, hc⟩ := issueOp_spec s cls kind
  unfold State.heldBack at hq ⊢
  by_cases hs : q.spot = .outside
  · simp only [hs, decide_true, Bool.true_and] at hq ⊢
    by_cases hk : q.key = s.sel.key
    · have hw : (s.issueOp cls kind).wave q.key = (s.issueOp cls kind).cur := by unfold State.cur; rw [hk, k.near.sel]
      have hw2 : s.wave q.key = s.cur := by unfold State.cur; rw [hk]
      rw [hw2] at hq
      rw [hw, hc]
      unfold Wave.op at hq ⊢
      rw [List.find?_append]
      cases hf : s.cur.ops.find? (fun o => decide (o.id = q.op)) with
      | some o => rw [hf] at hq; simpa using hq
      | none =>
        simp only [Option.none_or, List.find?_cons, List.find?_nil]
        split
        · simpa using h
        · rfl
    · have hw : (s.issueOp cls kind).wave q.key = s.wave q.key := by
        unfold State.wave; rw [k.others q.key hk]
      rw [hw]; exact hq
  · simp [hs]

/-- Everything that a store into the L1 does. -/
theorem issueStore_spec (s : State) (ls : List LineX) (hint : BitVec 2) (accs : List LaneAcc) (lanes : List (Fin 32 × List Nat)) (data : Fin 32 → List MByte)
    (hacc : writesOf accs = storedBytes lanes data) (hr : s.l1Room lanes) (hi : s.idsRise)
    (hb : s.regionOpen s.cur.team = true ∨ s.noneHeldBack)
    (hh : s.regionOpen s.cur.team = true ∨ (hint ≠ 2#2 ∧ ∀ v ∈ linesOf lanes, mtypeOf ls v ≠ 1)) :
    ∃ t, s.issueStore ls hint accs = t ∧
      t = { s with waves := t.waves, cores := t.cores, nextId := t.nextId } ∧ Kept s t ∧
      t.cur = ({ s.cur with
        lanes := (s.cur.moveTo s.sel.mask s.sel.next).lanes
        ops := s.cur.ops ++ [(⟨s.nextId, .st, s.sel.pc, s.sel.mask, .store (hint = 2#2) (accs.map (fun a => { a with data := [] })), false, none, s.clock⟩ : Op)] } : Wave).finish s.nextId none ∧
      (∀ c, c ≠ s.sel.key.core → assocGet t.cores c = assocGet s.cores c) ∧
      ∀ x va held, (t.core s.sel.key.core).byteIn x va held =
        if x = s.cur.ctx ∧ held = s.heldOf then
          match assocGet (storedBytes lanes data).reverse va with
          | some m => some ⟨m.val, m.pois, true, [s.cur.uid]⟩
          | none => (s.core s.sel.key.core).byteIn x va held
        else (s.core s.sel.key.core).byteIn x va held := by
  obtain ⟨kind, hkind⟩ : ∃ kind, kind = OpKind.store (hint = 2#2) (accs.map (fun a => { a with data := [] })) := ⟨_, rfl⟩
  obtain ⟨k1, m1, x1, n1, c1⟩ := issueOp_spec s .st kind
  obtain ⟨S1, hS1⟩ : ∃ S1, S1 = s.issueOp .st kind := ⟨_, rfl⟩
  have e1 : S1 = { s with waves := S1.waves, nextId := s.nextId + 1 } := by rw [hS1]; rfl
  have hb1 : S1.regionOpen (S1.wave s.sel.key).team = true ∨ ∀ q ∈ S1.net, q.key = s.sel.key → S1.heldBack q = false := by
    rcases hb with hb | hb
    · left
      have : S1.wave s.sel.key = S1.cur := by unfold State.cur; rw [hS1, k1.near.sel]
      rw [this, hS1, c1]; unfold State.regionOpen; rw [k1.near.team]; exact hb
    · right
      intro q hq hk
      rw [hS1] at hq ⊢
      rw [n1] at hq
      exact heldBack_issueOp s .st kind (by subst hkind; rfl) q (hb q hq hk)
  rw [← hS1] at k1 m1 x1 n1 c1
  set L := ((storedBytes lanes data).map (fun b => lineAddr b.1)).dedup with hL
  have hcore1 : S1.core s.sel.key.core = s.core s.sel.key.core := by unfold State.core; rw [x1]
  have hw1 : S1.wave s.sel.key = S1.cur := by unfold State.cur; rw [k1.near.sel]
  obtain ⟨cores, f1, f2, f3⟩ := storeFold_spec s.sel.key s.nextId (decide (hint = 1#2)) (fun s' v => s'.plineOf s.sel.key.core s.cur.ctx s.cur.team ls v)
    (fun v => entryOf ls v) (fun v => lineBytes v (storedBytes lanes data)) L (List.nodup_dedup _) S1 (by
      rw [hcore1]; have := storedLines lanes data; rw [← hL] at this; unfold State.l1Room at hr; omega) hb1
  -- the fold of the meaning is that of storeL1
  have hfold : L.foldl (fun s' v =>
      let pline := s'.plineOf s.sel.key.core s.cur.ctx s.cur.team ls v
      let bs := lineBytes v (storedBytes lanes data)
      if !s.regionOpen s.cur.team && (hint = 2#2 || mtypeOf ls v = 1) then
        let s' := s'.writeBack s.sel.key.core s.cur.ctx v true
        let (s', bs) := s'.overRelease s.sel.key s.nextId pline bs
        if bs.isEmpty then s'
        else s'.send (.core s.sel.key.core) s.sel.key s.nextId s.cur.ctx v pline (.write (bs.map (fun b => (pline + b.1, b.2))) []) [] false
      else s'.storeL1 s.sel.key s.nextId v pline (entryOf ls v) bs (hint = 1#2)) S1 = { S1 with cores := cores } := by
    rw [← f1]
    apply foldl_ext _ _ _ (fun _ => True) (fun _ _ _ => trivial) _ _ trivial
    intro a _ v hv
    have hv' : v ∈ linesOf lanes := by
      rw [hL, List.mem_dedup] at hv
      obtain ⟨b, hb, rfl⟩ := List.mem_map.1 hv
      obtain ⟨l, hl, hb⟩ := List.mem_flatMap.1 hb
      exact (mem_linesOf _ _).2 ⟨l, hl, b.1, (List.of_mem_zip hb).1, rfl⟩
    have : (!s.regionOpen s.cur.team && (decide (hint = 2#2) || decide (mtypeOf ls v = 1))) = false := by
      rcases hh with hh | ⟨h1, h2⟩
      · simp [hh]
      · simp [h1, h2 v hv']
    simp only [this, Bool.false_eq_true, if_false]
  obtain ⟨S2, hS2⟩ : ∃ S2 : State, S2 = { S1 with cores := cores } := ⟨_, rfl⟩
  have k2 : Kept S1 S2 := by rw [hS2]; exact ⟨⟨_, _, _, _, _, rfl⟩, fun _ _ => rfl⟩
  have hw2 : S2.wave s.sel.key = S1.cur := by rw [← hw1, hS2]; rfl
  -- no trap for an overfull journal is due that was not
  obtain ⟨S3, hS3⟩ : ∃ S3, S3 = S2.overfullLanes s s.sel.key accs := ⟨_, rfl⟩
  have e3 : S3 = S2.setWave s.sel.key S1.cur := by
    rw [hS3]
    unfold State.overfullLanes
    dsimp only
    rw [modWave_eq, hw2]
    congr 1
    have hp : S1.cur.pend = (s.wave s.sel.key).pend := by rw [c1]; rfl
    have : (S1.cur.pend.map (fun p =>
        let m := lanesOnLine accs (lineAddr p.fail.addr.toNat)
        if (s.wave s.sel.key).pend.contains p || m = 0 || p.fail.cause ≠ causeRgnViolation then p
        else { p with fail := { p.fail with lanes := m, addr := BitVec.ofNat 64 (laneAddr accs m) } })) = S1.cur.pend := by
      conv_rhs => rw [← List.map_id S1.cur.pend]
      apply List.map_congr_left
      intro p hp'
      rw [hp] at hp'
      have : (s.wave s.sel.key).pend.contains p = true := by simpa using hp'
      dsimp only
      rw [this]
      rfl
    dsimp only at this
    rw [this]
  have k3 : Kept S2 S3 := by rw [e3]; exact .setCur _ _ (by rw [k2.near.sel, k1.near.sel]) _
  have c3 : S3.cur = S1.cur := by rw [e3]; exact cur_setWave _ _ _ (by rw [k2.near.sel, k1.near.sel])
  have hreq : (S3.opReqs s.sel.key s.nextId).isEmpty = true := by
    have : S3.net = s.net := by rw [e3, hS2]; exact n1
    unfold State.opReqs
    rw [this, List.isEmpty_iff, List.filter_eq_nil_iff]
    intro q hq h
    obtain ⟨h1, h2⟩ := hi.1 q hq
    simp only [Bool.and_eq_true, Bool.or_eq_true, decide_eq_true_eq, List.contains_iff_mem] at h
    rcases h.1 with ⟨-, h⟩ | h
    · omega
    · exact absurd (h2 _ h) (by simp)
  obtain ⟨S4, hS4⟩ : ∃ S4, S4 = S3.modCur (fun w => w.finish s.nextId none) := ⟨_, rfl⟩
  have k4 : Kept S3 S4 := by rw [hS4]; exact .setCur _ _ rfl _
  have c4 : S4.cur = S3.cur.finish s.nextId none := by rw [hS4]; exact cur_setWave _ _ _ rfl
  obtain ⟨k5, m5, x5, n5, c5⟩ := advance_spec S4
  have K := (((k1.trans k2).trans k3).trans k4).trans k5
  have hx : s.issueStore ls hint accs = S4.advance := by
    have : s.issueStore ls hint accs =
        (fun X : State => (fun Y : State => (if (Y.opReqs s.sel.key s.nextId).isEmpty then Y.modCur (fun w => w.finish s.nextId none) else Y).advance)
          (X.overfullLanes s s.sel.key accs))
        ((((writesOf accs).map (fun b => lineAddr b.1)).dedup).foldl (fun s' v =>
          let pline := s'.plineOf s.sel.key.core s.cur.ctx s.cur.team ls v
          let bs := lineBytes v (writesOf accs)
          if !s.regionOpen s.cur.team && (hint = 2#2 || mtypeOf ls v = 1) then
            let s' := s'.writeBack s.sel.key.core s.cur.ctx v true
            let (s', bs) := s'.overRelease s.sel.key s.nextId pline bs
            if bs.isEmpty then s'
            else s'.send (.core s.sel.key.core) s.sel.key s.nextId s.cur.ctx v pline (.write (bs.map (fun b => (pline + b.1, b.2))) []) [] false
          else s'.storeL1 s.sel.key s.nextId v pline (entryOf ls v) bs (hint = 1#2)) S1) := by rw [hS1, hkind]; rfl
    rw [this, hacc, ← hL, hfold, ← hS2]
    dsimp only
    rw [← hS3, if_pos hreq, ← hS4]
  refine ⟨_, hx, ?_, K, ?_, ?_, ?_⟩
  · rw [advance_eq, hS4, e3, hS2, e1]; rfl
  · have hsel := (((k1.trans k2).trans k3).trans k4).near.sel
    rw [c5, hsel, c4, c3, c1, finish_moveTo, hkind]; rfl
  · intro c hc
    rw [x5, hS4]
    show assocGet S3.cores c = _
    rw [e3]
    show assocGet S2.cores c = _
    rw [hS2]
    show assocGet cores c = _
    rw [f2 c hc, x1]
  · intro x va held
    have : S4.advance.core s.sel.key.core = (({ S1 with cores := cores } : State)).core s.sel.key.core := by
      unfold State.core; rw [x5, hS4]; show (assocGet S3.cores _).getD _ = _; rw [e3]; show (assocGet S2.cores _).getD _ = _; rw [hS2]
    rw [this, f3, hcore1, hw1, c1]
    have hreg : S1.regionOpen s.cur.team = s.regionOpen s.cur.team := by unfold State.regionOpen; rw [k1.near.team]
    dsimp only
    rw [hreg]
    by_cases h : x = s.cur.ctx ∧ held = s.heldOf
    · rw [if_pos h]
      by_cases hl : lineAddr va ∈ L
      · rw [if_pos ⟨h.1, hl, h.2⟩, assocGet_lineBytes]
      · rw [if_neg (fun h' => hl h'.2.1), assocGet_none_of hl]
    · rw [if_neg h, if_neg (fun h' => h ⟨h'.1, h'.2.2⟩)]

/-- The beginning of an access that goes through: its lines translated and marked, and what then holds. -/
theorem withLines_go (s s1 : State) (h1 : s1 = s ∨ s1 = s.setWave s.sel.key s.cur) (acc : Access) (bypass fab : Bool) (br : Nat)
    (lanes : List (Fin 32 × List Nat)) (dests : List Nat) (rd : Option Nat) (eff : State → List LineX → State) (hr : s.reaches lanes acc fab) :
    ∃ ls S2, s1.withLines acc bypass fab br lanes dests rd eff = .next (eff S2 ls) ∧ Kept s S2 ∧ Translated s lanes acc ls ∧
      (bypass = true → ∀ v ∈ linesOf lanes, lineX ls v = some (s.translate s.cur.ctx v acc)) ∧
      S2.cur = { s.cur with refused := [] } ∧ S2.nextId = s.nextId ∧ S2.cores = s.cores ∧ S2.net = s.net ∧ 
      S2 = { s with waves := S2.waves, mem := S2.mem } ∧
      ∀ t : State, t.mem = S2.mem → t.poisoned = s.poisoned → s.walked t lanes acc := by
  have k1 : Kept s s1 := by
    rcases h1 with h | h
    · rw [h]; exact .refl _
    · rw [h]; exact .setCur _ _ rfl _
  have hcur : s1.cur = s.cur := by
    rcases h1 with h | h
    · rw [h]
    · rw [h]; exact cur_setWave _ _ _ rfl
  have hmem : s1.mem = s.mem ∧ s1.nextId = s.nextId ∧ s1.cores = s.cores ∧ s1.net = s.net ∧ s1 = { s with waves := s1.waves } := by
    rcases h1 with h | h <;> rw [h] <;> exact ⟨rfl, rfl, rfl, rfl, rfl⟩
  have hxc : s1.localGib = s.localGib ∧ s1.contexts = s.contexts := by rcases h1 with h | h <;> rw [h] <;> exact ⟨rfl, rfl⟩
  have hxl : ∀ c va acc, s1.translate c va acc = s.translate c va acc := translate_congr s s1 hmem.1 hxc.1 hxc.2
  have hfabr : ∀ pa, s1.isFabric pa = s.isFabric pa := isFabric_congr s s1 hxc.1
  obtain ⟨ls, hp, hT, hby⟩ := prepLines_ok' s1 acc bypass fab br lanes (by
    intro l hl va hva; obtain ⟨pa, e, ea, h, h'⟩ := hr l hl va hva
    exact ⟨pa, e, ea, by rw [hcur, hxl]; exact h, by rw [hfabr]; exact h'⟩)
  have hT' : Translated s lanes acc ls := by
    intro l hl; have := hT l hl; rw [hcur, hxl] at this; exact this
  obtain ⟨m, hm, hw⟩ := marked_spec s s1 ⟨by rw [hcur], hmem.1, k1.near.poisoned⟩ lanes acc ls hT'
  obtain ⟨S2, hS2⟩ : ∃ S2, S2 = s1.marked ls acc := ⟨_, rfl⟩
  rw [← hS2] at hm
  have k2 : Kept s1 S2 := by
    rw [hm]
    have k : Kept s1 ({ s1 with mem := m } : State) := ⟨⟨s1.waves, s1.cores, m, s1.net, s1.nextId, rfl⟩, fun _ _ => rfl⟩
    exact k.trans (.setCur _ _ rfl _)
  refine ⟨ls, S2, ?_, k1.trans k2, hT', ?_, ?_, ?_, ?_, ?_, ?_, ?_⟩
  · unfold State.withLines; rw [hp, hS2]
  · intro hb v hv
    rw [hby hb v hv, hcur, hxl]
  · rw [hm, cur_setWave _ _ _ rfl, hcur]
  · rw [hm]; exact hmem.2.1
  · rw [hm]; exact hmem.2.2.1
  · rw [hm]; exact hmem.2.2.2.1
  · rw [hm, hmem.2.2.2.2]; rfl
  · intro t ht hp; exact hw t (by rw [ht, hm]; rfl) hp

/-- A store into the L1 over its lines, from the effect that issues it. -/
theorem storesL1_of (s s1 : State) (h1 : s1 = s ∨ s1 = s.setWave s.sel.key s.cur) (i : Instr) (lanes : List (Fin 32 × List Nat)) (data : Fin 32 → List MByte)
    (bypass fab : Bool) (br : Nat) (hint : BitVec 2) (eff : State → List LineX → State)
    (heff : ∀ S ls, S.cur = { s.cur with refused := [] } → S.regionOpen s.cur.team = s.regionOpen s.cur.team →
      ∃ accs, eff S ls = S.issueStore ls hint accs ∧ writesOf accs = storedBytes lanes data ∧ accsOf accs lanes)
    (he : exec i s = s1.withLines .write bypass fab br lanes [] none eff) (hr : s.reaches lanes .write fab)
    (hroom : s.l1Room lanes) (hi : s.idsRise) (hb : s.regionOpen s.cur.team = true ∨ s.noneHeldBack)
    (hh : s.regionOpen s.cur.team = true ∨ (hint ≠ 2#2 ∧ ∀ l ∈ lanes, ∀ va ∈ l.2, s.plainPage va .write)) :
    s.storesL1 i lanes data (hint = 2#2) := by
  obtain ⟨ls, S2, hx, k2, hT, -, c2, n2, x2, net2, e2, hw⟩ := withLines_go s s1 h1 .write bypass fab br lanes [] none eff hr
  have hsel := k2.near.sel
  have hreg : S2.regionOpen s.cur.team = s.regionOpen s.cur.team := by unfold State.regionOpen; rw [k2.near.team]
  have hcore : ∀ c, S2.core c = s.core c := fun c => by unfold State.core; rw [x2]
  obtain ⟨accs, ha1, ha2, ha3⟩ := heff S2 ls c2 hreg
  rw [ha1] at hx
  have hheld : S2.heldOf = s.heldOf := by
    unfold State.heldOf; rw [c2]; dsimp only; rw [hreg]
  obtain ⟨t, ht, e3, k3, c3, x3, b3⟩ := issueStore_spec S2 ls hint accs lanes data ha2 (by unfold State.l1Room; rw [hsel, hcore]; exact hroom)
    ⟨by intro q hq; rw [net2] at hq; rw [n2]; exact hi.1 q hq, by rw [c2, n2]; exact hi.2⟩ (by
      rw [c2]; dsimp only; rw [hreg]
      rcases hb with hb | hb
      · exact .inl hb
      · refine .inr (fun q hq hk => ?_)
        rw [net2] at hq; rw [hsel] at hk
        have h := hb q hq hk
        have hops : (S2.wave q.key).ops = (s.wave q.key).ops := by
          have h1 : S2.cur.ops = s.cur.ops := by rw [c2]
          unfold State.cur at h1; rw [hsel] at h1; rw [hk]; exact h1
        unfold State.heldBack Wave.op at h ⊢; rw [hops]; exact h) (by
      rw [c2]; dsimp only; rw [hreg]
      rcases hh with hh | ⟨h1, h2⟩
      · exact .inl hh
      · right; refine ⟨h1, fun v hv => ?_⟩
        obtain ⟨l, hl, va, hva, rfl⟩ := (mem_linesOf _ _).1 hv
        unfold mtypeOf entryOf
        have hll : lineAddr (lineAddr va) = lineAddr va := by unfold lineAddr; omega
        rcases lineX_translated hT (lineAddr va) with h0 | ⟨-, h0⟩
        · simp [h0]
        · rw [h0, hll]
          cases hx2 : s.translate s.cur.ctx (lineAddr va) .write with
          | ok pa e ea => simpa using (h2 l hl va hva pa e ea hx2).2.2
          | fault a b c => simp
          | noPage l => simp
          | migrating l => simp)
  rw [ht] at hx
  have K := k2.trans k3
  refine ⟨t, by rw [he]; exact hx, ?_, ?_, K.others, ?_, ?_, ?_, ?_⟩
  · have : t = { s with waves := t.waves, cores := t.cores, mem := t.mem, nextId := t.nextId } := by
      obtain ⟨w, c, m, n, i, h⟩ := K.near
      have hn : t.net = s.net := by rw [e3]; exact net2
      rw [h] at hn ⊢
      simp only at hn
      rw [hn]
    exact this
  · refine ⟨accs.map (fun a => { a with data := [] }), ?_, ?_⟩
    · unfold accsOf at ha3 ⊢; rw [List.map_map]; exact ha3
    · rw [c3, c2, hsel, n2, k2.near.clock]; rfl
  · exact hw t (by rw [e3]) K.near.poisoned
  · intro c hc; rw [x3 c (by rw [hsel]; exact hc), x2]
  · intro va
    have := b3 s.cur.ctx va s.heldOf
    rw [hsel, c2, hheld, hcore] at this
    rw [this, if_pos ⟨rfl, rfl⟩] <;> rfl
  · intro x va held h
    have := b3 x va held
    rw [hsel, c2, hheld, hcore] at this
    rw [this, if_neg h]

/-! ### Requests sent for lines that the L1 does not hold -/

theorem writeBack_none (s : State) (core ctx vline : Nat) (drop : Bool) (h : (s.core core).line ctx vline none = none) : s.writeBack core ctx vline drop = s := by
  unfold State.writeBack; rw [h]

/-- Requests sent for a list of lines, none of them in the L1: each of them is there afterwards, and those that were there still stand. -/
theorem sendFold_spec {α : Type} (b : NetAgent) (k : WaveKey) (op ctx : Nat) (line : α → Nat) (pl : State → α → Nat) (kind : State → α → ReqKind) (L : List α)
    (s : State) (hl : ∀ x ∈ L, (s.core k.core).line ctx (line x) none = none)
    (hp : ∀ s' n i, s' = { s with net := n, nextId := i } → ∀ x ∈ L, pl s' x = pl s x ∧ kind s' x = kind s x) :
    ∃ n i, L.foldl (fun s x => (s.writeBack k.core ctx (line x) true).send b k op ctx (line x) (pl s x) (kind s x) [] false) s =
        { s with net := n, nextId := i } ∧ AllStand s.net n ∧
      ∀ x ∈ L, ∃ q ∈ n, q.key = k ∧ q.op = op ∧ q.vline = line x ∧ q.pline = pl s x ∧ q.kind = kind s x := by
  induction L generalizing s with
  | nil => exact ⟨s.net, s.nextId, rfl, .refl _, by simp⟩
  | cons x t ih =>
    simp only [List.foldl_cons]
    rw [writeBack_none _ _ _ _ _ (hl x (List.mem_cons_self ..))]
    obtain ⟨n1, q, h1, a1, hq, g1, g2, g3, g4, g5, -⟩ := send_spec s b k op ctx (line x) (pl s x) (kind s x) [] false
    rw [h1]
    obtain ⟨n', i', e1, a2, e3⟩ := ih ({ s with net := n1, nextId := s.nextId + 1 })
      (fun y hy => hl y (List.mem_cons_of_mem _ hy))
      (by
        rintro s' n' i' rfl y hy
        have a := hp ({ s with net := n', nextId := i' }) n' i' rfl y (List.mem_cons_of_mem _ hy)
        have b := hp ({ s with net := n1, nextId := s.nextId + 1 }) _ _ rfl y (List.mem_cons_of_mem _ hy)
        exact ⟨a.1.trans b.1.symm, a.2.trans b.2.symm⟩)
    refine ⟨n', i', e1, a1.trans a2, fun y hy => ?_⟩
    rcases List.mem_cons.1 hy with rfl | hy
    · obtain ⟨q', hq', st⟩ := a2 q hq
      exact ⟨q', hq', st.1.trans g1, st.2.1.trans g2, st.2.2.1.trans g3, st.2.2.2.1.trans g4, st.2.2.2.2.1.trans g5⟩
    · obtain ⟨q', hq', h⟩ := e3 y hy
      have b := hp ({ s with net := n1, nextId := s.nextId + 1 }) _ _ rfl y (List.mem_cons_of_mem _ hy)
      rw [b.1, b.2] at h
      exact ⟨q', hq', h⟩

end Sys2Proof.Laws
end

