-- ==== Sys2Proof/Laws/PerInstr.lean ====
section
/-! SUPPORT. The shape of every instruction's words, one lemma for each constructor: an instruction word has its opcode in [31:24], below the
reserved ones, and takes one word more exactly where it takes a literal; an event has no word. -/

namespace Sys2Proof.Laws.WordShape

/-- The shape of an instruction's words (R59, R60, R73). -/
def Statement (i : Instr) : Prop :=
  (i.opcode = none → encode i = [] ∧ i.takesLit = false) ∧
  ∀ op, i.opcode = some op → op.toNat < 0xCA ∧ (encode i).head? = some (op ++ i.body) ∧ (encodeBytes i).length = i.size

theorem of_opcode (i : Instr) (op : BitVec 8) (h : i.opcode = some op) (hop : op.toNat < 0xCA) : Statement i := by
  refine ⟨fun h' => by simp [h] at h', fun o ho => ?_⟩
  have e : op = o := by rw [h] at ho; exact Option.some.inj ho
  subst e
  refine ⟨hop, ?_, ?_⟩
  · simp [encode, h]
  · cases hl : i.takesLit <;> simp [encodeBytes, encode, h, hl, wordBytes, Instr.size]

theorem of_event (i : Instr) (h : i.opcode = none) (hl : i.takesLit = false) : Statement i :=
  ⟨fun _ => ⟨by simp [encode, h], hl⟩, fun op ho => by simp [h] at ho⟩

theorem nop (f : V3) : Statement (.nop f) := of_opcode _ 0x00 rfl (by decide)
theorem mov (f : V3) : Statement (.mov f) := of_opcode _ 0x01 rfl (by decide)
theorem movi (f : VI) : Statement (.movi f) := of_opcode _ 0x02 rfl (by decide)
theorem bcast (f : VI) : Statement (.bcast f) := of_opcode _ 0x03 rfl (by decide)
theorem sel (f : V3) : Statement (.sel f) := of_opcode _ 0x04 rfl (by decide)
theorem perm (f : V4) : Statement (.perm f) := of_opcode _ 0x05 rfl (by decide)
theorem iadd (f : V3) : Statement (.iadd f) := of_opcode _ 0x06 rfl (by decide)
theorem isub (f : V3) : Statement (.isub f) := of_opcode _ 0x07 rfl (by decide)
theorem iaddi (f : VI) : Statement (.iaddi f) := of_opcode _ 0x08 rfl (by decide)
theorem imul (f : V3) : Statement (.imul f) := of_opcode _ 0x09 rfl (by decide)
theorem imulhs (f : V3) : Statement (.imulhs f) := of_opcode _ 0x0A rfl (by decide)
theorem imulhu (f : V3) : Statement (.imulhu f) := of_opcode _ 0x0B rfl (by decide)
theorem imad (f : V4) : Statement (.imad f) := of_opcode _ 0x0C rfl (by decide)
theorem imulws (f : V3) : Statement (.imulws f) := of_opcode _ 0x0D rfl (by decide)
theorem imulwu (f : V3) : Statement (.imulwu f) := of_opcode _ 0x0E rfl (by decide)
theorem iadd64 (f : V3) : Statement (.iadd64 f) := of_opcode _ 0x0F rfl (by decide)
theorem isub64 (f : V3) : Statement (.isub64 f) := of_opcode _ 0x10 rfl (by decide)
theorem imin (f : V3) : Statement (.imin f) := of_opcode _ 0x11 rfl (by decide)
theorem imax (f : V3) : Statement (.imax f) := of_opcode _ 0x12 rfl (by decide)
theorem umin (f : V3) : Statement (.umin f) := of_opcode _ 0x13 rfl (by decide)
theorem umax (f : V3) : Statement (.umax f) := of_opcode _ 0x14 rfl (by decide)
theorem iabs (f : V3) : Statement (.iabs f) := of_opcode _ 0x15 rfl (by decide)
theorem and (f : V3) : Statement (.and f) := of_opcode _ 0x16 rfl (by decide)
theorem or (f : V3) : Statement (.or f) := of_opcode _ 0x17 rfl (by decide)
theorem xor (f : V3) : Statement (.xor f) := of_opcode _ 0x18 rfl (by decide)
theorem andn (f : V3) : Statement (.andn f) := of_opcode _ 0x19 rfl (by decide)
theorem andi (f : VI) : Statement (.andi f) := of_opcode _ 0x1A rfl (by decide)
theorem ori (f : VI) : Statement (.ori f) := of_opcode _ 0x1B rfl (by decide)
theorem xori (f : VI) : Statement (.xori f) := of_opcode _ 0x1C rfl (by decide)
theorem shl (f : V3) : Statement (.shl f) := of_opcode _ 0x1D rfl (by decide)
theorem shr (f : V3) : Statement (.shr f) := of_opcode _ 0x1E rfl (by decide)
theorem sar (f : V3) : Statement (.sar f) := of_opcode _ 0x1F rfl (by decide)
theorem shli (f : VI) : Statement (.shli f) := of_opcode _ 0x20 rfl (by decide)
theorem shri (f : VI) : Statement (.shri f) := of_opcode _ 0x21 rfl (by decide)
theorem sari (f : VI) : Statement (.sari f) := of_opcode _ 0x22 rfl (by decide)
theorem shf (f : V4) : Statement (.shf f) := of_opcode _ 0x23 rfl (by decide)
theorem bfeu (f : V4) : Statement (.bfeu f) := of_opcode _ 0x24 rfl (by decide)
theorem bfes (f : V4) : Statement (.bfes f) := of_opcode _ 0x25 rfl (by decide)
theorem bfi (f : V4) : Statement (.bfi f) := of_opcode _ 0x26 rfl (by decide)
theorem bit (f : VX) : Statement (.bit f) := of_opcode _ 0x27 rfl (by decide)
theorem icmp (f : VC) : Statement (.icmp f) := of_opcode _ 0x28 rfl (by decide)
theorem icmp64 (f : VC) : Statement (.icmp64 f) := of_opcode _ 0x29 rfl (by decide)
theorem fcmp (f : VC) : Statement (.fcmp f) := of_opcode _ 0x2A rfl (by decide)
theorem dcmp (f : VC) : Statement (.dcmp f) := of_opcode _ 0x2B rfl (by decide)
theorem plog (f : VP) : Statement (.plog f) := of_opcode _ 0x2C rfl (by decide)
theorem pmov (f : VX) : Statement (.pmov f) := of_opcode _ 0x2D rfl (by decide)
theorem fadd (f : V3) : Statement (.fadd f) := of_opcode _ 0x2E rfl (by decide)
theorem fsub (f : V3) : Statement (.fsub f) := of_opcode _ 0x2F rfl (by decide)
theorem fmul (f : V3) : Statement (.fmul f) := of_opcode _ 0x30 rfl (by decide)
theorem ffma (f : V4) : Statement (.ffma f) := of_opcode _ 0x31 rfl (by decide)
theorem fmin (f : V3) : Statement (.fmin f) := of_opcode _ 0x32 rfl (by decide)
theorem fmax (f : V3) : Statement (.fmax f) := of_opcode _ 0x33 rfl (by decide)
theorem fminn (f : V3) : Statement (.fminn f) := of_opcode _ 0x34 rfl (by decide)
theorem fmaxn (f : V3) : Statement (.fmaxn f) := of_opcode _ 0x35 rfl (by decide)
theorem fsgn (f : VX) : Statement (.fsgn f) := of_opcode _ 0x36 rfl (by decide)
theorem fdiv (f : V3) : Statement (.fdiv f) := of_opcode _ 0x37 rfl (by decide)
theorem fsqrt (f : V3) : Statement (.fsqrt f) := of_opcode _ 0x38 rfl (by decide)
theorem fsfu (f : VX) : Statement (.fsfu f) := of_opcode _ 0x39 rfl (by decide)
theorem frnd (f : VX) : Statement (.frnd f) := of_opcode _ 0x3A rfl (by decide)
theorem dadd (f : V3) : Statement (.dadd f) := of_opcode _ 0x3B rfl (by decide)
theorem dsub (f : V3) : Statement (.dsub f) := of_opcode _ 0x3C rfl (by decide)
theorem dmul (f : V3) : Statement (.dmul f) := of_opcode _ 0x3D rfl (by decide)
theorem dfma (f : V4) : Statement (.dfma f) := of_opcode _ 0x3E rfl (by decide)
theorem dmin (f : V3) : Statement (.dmin f) := of_opcode _ 0x3F rfl (by decide)
theorem dmax (f : V3) : Statement (.dmax f) := of_opcode _ 0x40 rfl (by decide)
theorem ddiv (f : V3) : Statement (.ddiv f) := of_opcode _ 0x41 rfl (by decide)
theorem dsqrt (f : V3) : Statement (.dsqrt f) := of_opcode _ 0x42 rfl (by decide)
theorem dsfu (f : VX) : Statement (.dsfu f) := of_opcode _ 0x43 rfl (by decide)
theorem hadd2 (f : V3) : Statement (.hadd2 f) := of_opcode _ 0x44 rfl (by decide)
theorem hmul2 (f : V3) : Statement (.hmul2 f) := of_opcode _ 0x45 rfl (by decide)
theorem hfma2 (f : V4) : Statement (.hfma2 f) := of_opcode _ 0x46 rfl (by decide)
theorem hmnx2 (f : VX) : Statement (.hmnx2 f) := of_opcode _ 0x47 rfl (by decide)
theorem badd2 (f : V3) : Statement (.badd2 f) := of_opcode _ 0x48 rfl (by decide)
theorem bmul2 (f : V3) : Statement (.bmul2 f) := of_opcode _ 0x49 rfl (by decide)
theorem bfma2 (f : V4) : Statement (.bfma2 f) := of_opcode _ 0x4A rfl (by decide)
theorem cvt (f : VX) : Statement (.cvt f) := of_opcode _ 0x4B rfl (by decide)
theorem ncvt (f : VX) : Statement (.ncvt f) := of_opcode _ 0x4C rfl (by decide)
theorem regrp (f : VX) : Statement (.regrp f) := of_opcode _ 0x4D rfl (by decide)
theorem bra (f : VB) : Statement (.bra f) := of_opcode _ 0x4E rfl (by decide)
theorem call (f : VB) : Statement (.call f) := of_opcode _ 0x4F rfl (by decide)
theorem brx (f : V3) : Statement (.brx f) := of_opcode _ 0x50 rfl (by decide)
theorem callx (f : V3) : Statement (.callx f) := of_opcode _ 0x51 rfl (by decide)
theorem ret (f : V3) : Statement (.ret f) := of_opcode _ 0x52 rfl (by decide)
theorem exit (f : V3) : Statement (.exit f) := of_opcode _ 0x53 rfl (by decide)
theorem trap (f : VI) : Statement (.trap f) := of_opcode _ 0x54 rfl (by decide)
theorem bkpt (f : V3) : Statement (.bkpt f) := of_opcode _ 0x55 rfl (by decide)
theorem vote (f : VX) : Statement (.vote f) := of_opcode _ 0x56 rfl (by decide)
theorem shfl (f : VX) : Statement (.shfl f) := of_opcode _ 0x57 rfl (by decide)
theorem wred (f : VX) : Statement (.wred f) := of_opcode _ 0x58 rfl (by decide)
theorem wscan (f : VX) : Statement (.wscan f) := of_opcode _ 0x59 rfl (by decide)
theorem wargx (f : VX) : Statement (.wargx f) := of_opcode _ 0x5A rfl (by decide)
theorem matchEq (f : V3) : Statement (.matchEq f) := of_opcode _ 0x5B rfl (by decide)
theorem elect (f : VC) : Statement (.elect f) := of_opcode _ 0x5C rfl (by decide)
theorem ldb (f : VM) : Statement (.ldb f) := of_opcode _ 0x5D rfl (by decide)
theorem ldbu (f : VM) : Statement (.ldbu f) := of_opcode _ 0x5E rfl (by decide)
theorem ldh (f : VM) : Statement (.ldh f) := of_opcode _ 0x5F rfl (by decide)
theorem ldhu (f : VM) : Statement (.ldhu f) := of_opcode _ 0x60 rfl (by decide)
theorem ldw (f : VM) : Statement (.ldw f) := of_opcode _ 0x61 rfl (by decide)
theorem ldd (f : VM) : Statement (.ldd f) := of_opcode _ 0x62 rfl (by decide)
theorem ldq (f : VM) : Statement (.ldq f) := of_opcode _ 0x63 rfl (by decide)
theorem stb (f : VM) : Statement (.stb f) := of_opcode _ 0x64 rfl (by decide)
theorem sth (f : VM) : Statement (.sth f) := of_opcode _ 0x65 rfl (by decide)
theorem stw (f : VM) : Statement (.stw f) := of_opcode _ 0x66 rfl (by decide)
theorem std (f : VM) : Statement (.std f) := of_opcode _ 0x67 rfl (by decide)
theorem stq (f : VM) : Statement (.stq f) := of_opcode _ 0x68 rfl (by decide)
theorem ldaq (f : VMA) : Statement (.ldaq f) := of_opcode _ 0x69 rfl (by decide)
theorem strl (f : VMA) : Statement (.strl f) := of_opcode _ 0x6A rfl (by decide)
theorem atom (f : VA) : Statement (.atom f) := of_opcode _ 0x6B rfl (by decide)
theorem atoms (f : VSA) : Statement (.atoms f) := of_opcode _ 0x6C rfl (by decide)
theorem ldsw (f : VI) : Statement (.ldsw f) := of_opcode _ 0x6D rfl (by decide)
theorem ldsd (f : VI) : Statement (.ldsd f) := of_opcode _ 0x6E rfl (by decide)
theorem ldsq (f : VI) : Statement (.ldsq f) := of_opcode _ 0x6F rfl (by decide)
theorem stsw (f : VI) : Statement (.stsw f) := of_opcode _ 0x70 rfl (by decide)
theorem stsd (f : VI) : Statement (.stsd f) := of_opcode _ 0x71 rfl (by decide)
theorem stsq (f : VI) : Statement (.stsq f) := of_opcode _ 0x72 rfl (by decide)
theorem stsr (f : VI) : Statement (.stsr f) := of_opcode _ 0x73 rfl (by decide)
theorem mmad (f : VT) : Statement (.mmad f) := of_opcode _ 0x74 rfl (by decide)
theorem mmas (f : VT) : Statement (.mmas f) := of_opcode _ 0x75 rfl (by decide)
theorem mmah (f : VT) : Statement (.mmah f) := of_opcode _ 0x76 rfl (by decide)
theorem mmab (f : VT) : Statement (.mmab f) := of_opcode _ 0x77 rfl (by decide)
theorem mman (f : VT) : Statement (.mman f) := of_opcode _ 0x78 rfl (by decide)
theorem mmaq (f : VT) : Statement (.mmaq f) := of_opcode _ 0x79 rfl (by decide)
theorem mmasp (f : VT) : Statement (.mmasp f) := of_opcode _ 0x7A rfl (by decide)
theorem accst (f : VT) : Statement (.accst f) := of_opcode _ 0x7B rfl (by decide)
theorem pxlock (f : V3) : Statement (.pxlock f) := of_opcode _ 0x7C rfl (by decide)
theorem pxexp (f : VX) : Statement (.pxexp f) := of_opcode _ 0x7D rfl (by decide)
theorem pxkill (f : V3) : Statement (.pxkill f) := of_opcode _ 0x7E rfl (by decide)
theorem pxrel (f : V3) : Statement (.pxrel f) := of_opcode _ 0x7F rfl (by decide)
theorem unop (f : U3) : Statement (.unop f) := of_opcode _ 0x80 rfl (by decide)
theorem umov (f : U3) : Statement (.umov f) := of_opcode _ 0x81 rfl (by decide)
theorem umovi (f : UW) : Statement (.umovi f) := of_opcode _ 0x82 rfl (by decide)
theorem uadd (f : U3) : Statement (.uadd f) := of_opcode _ 0x83 rfl (by decide)
theorem usub (f : U3) : Statement (.usub f) := of_opcode _ 0x84 rfl (by decide)
theorem uaddi (f : UI) : Statement (.uaddi f) := of_opcode _ 0x85 rfl (by decide)
theorem umul (f : U3) : Statement (.umul f) := of_opcode _ 0x86 rfl (by decide)
theorem umulhu (f : U3) : Statement (.umulhu f) := of_opcode _ 0x87 rfl (by decide)
theorem uadd64 (f : U3) : Statement (.uadd64 f) := of_opcode _ 0x88 rfl (by decide)
theorem usub64 (f : U3) : Statement (.usub64 f) := of_opcode _ 0x89 rfl (by decide)
theorem uminUniform (f : U3) : Statement (.uminUniform f) := of_opcode _ 0x8A rfl (by decide)
theorem umaxUniform (f : U3) : Statement (.umaxUniform f) := of_opcode _ 0x8B rfl (by decide)
theorem uminu (f : U3) : Statement (.uminu f) := of_opcode _ 0x8C rfl (by decide)
theorem umaxu (f : U3) : Statement (.umaxu f) := of_opcode _ 0x8D rfl (by decide)
theorem uand (f : U3) : Statement (.uand f) := of_opcode _ 0x8E rfl (by decide)
theorem uor (f : U3) : Statement (.uor f) := of_opcode _ 0x8F rfl (by decide)
theorem uxor (f : U3) : Statement (.uxor f) := of_opcode _ 0x90 rfl (by decide)
theorem uandi (f : UI) : Statement (.uandi f) := of_opcode _ 0x91 rfl (by decide)
theorem uori (f : UI) : Statement (.uori f) := of_opcode _ 0x92 rfl (by decide)
theorem ushl (f : U3) : Statement (.ushl f) := of_opcode _ 0x93 rfl (by decide)
theorem ushr (f : U3) : Statement (.ushr f) := of_opcode _ 0x94 rfl (by decide)
theorem usar (f : U3) : Statement (.usar f) := of_opcode _ 0x95 rfl (by decide)
theorem ushli (f : UI) : Statement (.ushli f) := of_opcode _ 0x96 rfl (by decide)
theorem ushri (f : UI) : Statement (.ushri f) := of_opcode _ 0x97 rfl (by decide)
theorem ubfe (f : UI) : Statement (.ubfe f) := of_opcode _ 0x98 rfl (by decide)
theorem ubit (f : UI) : Statement (.ubit f) := of_opcode _ 0x99 rfl (by decide)
theorem ucmp (f : UCC) : Statement (.ucmp f) := of_opcode _ 0x9A rfl (by decide)
theorem usel (f : U3) : Statement (.usel f) := of_opcode _ 0x9B rfl (by decide)
theorem qlog (f : VP) : Statement (.qlog f) := of_opcode _ 0x9C rfl (by decide)
theorem ufadd (f : U3) : Statement (.ufadd f) := of_opcode _ 0x9D rfl (by decide)
theorem ufmul (f : U3) : Statement (.ufmul f) := of_opcode _ 0x9E rfl (by decide)
theorem ucvt (f : UI) : Statement (.ucvt f) := of_opcode _ 0x9F rfl (by decide)
theorem ubra (f : VB) : Statement (.ubra f) := of_opcode _ 0xA0 rfl (by decide)
theorem ucall (f : VB) : Statement (.ucall f) := of_opcode _ 0xA1 rfl (by decide)
theorem ubrx (f : U3) : Statement (.ubrx f) := of_opcode _ 0xA2 rfl (by decide)
theorem uret (f : U3) : Statement (.uret f) := of_opcode _ 0xA3 rfl (by decide)
theorem uloop (f : UL) : Statement (.uloop f) := of_opcode _ 0xA4 rfl (by decide)
theorem rdlane (f : UI) : Statement (.rdlane f) := of_opcode _ 0xA5 rfl (by decide)
theorem actm (f : U3) : Statement (.actm f) := of_opcode _ 0xA6 rfl (by decide)
theorem sread (f : UI) : Statement (.sread f) := of_opcode _ 0xA7 rfl (by decide)
theorem swrite (f : UI) : Statement (.swrite f) := of_opcode _ 0xA8 rfl (by decide)
theorem fence (f : UF) : Statement (.fence f) := of_opcode _ 0xA9 rfl (by decide)
theorem wait (f : UK) : Statement (.wait f) := of_opcode _ 0xAA rfl (by decide)
theorem waitx (f : UK) : Statement (.waitx f) := of_opcode _ 0xAB rfl (by decide)
theorem barinit (f : U3) : Statement (.barinit f) := of_opcode _ 0xAC rfl (by decide)
theorem bararv (f : U3) : Statement (.bararv f) := of_opcode _ 0xAD rfl (by decide)
theorem barwt (f : U3) : Statement (.barwt f) := of_opcode _ 0xAE rfl (by decide)
theorem barsync (f : U3) : Statement (.barsync f) := of_opcode _ 0xAF rfl (by decide)
theorem gbarv (f : U3) : Statement (.gbarv f) := of_opcode _ 0xB0 rfl (by decide)
theorem gbwt (f : U3) : Statement (.gbwt f) := of_opcode _ 0xB1 rfl (by decide)
theorem gbset (f : U3) : Statement (.gbset f) := of_opcode _ 0xB2 rfl (by decide)
theorem racq (f : UR) : Statement (.racq f) := of_opcode _ 0xB3 rfl (by decide)
theorem rcmt (f : UR) : Statement (.rcmt f) := of_opcode _ 0xB4 rfl (by decide)
theorem rpeek (f : UR) : Statement (.rpeek f) := of_opcode _ 0xB5 rfl (by decide)
theorem rrel (f : UR) : Statement (.rrel f) := of_opcode _ 0xB6 rfl (by decide)
theorem tload (f : UC) : Statement (.tload f) := of_opcode _ 0xB7 rfl (by decide)
theorem tstore (f : UC) : Statement (.tstore f) := of_opcode _ 0xB8 rfl (by decide)
theorem tgath (f : UC) : Statement (.tgath f) := of_opcode _ 0xB9 rfl (by decide)
theorem tmcast (f : UC) : Statement (.tmcast f) := of_opcode _ 0xBA rfl (by decide)
theorem nmv (f : UC) : Statement (.nmv f) := of_opcode _ 0xBB rfl (by decide)
theorem rgnb (f : UC) : Statement (.rgnb f) := of_opcode _ 0xBC rfl (by decide)
theorem rgnc (f : U3) : Statement (.rgnc f) := of_opcode _ 0xBD rfl (by decide)
theorem rgna (f : U3) : Statement (.rgna f) := of_opcode _ 0xBE rfl (by decide)
theorem safept (f : UC) : Statement (.safept f) := of_opcode _ 0xBF rfl (by decide)
theorem free (f : U3) : Statement (.free f) := of_opcode _ 0xC0 rfl (by decide)
theorem yield (f : U3) : Statement (.yield f) := of_opcode _ 0xC1 rfl (by decide)
theorem ttake (f : UCC) : Statement (.ttake f) := of_opcode _ 0xC2 rfl (by decide)
theorem tspawn (f : UR) : Statement (.tspawn f) := of_opcode _ 0xC3 rfl (by decide)
theorem ttrig (f : U3) : Statement (.ttrig f) := of_opcode _ 0xC4 rfl (by decide)
theorem prim (f : UC) : Statement (.prim f) := of_opcode _ 0xC5 rfl (by decide)
theorem coll (f : UC) : Statement (.coll f) := of_opcode _ 0xC6 rfl (by decide)
theorem recld (f : UI) : Statement (.recld f) := of_opcode _ 0xC7 rfl (by decide)
theorem trapu (f : UI) : Statement (.trapu f) := of_opcode _ 0xC8 rfl (by decide)
theorem rtt (f : U3) : Statement (.rtt f) := of_opcode _ 0xC9 rfl (by decide)
theorem errinjWrite (w : WaveKey) (value : Word) : Statement (.errinjWrite w value) := of_event _ rfl rfl
theorem clockReadLatch (w : WaveKey) (time : Bool) (d : BitVec 6) : Statement (.clockReadLatch w time d) := of_event _ rfl rfl
theorem yieldExpiry (w : WaveKey) (lanes : LaneMask) : Statement (.yieldExpiry w lanes) := of_event _ rfl rfl
theorem addressMatchStop (w : WaveKey) (pc : Word) : Statement (.addressMatchStop w pc) := of_event _ rfl rfl
theorem loadDataArrival (w : WaveKey) (op : Nat) : Statement (.loadDataArrival w op) := of_event _ rfl rfl
theorem storeAcknowledge (w : WaveKey) (op : Nat) : Statement (.storeAcknowledge w op) := of_event _ rfl rfl
theorem waitComplete (w : WaveKey) (pc : Word) : Statement (.waitComplete w pc) := of_event _ rfl rfl
theorem fenceActionComplete (w : WaveKey) : Statement (.fenceActionComplete w) := of_event _ rfl rfl
theorem waveRetire (w : WaveKey) : Statement (.waveRetire w) := of_event _ rfl rfl
theorem rowGrant (core : Nat) : Statement (.rowGrant core) := of_event _ rfl rfl
theorem swapCandidacyTimeout (w : WaveKey) : Statement (.swapCandidacyTimeout w) := of_event _ rfl rfl
theorem swapOut (w : WaveKey) : Statement (.swapOut w) := of_event _ rfl rfl
theorem swapGranuleDrain (w : WaveKey) : Statement (.swapGranuleDrain w) := of_event _ rfl rfl
theorem swapRestore (w : WaveKey) : Statement (.swapRestore w) := of_event _ rfl rfl
theorem splitChange (core : Nat) : Statement (.splitChange core) := of_event _ rfl rfl
theorem rowRelocation (w : WaveKey) (name : Nat) : Statement (.rowRelocation w name) := of_event _ rfl rfl
theorem l1Eviction (core ctx line : Nat) : Statement (.l1Eviction core ctx line) := of_event _ rfl rfl
theorem teamAdmission (team core : Nat) : Statement (.teamAdmission team core) := of_event _ rfl rfl
theorem crewAdmission (crew cluster : Nat) : Statement (.crewAdmission crew cluster) := of_event _ rfl rfl
theorem crewReservation (crew die : Nat) : Statement (.crewReservation crew die) := of_event _ rfl rfl
theorem preemptRequest (team : Nat) : Statement (.preemptRequest team) := of_event _ rfl rfl
theorem forcedStop (w : WaveKey) : Statement (.forcedStop w) := of_event _ rfl rfl
theorem teamSave (team : Nat) : Statement (.teamSave team) := of_event _ rfl rfl
theorem teamRestore (crew cluster : Nat) : Statement (.teamRestore crew cluster) := of_event _ rfl rfl
theorem priorityPreemption : Statement (.priorityPreemption) := of_event _ rfl rfl
theorem thermalMigration (team : Nat) : Statement (.thermalMigration team) := of_event _ rfl rfl
theorem laneRetirement (core quarter phys : Nat) : Statement (.laneRetirement core quarter phys) := of_event _ rfl rfl
theorem replayPlacement (team : Nat) : Statement (.replayPlacement team) := of_event _ rfl rfl
theorem rendezvousComplete (team : Nat) : Statement (.rendezvousComplete team) := of_event _ rfl rfl
theorem rgncCompletion (team : Nat) : Statement (.rgncCompletion team) := of_event _ rfl rfl
theorem barTimeout (w : WaveKey) (pc : Word) : Statement (.barTimeout w pc) := of_event _ rfl rfl
theorem rendezvousTimeout (w : WaveKey) : Statement (.rendezvousTimeout w) := of_event _ rfl rfl
theorem groupBarrierTimeout (w : WaveKey) (pc : Word) : Statement (.groupBarrierTimeout w pc) := of_event _ rfl rfl
theorem ringRetry (w : WaveKey) (pc : Word) : Statement (.ringRetry w pc) := of_event _ rfl rfl
theorem ringTimeout (w : WaveKey) (pc : Word) : Statement (.ringTimeout w pc) := of_event _ rfl rfl
theorem armedMapUpdate (w : WaveKey) (core : Nat) : Statement (.armedMapUpdate w core) := of_event _ rfl rfl
theorem barinitRepliesDone (w : WaveKey) (pc : Word) : Statement (.barinitRepliesDone w pc) := of_event _ rfl rfl
theorem stsrPerform (w : WaveKey) (op : Nat) : Statement (.stsrPerform w op) := of_event _ rfl rfl
theorem ttrigMark (w : WaveKey) : Statement (.ttrigMark w) := of_event _ rfl rfl
theorem dependenceReevaluation : Statement (.dependenceReevaluation) := of_event _ rfl rfl
theorem taskSelect : Statement (.taskSelect) := of_event _ rfl rfl
theorem priorityAging (ctx qid : Nat) : Statement (.priorityAging ctx qid) := of_event _ rfl rfl
theorem rangeSplit (cluster : Nat) : Statement (.rangeSplit cluster) := of_event _ rfl rfl
theorem dispatcherAccessFault (ctx qid : Nat) (access : Nat) : Statement (.dispatcherAccessFault ctx qid access) := of_event _ rfl rfl
theorem l2Request (req : Nat) : Statement (.l2Request req) := of_event _ rfl rfl
theorem rdcFill (req : Nat) : Statement (.rdcFill req) := of_event _ rfl rfl
theorem deadlockProbeSend (die router port cls outRouter outPort : Nat) : Statement (.deadlockProbeSend die router port cls outRouter outPort) := of_event _ rfl rfl
theorem probeForward (die probe : Nat) (head : Option (Nat × Nat)) : Statement (.probeForward die probe head) := of_event _ rfl rfl
theorem recoveryToken (die token : Nat) : Statement (.recoveryToken die token) := of_event _ rfl rfl
theorem recoveryShift (die token : Nat) : Statement (.recoveryShift die token) := of_event _ rfl rfl
theorem linkReplay (die link : Nat) : Statement (.linkReplay die link) := of_event _ rfl rfl
theorem linkDead (die link : Nat) : Statement (.linkDead die link) := of_event _ rfl rfl
theorem requestTimeout (req : Nat) : Statement (.requestTimeout req) := of_event _ rfl rfl
theorem packetAgeDiscard (req die : Nat) : Statement (.packetAgeDiscard req die) := of_event _ rfl rfl
theorem staleReplyDrop (req die : Nat) : Statement (.staleReplyDrop req die) := of_event _ rfl rfl
theorem copyTransfer (w : WaveKey) (op : Nat) : Statement (.copyTransfer w op) := of_event _ rfl rfl
theorem copyArrival (w : WaveKey) (op : Nat) : Statement (.copyArrival w op) := of_event _ rfl rfl
theorem tmcastMemberDelivery (w : WaveKey) (op member : Nat) (linkDead : Bool) : Statement (.tmcastMemberDelivery w op member linkDead) := of_event _ rfl rfl
theorem cloveMissRead (w : WaveKey) (op : Nat) : Statement (.cloveMissRead w op) := of_event _ rfl rfl
theorem tileOpStart (w : WaveKey) (op : Nat) : Statement (.tileOpStart w op) := of_event _ rfl rfl
theorem tileOpComplete (w : WaveKey) (op : Nat) : Statement (.tileOpComplete w op) := of_event _ rfl rfl
theorem accstComplete (w : WaveKey) (op : Nat) : Statement (.accstComplete w op) := of_event _ rfl rfl
theorem nmvComplete (w : WaveKey) (op : Nat) : Statement (.nmvComplete w op) := of_event _ rfl rfl
theorem scoutBatchServiced (w : WaveKey) (answers : List PageAnswer) : Statement (.scoutBatchServiced w answers) := of_event _ rfl rfl
theorem migrationRetry (w : WaveKey) : Statement (.migrationRetry w) := of_event _ rfl rfl
theorem migrationTimeout (w : WaveKey) : Statement (.migrationTimeout w) := of_event _ rfl rfl
theorem invalidationComplete (ctx : Nat) : Statement (.invalidationComplete ctx) := of_event _ rfl rfl
theorem quiescenceAdvance : Statement (.quiescenceAdvance) := of_event _ rfl rfl
theorem fetchFault (w : WaveKey) (pc : Word) : Statement (.fetchFault w pc) := of_event _ rfl rfl
theorem primAccept (w : WaveKey) (pc : Word) : Statement (.primAccept w pc) := of_event _ rfl rfl
theorem exchangeForward (ctx qid : Nat) : Statement (.exchangeForward ctx qid) := of_event _ rfl rfl
theorem recordBin (ctx qid die : Nat) : Statement (.recordBin ctx qid die) := of_event _ rfl rfl
theorem closeMarkerArrival (ctx qid die : Nat) (grain : Nat) : Statement (.closeMarkerArrival ctx qid die grain) := of_event _ rfl rfl
theorem tileFlush (ctx qid die tx ty : Nat) : Statement (.tileFlush ctx qid die tx ty) := of_event _ rfl rfl
theorem tileBufferGrant (ctx qid tx ty core : Nat) : Statement (.tileBufferGrant ctx qid tx ty core) := of_event _ rfl rfl
theorem passRender (ctx qid die : Nat) : Statement (.passRender ctx qid die) := of_event _ rfl rfl
theorem passEnd (ctx qid : Nat) : Statement (.passEnd ctx qid) := of_event _ rfl rfl
theorem pixelWaveLaunch (ctx qid tx ty : Nat) : Statement (.pixelWaveLaunch ctx qid tx ty) := of_event _ rfl rfl
theorem blendApply (ctx qid tx ty : Nat) : Statement (.blendApply ctx qid tx ty) := of_event _ rfl rfl
theorem sectionAcquire (w : WaveKey) (pc : Word) : Statement (.sectionAcquire w pc) := of_event _ rfl rfl
theorem rasterWatchdog (ctx qid die : Nat) : Statement (.rasterWatchdog ctx qid die) := of_event _ rfl rfl
theorem sectionTimeout (w : WaveKey) (lane : Nat) : Statement (.sectionTimeout w lane) := of_event _ rfl rfl
theorem rasterAccessFault (ctx qid : Nat) (addr : Nat) (cause : BitVec 8) : Statement (.rasterAccessFault ctx qid addr cause) := of_event _ rfl rfl
theorem hbmScrub (stack sector : Nat) (correctable : Bool) : Statement (.hbmScrub stack sector correctable) := of_event _ rfl rfl
theorem bankRowRetirement (stack bank row : Nat) : Statement (.bankRowRetirement stack bank row) := of_event _ rfl rfl
theorem nodeReply (req : Nat) (data : List Byte) : Statement (.nodeReply req data) := of_event _ rfl rfl
theorem notReadyRetry (req : Nat) : Statement (.notReadyRetry req) := of_event _ rfl rfl
theorem nodeNegativeReply (req : Nat) (code : BitVec 8) : Statement (.nodeNegativeReply req code) := of_event _ rfl rfl
theorem ualinkKeyInstall (port : Nat) (key : BitVec 256) : Statement (.ualinkKeyInstall port key) := of_event _ rfl rfl
theorem keySwitch (port : Nat) : Statement (.keySwitch port) := of_event _ rfl rfl
theorem keyRetire (port : Nat) : Statement (.keyRetire port) := of_event _ rfl rfl
theorem flitAuthFail (port : Nat) : Statement (.flitAuthFail port) := of_event _ rfl rfl
theorem ualinkPortDead (port : Nat) : Statement (.ualinkPortDead port) := of_event _ rfl rfl
theorem collMemberDrop (w : WaveKey) (op rank : Nat) : Statement (.collMemberDrop w op rank) := of_event _ rfl rfl
theorem collExchangeComplete (w : WaveKey) (op : Nat) (contribs : List Contribution) : Statement (.collExchangeComplete w op contribs) := of_event _ rfl rfl
theorem moduleReset (patches : List Patch) (localGib : Nat) : Statement (.moduleReset patches localGib) := of_event _ rfl rfl
theorem hostRdmaRead (mkey va n : Nat) : Statement (.hostRdmaRead mkey va n) := of_event _ rfl rfl
theorem hostRdmaWrite (mkey va : Nat) (data : List Byte) : Statement (.hostRdmaWrite mkey va data) := of_event _ rfl rfl
theorem shortMessageDrop (bytes : List Byte) (qp srcIp : Nat) : Statement (.shortMessageDrop bytes qp srcIp) := of_event _ rfl rfl
theorem hostOpen (h : Hdr) (hostMax : BitVec 16) (features : DWord) : Statement (.hostOpen h hostMax features) := of_event _ rfl rfl
theorem hostClose (h : Hdr) : Statement (.hostClose h) := of_event _ rfl rfl
theorem createCtx (h : Hdr) (p : CtxArgs) : Statement (.createCtx h p) := of_event _ rfl rfl
theorem destroyCtx (h : Hdr) : Statement (.destroyCtx h) := of_event _ rfl rfl
theorem hostMap (h : Hdr) (p : MapArgs) : Statement (.hostMap h p) := of_event _ rfl rfl
theorem createQueue (h : Hdr) (p : QueueArgs) : Statement (.createQueue h p) := of_event _ rfl rfl
theorem loadCode (h : Hdr) (image : List Byte) : Statement (.loadCode h image) := of_event _ rfl rfl
theorem codeSync (h : Hdr) : Statement (.codeSync h) := of_event _ rfl rfl
theorem submit (h : Hdr) (qid : Nat) (p : Submission) : Statement (.submit h qid p) := of_event _ rfl rfl
theorem readLog (h : Hdr) (fromSeq : Word) : Statement (.readLog h fromSeq) := of_event _ rfl rfl
theorem setPolicyBinpool (h : Hdr) (mib : Nat) : Statement (.setPolicyBinpool h mib) := of_event _ rfl rfl
theorem setPolicyJournal (h : Hdr) (mib : Nat) : Statement (.setPolicyJournal h mib) := of_event _ rfl rfl
theorem setPolicyGroup (h : Hdr) (group : Nat) (claim : Bool) : Statement (.setPolicyGroup h group claim) := of_event _ rfl rfl
theorem setPolicyFabmap (h : Hdr) (windows : List NodeWindow) : Statement (.setPolicyFabmap h windows) := of_event _ rfl rfl
theorem setPolicyCgroup (h : Hdr) (p : CGroupArgs) : Statement (.setPolicyCgroup h p) := of_event _ rfl rfl
theorem setPolicyCtimeout (h : Hdr) (us : Nat) : Statement (.setPolicyCtimeout h us) := of_event _ rfl rfl
theorem debugAttach (h : Hdr) : Statement (.debugAttach h) := of_event _ rfl rfl
theorem debugDetach (h : Hdr) : Statement (.debugDetach h) := of_event _ rfl rfl
theorem debugStop (h : Hdr) (w : WaveKey) : Statement (.debugStop h w) := of_event _ rfl rfl
theorem debugTeamStop (h : Hdr) (team : Nat) (on : Bool) : Statement (.debugTeamStop h team on) := of_event _ rfl rfl
theorem debugStep (h : Hdr) (w : WaveKey) : Statement (.debugStep h w) := of_event _ rfl rfl
theorem debugResume (h : Hdr) (w : WaveKey) : Statement (.debugResume h w) := of_event _ rfl rfl
theorem debugReadState (h : Hdr) (w : WaveKey) (reg : DebugReg) : Statement (.debugReadState h w reg) := of_event _ rfl rfl
theorem debugWriteState (h : Hdr) (w : WaveKey) (reg : DebugReg) (value : DWord) : Statement (.debugWriteState h w reg value) := of_event _ rfl rfl
theorem debugAddressMatch (h : Hdr) (pcs : List Word) : Statement (.debugAddressMatch h pcs) := of_event _ rfl rfl
theorem getVersion (h : Hdr) : Statement (.getVersion h) := of_event _ rfl rfl
theorem getCapabilities (h : Hdr) : Statement (.getCapabilities h) := of_event _ rfl rfl
theorem negotiateAlgorithms (h : Hdr) (offered : Nat) : Statement (.negotiateAlgorithms h offered) := of_event _ rfl rfl
theorem getDigests (h : Hdr) : Statement (.getDigests h) := of_event _ rfl rfl
theorem getCertificate (h : Hdr) (offset length : Nat) : Statement (.getCertificate h offset length) := of_event _ rfl rfl
theorem challenge (h : Hdr) (nonce : BitVec 256) : Statement (.challenge h nonce) := of_event _ rfl rfl
theorem getMeasurements (h : Hdr) (index : Nat) : Statement (.getMeasurements h index) := of_event _ rfl rfl
theorem keyExchange (h : Hdr) (hostKey : Nat) : Statement (.keyExchange h hostKey) := of_event _ rfl rfl
theorem spdmFinish (h : Hdr) (verified : Bool) : Statement (.spdmFinish h verified) := of_event _ rfl rfl
theorem endSession (h : Hdr) : Statement (.endSession h) := of_event _ rfl rfl
theorem illegalEncoding (op : Bool) (word : Word) : Statement (.illegalEncoding op word) := of_event _ rfl rfl
theorem pageFaultServiced (fault : Nat) (answer : PageAnswer) : Statement (.pageFaultServiced fault answer) := of_event _ rfl rfl
theorem pageMigration (ctx va toStack : Nat) : Statement (.pageMigration ctx va toStack) := of_event _ rfl rfl
theorem deadPortRestore (port : Nat) : Statement (.deadPortRestore port) := of_event _ rfl rfl
theorem hostPortFailure (port : Nat) : Statement (.hostPortFailure port) := of_event _ rfl rfl
theorem ptimeDiscipline (ns : DWord) : Statement (.ptimeDiscipline ns) := of_event _ rfl rfl

end Sys2Proof.Laws.WordShape
end

