-- ==== Sys2Proof/Laws/Traps.lean ====
section
/-! SUPPORT. Taking a trap and returning from it, as the statements say them. -/

namespace Sys2Proof.Laws

open Sys2Proof.Machine

theorem maskOf_get (p : Fin 32 → Bool) (i : Fin 32) : (maskOf p).getLsbD i.val = p i := by
  simp [maskOf, BitVec.getLsbD_ofFnLE]

theorem live_get (w : Wave) (i : Fin 32) : w.live.getLsbD i.val = decide (w.lanes[i].status = .live) := by
  unfold Wave.live Wave.laneMask
  rw [maskOf_get]
  unfold Lane.isLive
  cases w.lanes[i].status <;> rfl

theorem live_eq (w : Wave) : w.live = maskOf (fun i => decide (w.lanes[i].status = .live)) := by
  apply BitVec.eq_of_getLsbD_eq; intro i hi
  rw [live_get w ⟨i, hi⟩, maskOf_get _ ⟨i, hi⟩]

theorem mapLanes_get (w : Wave) (m : LaneMask) (f : Fin 32 → Lane → Lane) (i : Fin 32) :
    (w.mapLanes m f).lanes[i] = if m.getLsbD i.val then f i w.lanes[i] else w.lanes[i] := by
  simp [Wave.mapLanes]

theorem mapLanes_eq (w : Wave) (m : LaneMask) (f : Fin 32 → Lane → Lane) : w.mapLanes m f = { w with lanes := (w.mapLanes m f).lanes } := rfl

theorem mapLanes_twice (w : Wave) (m n : LaneMask) (f g : Fin 32 → Lane → Lane) :
    (w.mapLanes m f).mapLanes n g = { w with lanes := ((w.mapLanes m f).mapLanes n g).lanes } := by
  obtain ⟨L, hL⟩ : ∃ L, w.mapLanes m f = { w with lanes := L } := ⟨_, mapLanes_eq w m f⟩
  rw [hL]
  exact mapLanes_eq _ n g

/-- The wave that enters its handler is the one that R151 describes. -/
theorem enterHandler_eq (w : Wave) (t : TrapReq) : w.enterHandler t = w.entered t.tcause t.tpc t.mask t.addr t.info := by
  have hl : ∀ i : Fin 32, ((w.mapLanes (w.live &&& t.mask) (fun _ l => { l with pc := alignPc w.tvec, block := .none, stopped := false, yieldSpan := .none })).mapLanes
      (w.live &&& ~~~t.mask) (fun _ l => { l with stopped := true })).lanes[i] =
      if w.lanes[i].status = .live then
        if t.mask.getLsbD i.val then { w.lanes[i] with pc := alignPc w.tvec, block := .none, stopped := false, yieldSpan := .none }
        else { w.lanes[i] with stopped := true }
      else w.lanes[i] := by
    intro i
    rw [mapLanes_get, mapLanes_get, BitVec.getLsbD_and, BitVec.getLsbD_and, live_get, BitVec.getLsbD_not]
    have := i.isLt
    by_cases h1 : w.lanes[i].status = .live
    · by_cases h2 : t.mask.getLsbD i.val = true
      · simp only [h1, h2, this, decide_true, Bool.and_self, Bool.not_true, Bool.and_false, Bool.false_eq_true, if_false, if_true]
      · simp only [h1, h2, this, decide_true, Bool.true_and, Bool.not_false, Bool.and_self, Bool.false_eq_true, if_false, if_true]
    · simp only [h1, decide_false, Bool.false_and, Bool.false_eq_true, if_false]
  have hm : w.live &&& ~~~t.mask = maskOf (fun i => decide (w.lanes[i].status = .live) && !t.mask.getLsbD i.val) := by
    apply BitVec.eq_of_getLsbD_eq; intro i hi
    rw [BitVec.getLsbD_and, live_get w ⟨i, hi⟩, maskOf_get _ ⟨i, hi⟩, BitVec.getLsbD_not]; simp [hi]
  have hp : w.live &&& t.mask = maskOf (fun i => decide (w.lanes[i].status = .live)) &&& t.mask := by rw [live_eq]
  have hv : ((w.mapLanes (w.live &&& t.mask) (fun _ l => { l with pc := alignPc w.tvec, block := .none, stopped := false, yieldSpan := .none })).mapLanes
      (w.live &&& ~~~t.mask) (fun _ l => { l with stopped := true })).lanes = Vector.ofFn (fun i =>
      if w.lanes[i].status = .live then
        if t.mask.getLsbD i.val then { w.lanes[i] with pc := alignPc w.tvec, block := .none, stopped := false, yieldSpan := .none }
        else { w.lanes[i] with stopped := true }
      else w.lanes[i]) := by
    apply Vector.ext; intro i hi
    have := hl ⟨i, hi⟩
    simp only [Fin.getElem_fin] at this
    rw [this, Vector.getElem_ofFn]; rfl
  unfold Wave.enterHandler Wave.entered
  extract_lets path rest w1 w2
  have h2 : w2 = { w with lanes := w2.lanes } := mapLanes_twice ..
  have h3 : w2.lanes = _ := hv
  rw [h3] at h2
  have hp' : path = _ := hp
  have hm' : rest = _ := hm
  clear_value w2 path rest
  subst h2
  rw [hp', hm']
  rfl

/-- A trap of a wave that has a handler and is not at handler level (R151). -/
theorem trap_eq (s : State) (k : WaveKey) (t : TrapReq) (h : (s.wave k).canTrap) :
    s.trap k t = s.setWave k ((s.wave k).entered t.tcause t.tpc t.mask t.addr t.info) := by
  unfold State.trap
  simp only [h.1, h.2, Bool.false_eq_true, if_false]
  rw [enterHandler_eq]

/-- An instruction whose meaning raises a cause at once. -/
theorem traps_of (s : State) (i : Instr) (t : TrapReq) (he : exec i s = .next (s.trap s.sel.key t)) : s.traps i s.cur t.tcause t.tpc t.mask t.addr t.info := by
  intro hc
  rw [he, trap_eq s s.sel.key t hc]; rfl

end Sys2Proof.Laws
end

