-- ==== Sys2Proof/Tests/Slice0.lean ====
section
/-! SUPPORT. Tests: terms that well-formedness refuses, words written out from the spec's encodings, single steps with results worked out
from the spec, and for every statement with hypotheses states and operands that meet them. -/

namespace Sys2Proof.Tests

open Sys2Proof.Machine

-- One theorem at a time: side by side they would hold a thread each.
set_option Elab.async false

/-! ### A small module -/

/-- The module with context 0, team 0 of one wave, and that wave's path of 32 threads selected at PC 0. -/
def tS : State := { State.reset.withFetchWord 32 0 with sel := ⟨⟨0, 0⟩, BitVec.allOnes 32, 0, 4, 0, .lane, 0⟩, clock := 100000000 }
/-- The same with its wave changed. -/
def tW (f : Wave → Wave) : State := tS.modWave ⟨0, 0⟩ f
/-- The same with its team changed. -/
def tT (f : Team → Team) : State := tS.modTeam 0 f
/-- The same with its context changed. -/
def tC (f : Context → Context) : State := tS.setContext 0 (f (tS.context 0))

/-- A row with one word in every lane, claimed by all. -/
def fullRow (p : Nat) (x : Word) : Row := ⟨Vector.replicate 32 x, 0, 0, BitVec.allOnes 32, p⟩
/-- A wave with registers v1 = 6, v2 = 7, v4 = 0 and v5 = 3FF00000H (the pair v4 is 1.0), s1 = 100H, s2 = 0, and a handler at 40H. -/
def regs (w : Wave) : Wave := { w with
  rows := w.rows ++ [(1, fullRow 1 6), (2, fullRow 2 7), (4, fullRow 4 0), (5, fullRow 5 0x3FF00000)]
  sregs := (w.sregs.set 1 0x100).set 2 0
  tvec := 0x40 }
def tR : State := tW regs

/-- A state whose wave has no row with a bad parity bit, and no injection armed, meets no parity error. -/
theorem unarmed_of {s : State} (h : s.cur.errinj.getLsbD 31 = false ∧ s.cur.rows.all (fun r => r.2.par == 0) = true ∧ s.curTeam.spPar = []) :
    s.unarmed := by
  refine ⟨h.1, ?_, h.2.2⟩
  intro n r hr
  have key : ∀ l : List (Nat × Row), l.all (fun r => r.2.par == 0) = true → assocGet l n = some r → r.par = 0 := by
    intro l
    induction l with
    | nil => intro _ h; simp [assocGet] at h
    | cons p l ih =>
      obtain ⟨k, v⟩ := p
      intro ha hg
      simp only [List.all_cons, Bool.and_eq_true, beq_iff_eq] at ha
      simp only [assocGet] at hg
      split at hg
      · cases hg; exact ha.1
      · exact ih ha.2 hg
  exact key _ h.2.1 hr

/-! ### Well-formedness (an ill-formed term for each check) -/

/-- A literal word stands only where a field takes one (R60, R69). -/
theorem test_illformed_literal : (Instr.iadd ⟨1, 2, 3, false, false, 7, false, 5⟩).wellFormed = false := by decide +kernel
theorem test_wellformed_literal : (Instr.iadd ⟨1, 2, 63, false, false, 7, false, 5⟩).wellFormed = true := by decide +kernel
/-- Cores 0 to 1023 and slots 0 to 63 (R158). -/
theorem test_illformed_core : (Instr.waveRetire ⟨1024, 0⟩).wellFormed = false := by decide +kernel
theorem test_illformed_slot : (Instr.waveRetire ⟨0, 64⟩).wellFormed = false := by decide +kernel
theorem test_wellformed_wave : (Instr.waveRetire ⟨1023, 63⟩).wellFormed = true := by decide +kernel
theorem test_illformed_row_core : (Instr.rowGrant 1024).wellFormed = false := by decide +kernel
/-- Contexts 0 to 63, clusters 0 to 255, dies 0 to 7, stacks 0 to 15, fabric ports 0 to 31, host ports 0 and 1. -/
theorem test_illformed_context : (Instr.passEnd 64 0).wellFormed = false := by decide +kernel
theorem test_illformed_cluster : (Instr.crewAdmission 0 256).wellFormed = false := by decide +kernel
theorem test_illformed_die : (Instr.linkDead 8 0).wellFormed = false := by decide +kernel
theorem test_illformed_stack : (Instr.hbmScrub 16 0 true).wellFormed = false := by decide +kernel
theorem test_illformed_port : (Instr.keySwitch 32).wellFormed = false := by decide +kernel
theorem test_illformed_host_port : (Instr.hostPortFailure 2).wellFormed = false := by decide +kernel
/-- A header of the host that names a context: its number, or all ones for none (R421). -/
def tH : Hdr := ⟨0, 0, false, false, 1, 0, 1, 1, 0, 0, 0, 0, 0, 0⟩
theorem test_illformed_header : (Instr.destroyCtx { tH with ctx := 64 }).wellFormed = false := by decide +kernel

/-! ### Words written out from the spec's encodings (R59, R62, R63, R73), one for every instruction -/

theorem test_decode_integer_a :
  decode (wordBytes (0x00#8 ++ 0#6 ++ 0#6 ++ 0#6 ++ 0#1 ++ 0#1 ++ 3#3 ++ 1#1)) = .ok (.nop ⟨0, 0, 0, false, false, 3, true, 0⟩, []) ∧
  decode (wordBytes (0x01#8 ++ 16#6 ++ 32#6 ++ 0#6 ++ 1#1 ++ 0#1 ++ 3#3 ++ 1#1)) = .ok (.mov ⟨16, 32, 0, true, false, 3, true, 0⟩, []) ∧
  decode (wordBytes (0x02#8 ++ 16#6 ++ 0#6 ++ 0x0#12)) = .ok (.movi ⟨16, 0, 0x0⟩, []) ∧
  decode (wordBytes (0x03#8 ++ 16#6 ++ 32#6 ++ 0x0#12)) = .ok (.bcast ⟨16, 32, 0x0⟩, []) ∧
  decode (wordBytes (0x04#8 ++ 16#6 ++ 32#6 ++ 48#6 ++ 1#1 ++ 0#1 ++ 3#3 ++ 1#1)) = .ok (.sel ⟨16, 32, 48, true, false, 3, true, 0⟩, []) ∧
  decode (wordBytes (0x05#8 ++ 16#6 ++ 32#6 ++ 48#6 ++ 4#6)) = .ok (.perm ⟨16, 32, 48, 4, 0⟩, []) ∧
  decode (wordBytes (0x06#8 ++ 16#6 ++ 32#6 ++ 48#6 ++ 1#1 ++ 0#1 ++ 3#3 ++ 1#1)) = .ok (.iadd ⟨16, 32, 48, true, false, 3, true, 0⟩, []) ∧
  decode (wordBytes (0x07#8 ++ 16#6 ++ 32#6 ++ 48#6 ++ 1#1 ++ 0#1 ++ 3#3 ++ 1#1)) = .ok (.isub ⟨16, 32, 48, true, false, 3, true, 0⟩, []) ∧
  decode (wordBytes (0x08#8 ++ 16#6 ++ 32#6 ++ 0x0#12)) = .ok (.iaddi ⟨16, 32, 0x0⟩, []) ∧
  decode (wordBytes (0x09#8 ++ 16#6 ++ 32#6 ++ 48#6 ++ 1#1 ++ 0#1 ++ 3#3 ++ 1#1)) = .ok (.imul ⟨16, 32, 48, true, false, 3, true, 0⟩, []) ∧
  decode (wordBytes (0x0A#8 ++ 16#6 ++ 32#6 ++ 48#6 ++ 1#1 ++ 0#1 ++ 3#3 ++ 1#1)) = .ok (.imulhs ⟨16, 32, 48, true, false, 3, true, 0⟩, []) ∧
  decode (wordBytes (0x0B#8 ++ 16#6 ++ 32#6 ++ 48#6 ++ 1#1 ++ 0#1 ++ 3#3 ++ 1#1)) = .ok (.imulhu ⟨16, 32, 48, true, false, 3, true, 0⟩, []) ∧
  decode (wordBytes (0x0C#8 ++ 16#6 ++ 32#6 ++ 48#6 ++ 4#6)) = .ok (.imad ⟨16, 32, 48, 4, 0⟩, []) ∧
  decode (wordBytes (0x0D#8 ++ 16#6 ++ 32#6 ++ 48#6 ++ 1#1 ++ 0#1 ++ 3#3 ++ 1#1)) = .ok (.imulws ⟨16, 32, 48, true, false, 3, true, 0⟩, []) ∧
  decode (wordBytes (0x0E#8 ++ 16#6 ++ 32#6 ++ 48#6 ++ 1#1 ++ 0#1 ++ 3#3 ++ 1#1)) = .ok (.imulwu ⟨16, 32, 48, true, false, 3, true, 0⟩, []) ∧
  decode (wordBytes (0x0F#8 ++ 16#6 ++ 32#6 ++ 48#6 ++ 1#1 ++ 0#1 ++ 3#3 ++ 1#1)) = .ok (.iadd64 ⟨16, 32, 48, true, false, 3, true, 0⟩, []) := by
  and_intros <;> decide +kernel

theorem test_decode_integer_b :
  decode (wordBytes (0x10#8 ++ 16#6 ++ 32#6 ++ 48#6 ++ 1#1 ++ 0#1 ++ 3#3 ++ 1#1)) = .ok (.isub64 ⟨16, 32, 48, true, false, 3, true, 0⟩, []) ∧
  decode (wordBytes (0x11#8 ++ 16#6 ++ 32#6 ++ 48#6 ++ 1#1 ++ 0#1 ++ 3#3 ++ 1#1)) = .ok (.imin ⟨16, 32, 48, true, false, 3, true, 0⟩, []) ∧
  decode (wordBytes (0x12#8 ++ 16#6 ++ 32#6 ++ 48#6 ++ 1#1 ++ 0#1 ++ 3#3 ++ 1#1)) = .ok (.imax ⟨16, 32, 48, true, false, 3, true, 0⟩, []) ∧
  decode (wordBytes (0x13#8 ++ 16#6 ++ 32#6 ++ 48#6 ++ 1#1 ++ 0#1 ++ 3#3 ++ 1#1)) = .ok (.umin ⟨16, 32, 48, true, false, 3, true, 0⟩, []) ∧
  decode (wordBytes (0x14#8 ++ 16#6 ++ 32#6 ++ 48#6 ++ 1#1 ++ 0#1 ++ 3#3 ++ 1#1)) = .ok (.umax ⟨16, 32, 48, true, false, 3, true, 0⟩, []) ∧
  decode (wordBytes (0x15#8 ++ 16#6 ++ 32#6 ++ 0#6 ++ 1#1 ++ 0#1 ++ 3#3 ++ 1#1)) = .ok (.iabs ⟨16, 32, 0, true, false, 3, true, 0⟩, []) ∧
  decode (wordBytes (0x16#8 ++ 16#6 ++ 32#6 ++ 48#6 ++ 1#1 ++ 0#1 ++ 3#3 ++ 1#1)) = .ok (.and ⟨16, 32, 48, true, false, 3, true, 0⟩, []) ∧
  decode (wordBytes (0x17#8 ++ 16#6 ++ 32#6 ++ 48#6 ++ 1#1 ++ 0#1 ++ 3#3 ++ 1#1)) = .ok (.or ⟨16, 32, 48, true, false, 3, true, 0⟩, []) ∧
  decode (wordBytes (0x18#8 ++ 16#6 ++ 32#6 ++ 48#6 ++ 1#1 ++ 0#1 ++ 3#3 ++ 1#1)) = .ok (.xor ⟨16, 32, 48, true, false, 3, true, 0⟩, []) ∧
  decode (wordBytes (0x19#8 ++ 16#6 ++ 32#6 ++ 48#6 ++ 1#1 ++ 0#1 ++ 3#3 ++ 1#1)) = .ok (.andn ⟨16, 32, 48, true, false, 3, true, 0⟩, []) ∧
  decode (wordBytes (0x1A#8 ++ 16#6 ++ 32#6 ++ 0x0#12)) = .ok (.andi ⟨16, 32, 0x0⟩, []) ∧
  decode (wordBytes (0x1B#8 ++ 16#6 ++ 32#6 ++ 0x0#12)) = .ok (.ori ⟨16, 32, 0x0⟩, []) ∧
  decode (wordBytes (0x1C#8 ++ 16#6 ++ 32#6 ++ 0x0#12)) = .ok (.xori ⟨16, 32, 0x0⟩, []) ∧
  decode (wordBytes (0x1D#8 ++ 16#6 ++ 32#6 ++ 48#6 ++ 1#1 ++ 0#1 ++ 3#3 ++ 1#1)) = .ok (.shl ⟨16, 32, 48, true, false, 3, true, 0⟩, []) ∧
  decode (wordBytes (0x1E#8 ++ 16#6 ++ 32#6 ++ 48#6 ++ 1#1 ++ 0#1 ++ 3#3 ++ 1#1)) = .ok (.shr ⟨16, 32, 48, true, false, 3, true, 0⟩, []) ∧
  decode (wordBytes (0x1F#8 ++ 16#6 ++ 32#6 ++ 48#6 ++ 1#1 ++ 0#1 ++ 3#3 ++ 1#1)) = .ok (.sar ⟨16, 32, 48, true, false, 3, true, 0⟩, []) ∧
  decode (wordBytes (0x20#8 ++ 16#6 ++ 32#6 ++ 0x0#12)) = .ok (.shli ⟨16, 32, 0x0⟩, []) ∧
  decode (wordBytes (0x21#8 ++ 16#6 ++ 32#6 ++ 0x0#12)) = .ok (.shri ⟨16, 32, 0x0⟩, []) ∧
  decode (wordBytes (0x22#8 ++ 16#6 ++ 32#6 ++ 0x0#12)) = .ok (.sari ⟨16, 32, 0x0⟩, []) ∧
  decode (wordBytes (0x23#8 ++ 16#6 ++ 32#6 ++ 48#6 ++ 4#6)) = .ok (.shf ⟨16, 32, 48, 4, 0⟩, []) ∧
  decode (wordBytes (0x24#8 ++ 16#6 ++ 32#6 ++ 0#6 ++ 4#6)) = .ok (.bfeu ⟨16, 32, 0, 4, 0⟩, []) ∧
  decode (wordBytes (0x25#8 ++ 16#6 ++ 32#6 ++ 0#6 ++ 4#6)) = .ok (.bfes ⟨16, 32, 0, 4, 0⟩, []) ∧
  decode (wordBytes (0x26#8 ++ 16#6 ++ 32#6 ++ 48#6 ++ 4#6)) = .ok (.bfi ⟨16, 32, 48, 4, 0⟩, []) ∧
  decode (wordBytes (0x27#8 ++ 16#6 ++ 32#6 ++ 0#6 ++ 0#6)) = .ok (.bit ⟨16, 32, 0, 0, 0⟩, []) ∧
  decode (wordBytes (0x28#8 ++ 5#3 ++ 0#3 ++ 32#6 ++ 48#6 ++ 1#1 ++ 0#1 ++ 3#3 ++ 1#1)) = .ok (.icmp ⟨5, 0, 32, 48, true, false, 3, true, 0⟩, []) ∧
  decode (wordBytes (0x29#8 ++ 5#3 ++ 0#3 ++ 32#6 ++ 48#6 ++ 1#1 ++ 0#1 ++ 3#3 ++ 1#1)) = .ok (.icmp64 ⟨5, 0, 32, 48, true, false, 3, true, 0⟩, []) ∧
  decode (wordBytes (0x2A#8 ++ 5#3 ++ 0#3 ++ 32#6 ++ 48#6 ++ 1#1 ++ 0#1 ++ 3#3 ++ 1#1)) = .ok (.fcmp ⟨5, 0, 32, 48, true, false, 3, true, 0⟩, []) ∧
  decode (wordBytes (0x2B#8 ++ 5#3 ++ 0#3 ++ 32#6 ++ 48#6 ++ 1#1 ++ 0#1 ++ 3#3 ++ 1#1)) = .ok (.dcmp ⟨5, 0, 32, 48, true, false, 3, true, 0⟩, []) ∧
  decode (wordBytes (0x2C#8 ++ 5#3 ++ 1#3 ++ 2#3 ++ 4#3 ++ 0xCA#8 ++ 3#3 ++ 1#1)) = .ok (.plog ⟨5, 1, 2, 4, 0xCA, 3, true⟩, []) ∧
  decode (wordBytes (0x2D#8 ++ 16#6 ++ 0#6 ++ 0#6 ++ 0#6)) = .ok (.pmov ⟨16, 0, 0, 0, 0⟩, []) := by
  and_intros <;> decide +kernel

theorem test_decode_float :
  decode (wordBytes (0x2E#8 ++ 16#6 ++ 32#6 ++ 48#6 ++ 1#1 ++ 0#1 ++ 3#3 ++ 1#1)) = .ok (.fadd ⟨16, 32, 48, true, false, 3, true, 0⟩, []) ∧
  decode (wordBytes (0x2F#8 ++ 16#6 ++ 32#6 ++ 48#6 ++ 1#1 ++ 0#1 ++ 3#3 ++ 1#1)) = .ok (.fsub ⟨16, 32, 48, true, false, 3, true, 0⟩, []) ∧
  decode (wordBytes (0x30#8 ++ 16#6 ++ 32#6 ++ 48#6 ++ 1#1 ++ 0#1 ++ 3#3 ++ 1#1)) = .ok (.fmul ⟨16, 32, 48, true, false, 3, true, 0⟩, []) ∧
  decode (wordBytes (0x31#8 ++ 16#6 ++ 32#6 ++ 48#6 ++ 4#6)) = .ok (.ffma ⟨16, 32, 48, 4, 0⟩, []) ∧
  decode (wordBytes (0x32#8 ++ 16#6 ++ 32#6 ++ 48#6 ++ 1#1 ++ 0#1 ++ 3#3 ++ 1#1)) = .ok (.fmin ⟨16, 32, 48, true, false, 3, true, 0⟩, []) ∧
  decode (wordBytes (0x33#8 ++ 16#6 ++ 32#6 ++ 48#6 ++ 1#1 ++ 0#1 ++ 3#3 ++ 1#1)) = .ok (.fmax ⟨16, 32, 48, true, false, 3, true, 0⟩, []) ∧
  decode (wordBytes (0x34#8 ++ 16#6 ++ 32#6 ++ 48#6 ++ 1#1 ++ 0#1 ++ 3#3 ++ 1#1)) = .ok (.fminn ⟨16, 32, 48, true, false, 3, true, 0⟩, []) ∧
  decode (wordBytes (0x35#8 ++ 16#6 ++ 32#6 ++ 48#6 ++ 1#1 ++ 0#1 ++ 3#3 ++ 1#1)) = .ok (.fmaxn ⟨16, 32, 48, true, false, 3, true, 0⟩, []) ∧
  decode (wordBytes (0x36#8 ++ 16#6 ++ 32#6 ++ 48#6 ++ 2#6)) = .ok (.fsgn ⟨16, 32, 48, 2, 0⟩, []) ∧
  decode (wordBytes (0x37#8 ++ 16#6 ++ 32#6 ++ 48#6 ++ 1#1 ++ 0#1 ++ 3#3 ++ 1#1)) = .ok (.fdiv ⟨16, 32, 48, true, false, 3, true, 0⟩, []) ∧
  decode (wordBytes (0x38#8 ++ 16#6 ++ 32#6 ++ 0#6 ++ 1#1 ++ 0#1 ++ 3#3 ++ 1#1)) = .ok (.fsqrt ⟨16, 32, 0, true, false, 3, true, 0⟩, []) ∧
  decode (wordBytes (0x39#8 ++ 16#6 ++ 32#6 ++ 0#6 ++ 0#6)) = .ok (.fsfu ⟨16, 32, 0, 0, 0⟩, []) ∧
  decode (wordBytes (0x3A#8 ++ 16#6 ++ 32#6 ++ 0#6 ++ 0#6)) = .ok (.frnd ⟨16, 32, 0, 0, 0⟩, []) ∧
  decode (wordBytes (0x3B#8 ++ 16#6 ++ 32#6 ++ 48#6 ++ 1#1 ++ 0#1 ++ 3#3 ++ 1#1)) = .ok (.dadd ⟨16, 32, 48, true, false, 3, true, 0⟩, []) ∧
  decode (wordBytes (0x3C#8 ++ 16#6 ++ 32#6 ++ 48#6 ++ 1#1 ++ 0#1 ++ 3#3 ++ 1#1)) = .ok (.dsub ⟨16, 32, 48, true, false, 3, true, 0⟩, []) ∧
  decode (wordBytes (0x3D#8 ++ 16#6 ++ 32#6 ++ 48#6 ++ 1#1 ++ 0#1 ++ 3#3 ++ 1#1)) = .ok (.dmul ⟨16, 32, 48, true, false, 3, true, 0⟩, []) ∧
  decode (wordBytes (0x3E#8 ++ 16#6 ++ 32#6 ++ 48#6 ++ 4#6)) = .ok (.dfma ⟨16, 32, 48, 4, 0⟩, []) ∧
  decode (wordBytes (0x3F#8 ++ 16#6 ++ 32#6 ++ 48#6 ++ 1#1 ++ 0#1 ++ 3#3 ++ 1#1)) = .ok (.dmin ⟨16, 32, 48, true, false, 3, true, 0⟩, []) ∧
  decode (wordBytes (0x40#8 ++ 16#6 ++ 32#6 ++ 48#6 ++ 1#1 ++ 0#1 ++ 3#3 ++ 1#1)) = .ok (.dmax ⟨16, 32, 48, true, false, 3, true, 0⟩, []) ∧
  decode (wordBytes (0x41#8 ++ 16#6 ++ 32#6 ++ 48#6 ++ 1#1 ++ 0#1 ++ 3#3 ++ 1#1)) = .ok (.ddiv ⟨16, 32, 48, true, false, 3, true, 0⟩, []) ∧
  decode (wordBytes (0x42#8 ++ 16#6 ++ 32#6 ++ 0#6 ++ 1#1 ++ 0#1 ++ 3#3 ++ 1#1)) = .ok (.dsqrt ⟨16, 32, 0, true, false, 3, true, 0⟩, []) ∧
  decode (wordBytes (0x43#8 ++ 16#6 ++ 32#6 ++ 48#6 ++ 17#6)) = .ok (.dsfu ⟨16, 32, 48, 17, 0⟩, []) ∧
  decode (wordBytes (0x44#8 ++ 16#6 ++ 32#6 ++ 48#6 ++ 1#1 ++ 0#1 ++ 3#3 ++ 1#1)) = .ok (.hadd2 ⟨16, 32, 48, true, false, 3, true, 0⟩, []) ∧
  decode (wordBytes (0x45#8 ++ 16#6 ++ 32#6 ++ 48#6 ++ 1#1 ++ 0#1 ++ 3#3 ++ 1#1)) = .ok (.hmul2 ⟨16, 32, 48, true, false, 3, true, 0⟩, []) ∧
  decode (wordBytes (0x46#8 ++ 16#6 ++ 32#6 ++ 48#6 ++ 4#6)) = .ok (.hfma2 ⟨16, 32, 48, 4, 0⟩, []) ∧
  decode (wordBytes (0x47#8 ++ 16#6 ++ 32#6 ++ 48#6 ++ 0#6)) = .ok (.hmnx2 ⟨16, 32, 48, 0, 0⟩, []) ∧
  decode (wordBytes (0x48#8 ++ 16#6 ++ 32#6 ++ 48#6 ++ 1#1 ++ 0#1 ++ 3#3 ++ 1#1)) = .ok (.badd2 ⟨16, 32, 48, true, false, 3, true, 0⟩, []) ∧
  decode (wordBytes (0x49#8 ++ 16#6 ++ 32#6 ++ 48#6 ++ 1#1 ++ 0#1 ++ 3#3 ++ 1#1)) = .ok (.bmul2 ⟨16, 32, 48, true, false, 3, true, 0⟩, []) ∧
  decode (wordBytes (0x4A#8 ++ 16#6 ++ 32#6 ++ 48#6 ++ 4#6)) = .ok (.bfma2 ⟨16, 32, 48, 4, 0⟩, []) ∧
  decode (wordBytes (0x4B#8 ++ 16#6 ++ 32#6 ++ 48#6 ++ 0#6)) = .ok (.cvt ⟨16, 32, 48, 0, 0⟩, []) ∧
  decode (wordBytes (0x4C#8 ++ 16#6 ++ 32#6 ++ 48#6 ++ 0#6)) = .ok (.ncvt ⟨16, 32, 48, 0, 0⟩, []) := by
  and_intros <;> decide +kernel

theorem test_decode_control :
  decode (wordBytes (0x4D#8 ++ 16#6 ++ 32#6 ++ 48#6 ++ 0#6)) = .ok (.regrp ⟨16, 32, 48, 0, 0⟩, []) ∧
  decode (wordBytes (0x4E#8 ++ 6#3 ++ 1#1 ++ 0x12345#20)) = .ok (.bra ⟨6, true, 0x12345⟩, []) ∧
  decode (wordBytes (0x4F#8 ++ 6#3 ++ 1#1 ++ 0x12345#20)) = .ok (.call ⟨6, true, 0x12345⟩, []) ∧
  decode (wordBytes (0x50#8 ++ 0#6 ++ 32#6 ++ 0#6 ++ 1#1 ++ 0#1 ++ 3#3 ++ 1#1)) = .ok (.brx ⟨0, 32, 0, true, false, 3, true, 0⟩, []) ∧
  decode (wordBytes (0x51#8 ++ 0#6 ++ 32#6 ++ 0#6 ++ 1#1 ++ 0#1 ++ 3#3 ++ 1#1)) = .ok (.callx ⟨0, 32, 0, true, false, 3, true, 0⟩, []) ∧
  decode (wordBytes (0x52#8 ++ 0#6 ++ 32#6 ++ 0#6 ++ 1#1 ++ 0#1 ++ 3#3 ++ 1#1)) = .ok (.ret ⟨0, 32, 0, true, false, 3, true, 0⟩, []) ∧
  decode (wordBytes (0x53#8 ++ 0#6 ++ 0#6 ++ 0#6 ++ 0#1 ++ 0#1 ++ 3#3 ++ 1#1)) = .ok (.exit ⟨0, 0, 0, false, false, 3, true, 0⟩, []) ∧
  decode (wordBytes (0x54#8 ++ 0#6 ++ 0#6 ++ 0x0#12)) = .ok (.trap ⟨0, 0, 0x0⟩, []) ∧
  decode (wordBytes (0x55#8 ++ 0#6 ++ 0#6 ++ 0#6 ++ 0#1 ++ 0#1 ++ 3#3 ++ 1#1)) = .ok (.bkpt ⟨0, 0, 0, false, false, 3, true, 0⟩, []) ∧
  decode (wordBytes (0x56#8 ++ 16#6 ++ 0#6 ++ 0#6 ++ 0#6)) = .ok (.vote ⟨16, 0, 0, 0, 0⟩, []) ∧
  decode (wordBytes (0x57#8 ++ 16#6 ++ 32#6 ++ 48#6 ++ 0#6)) = .ok (.shfl ⟨16, 32, 48, 0, 0⟩, []) ∧
  decode (wordBytes (0x58#8 ++ 16#6 ++ 32#6 ++ 0#6 ++ 0#6)) = .ok (.wred ⟨16, 32, 0, 0, 0⟩, []) ∧
  decode (wordBytes (0x59#8 ++ 16#6 ++ 32#6 ++ 0#6 ++ 0#6)) = .ok (.wscan ⟨16, 32, 0, 0, 0⟩, []) ∧
  decode (wordBytes (0x5A#8 ++ 16#6 ++ 32#6 ++ 48#6 ++ 0#6)) = .ok (.wargx ⟨16, 32, 48, 0, 0⟩, []) ∧
  decode (wordBytes (0x5B#8 ++ 16#6 ++ 32#6 ++ 0#6 ++ 1#1 ++ 0#1 ++ 3#3 ++ 1#1)) = .ok (.matchEq ⟨16, 32, 0, true, false, 3, true, 0⟩, []) ∧
  decode (wordBytes (0x5C#8 ++ 5#3 ++ 0#3 ++ 0#6 ++ 0#6 ++ 0#1 ++ 0#1 ++ 3#3 ++ 1#1)) = .ok (.elect ⟨5, 0, 0, 0, false, false, 3, true, 0⟩, []) := by
  and_intros <;> decide +kernel

theorem test_decode_memory :
  decode (wordBytes (0x5D#8 ++ 16#6 ++ 32#6 ++ 11#4 ++ 1#2 ++ 41#6)) = .ok (.ldb ⟨16, 32, 11, 1, 41⟩, []) ∧
  decode (wordBytes (0x5E#8 ++ 16#6 ++ 32#6 ++ 11#4 ++ 1#2 ++ 41#6)) = .ok (.ldbu ⟨16, 32, 11, 1, 41⟩, []) ∧
  decode (wordBytes (0x5F#8 ++ 16#6 ++ 32#6 ++ 11#4 ++ 1#2 ++ 41#6)) = .ok (.ldh ⟨16, 32, 11, 1, 41⟩, []) ∧
  decode (wordBytes (0x60#8 ++ 16#6 ++ 32#6 ++ 11#4 ++ 1#2 ++ 41#6)) = .ok (.ldhu ⟨16, 32, 11, 1, 41⟩, []) ∧
  decode (wordBytes (0x61#8 ++ 16#6 ++ 32#6 ++ 11#4 ++ 1#2 ++ 41#6)) = .ok (.ldw ⟨16, 32, 11, 1, 41⟩, []) ∧
  decode (wordBytes (0x62#8 ++ 16#6 ++ 32#6 ++ 11#4 ++ 1#2 ++ 41#6)) = .ok (.ldd ⟨16, 32, 11, 1, 41⟩, []) ∧
  decode (wordBytes (0x63#8 ++ 16#6 ++ 32#6 ++ 11#4 ++ 1#2 ++ 41#6)) = .ok (.ldq ⟨16, 32, 11, 1, 41⟩, []) ∧
  decode (wordBytes (0x64#8 ++ 16#6 ++ 32#6 ++ 11#4 ++ 1#2 ++ 41#6)) = .ok (.stb ⟨16, 32, 11, 1, 41⟩, []) ∧
  decode (wordBytes (0x65#8 ++ 16#6 ++ 32#6 ++ 11#4 ++ 1#2 ++ 41#6)) = .ok (.sth ⟨16, 32, 11, 1, 41⟩, []) ∧
  decode (wordBytes (0x66#8 ++ 16#6 ++ 32#6 ++ 11#4 ++ 1#2 ++ 41#6)) = .ok (.stw ⟨16, 32, 11, 1, 41⟩, []) ∧
  decode (wordBytes (0x67#8 ++ 16#6 ++ 32#6 ++ 11#4 ++ 1#2 ++ 41#6)) = .ok (.std ⟨16, 32, 11, 1, 41⟩, []) ∧
  decode (wordBytes (0x68#8 ++ 16#6 ++ 32#6 ++ 11#4 ++ 1#2 ++ 41#6)) = .ok (.stq ⟨16, 32, 11, 1, 41⟩, []) ∧
  decode (wordBytes (0x69#8 ++ 16#6 ++ 32#6 ++ 11#4 ++ 1#1 ++ 4#3 ++ 11#4)) = .ok (.ldaq ⟨16, 32, 11, true, 4, 11⟩, []) ∧
  decode (wordBytes (0x6A#8 ++ 16#6 ++ 32#6 ++ 11#4 ++ 1#1 ++ 4#3 ++ 11#4)) = .ok (.strl ⟨16, 32, 11, true, 4, 11⟩, []) ∧
  decode (wordBytes (0x6B#8 ++ 16#6 ++ 32#6 ++ 11#4 ++ 0#4 ++ 4#3 ++ 1#1)) = .ok (.atom ⟨16, 32, 11, 0, 4, true⟩, []) ∧
  decode (wordBytes (0x6C#8 ++ 16#6 ++ 32#6 ++ 0#4 ++ 1#1 ++ 0x55#7)) = .ok (.atoms ⟨16, 32, 0, true, 0x55⟩, []) ∧
  decode (wordBytes (0x6D#8 ++ 16#6 ++ 32#6 ++ 0x0#12)) = .ok (.ldsw ⟨16, 32, 0x0⟩, []) ∧
  decode (wordBytes (0x6E#8 ++ 16#6 ++ 32#6 ++ 0x0#12)) = .ok (.ldsd ⟨16, 32, 0x0⟩, []) ∧
  decode (wordBytes (0x6F#8 ++ 16#6 ++ 32#6 ++ 0x0#12)) = .ok (.ldsq ⟨16, 32, 0x0⟩, []) ∧
  decode (wordBytes (0x70#8 ++ 16#6 ++ 32#6 ++ 0x0#12)) = .ok (.stsw ⟨16, 32, 0x0⟩, []) ∧
  decode (wordBytes (0x71#8 ++ 16#6 ++ 32#6 ++ 0x0#12)) = .ok (.stsd ⟨16, 32, 0x0⟩, []) ∧
  decode (wordBytes (0x72#8 ++ 16#6 ++ 32#6 ++ 0x0#12)) = .ok (.stsq ⟨16, 32, 0x0⟩, []) ∧
  decode (wordBytes (0x73#8 ++ 16#6 ++ 32#6 ++ 0x0#12)) = .ok (.stsr ⟨16, 32, 0x0⟩, []) := by
  and_intros <;> decide +kernel

theorem test_decode_matrix_pixel :
  decode (wordBytes (0x74#8 ++ 16#6 ++ 9#6 ++ 10#6 ++ 0#6)) = .ok (.mmad ⟨16, 9, 10, 0⟩, []) ∧
  decode (wordBytes (0x75#8 ++ 16#6 ++ 9#6 ++ 10#6 ++ 0#6)) = .ok (.mmas ⟨16, 9, 10, 0⟩, []) ∧
  decode (wordBytes (0x76#8 ++ 16#6 ++ 9#6 ++ 10#6 ++ 0#6)) = .ok (.mmah ⟨16, 9, 10, 0⟩, []) ∧
  decode (wordBytes (0x77#8 ++ 16#6 ++ 9#6 ++ 10#6 ++ 0#6)) = .ok (.mmab ⟨16, 9, 10, 0⟩, []) ∧
  decode (wordBytes (0x78#8 ++ 16#6 ++ 9#6 ++ 10#6 ++ 0#6)) = .ok (.mman ⟨16, 9, 10, 0⟩, []) ∧
  decode (wordBytes (0x79#8 ++ 16#6 ++ 9#6 ++ 10#6 ++ 0#6)) = .ok (.mmaq ⟨16, 9, 10, 0⟩, []) ∧
  decode (wordBytes (0x7A#8 ++ 16#6 ++ 9#6 ++ 10#6 ++ 0#6)) = .ok (.mmasp ⟨16, 9, 10, 0⟩, []) ∧
  decode (wordBytes (0x7B#8 ++ 16#6 ++ 9#6 ++ 10#6 ++ 0#6)) = .ok (.accst ⟨16, 9, 10, 0⟩, []) ∧
  decode (wordBytes (0x7C#8 ++ 0#6 ++ 0#6 ++ 0#6 ++ 0#1 ++ 0#1 ++ 3#3 ++ 1#1)) = .ok (.pxlock ⟨0, 0, 0, false, false, 3, true, 0⟩, []) ∧
  decode (wordBytes (0x7D#8 ++ 0#6 ++ 32#6 ++ 48#6 ++ 10#6)) = .ok (.pxexp ⟨0, 32, 48, 10, 0⟩, []) ∧
  decode (wordBytes (0x7E#8 ++ 0#6 ++ 0#6 ++ 0#6 ++ 0#1 ++ 0#1 ++ 3#3 ++ 1#1)) = .ok (.pxkill ⟨0, 0, 0, false, false, 3, true, 0⟩, []) ∧
  decode (wordBytes (0x7F#8 ++ 0#6 ++ 0#6 ++ 0#6 ++ 0#1 ++ 0#1 ++ 3#3 ++ 1#1)) = .ok (.pxrel ⟨0, 0, 0, false, false, 3, true, 0⟩, []) := by
  and_intros <;> decide +kernel

theorem test_decode_uniform_a :
  decode (wordBytes (0x80#8 ++ 0#6 ++ 0#6 ++ 0#6 ++ 3#3 ++ 1#1 ++ 0#2)) = .ok (.unop ⟨0, 0, 0, 3, true, 0, 0⟩, []) ∧
  decode (wordBytes (0x81#8 ++ 16#6 ++ 32#6 ++ 0#6 ++ 3#3 ++ 1#1 ++ 0#2)) = .ok (.umov ⟨16, 32, 0, 3, true, 0, 0⟩, []) ∧
  decode (wordBytes (0x82#8 ++ 16#6 ++ 0x2F0F1#18)) = .ok (.umovi ⟨16, 0x2F0F1⟩, []) ∧
  decode (wordBytes (0x83#8 ++ 16#6 ++ 32#6 ++ 48#6 ++ 3#3 ++ 1#1 ++ 0#2)) = .ok (.uadd ⟨16, 32, 48, 3, true, 0, 0⟩, []) ∧
  decode (wordBytes (0x84#8 ++ 16#6 ++ 32#6 ++ 48#6 ++ 3#3 ++ 1#1 ++ 0#2)) = .ok (.usub ⟨16, 32, 48, 3, true, 0, 0⟩, []) ∧
  decode (wordBytes (0x85#8 ++ 16#6 ++ 32#6 ++ 0x0#12)) = .ok (.uaddi ⟨16, 32, 0x0⟩, []) ∧
  decode (wordBytes (0x86#8 ++ 16#6 ++ 32#6 ++ 48#6 ++ 3#3 ++ 1#1 ++ 0#2)) = .ok (.umul ⟨16, 32, 48, 3, true, 0, 0⟩, []) ∧
  decode (wordBytes (0x87#8 ++ 16#6 ++ 32#6 ++ 48#6 ++ 3#3 ++ 1#1 ++ 0#2)) = .ok (.umulhu ⟨16, 32, 48, 3, true, 0, 0⟩, []) ∧
  decode (wordBytes (0x88#8 ++ 16#6 ++ 32#6 ++ 48#6 ++ 3#3 ++ 1#1 ++ 0#2)) = .ok (.uadd64 ⟨16, 32, 48, 3, true, 0, 0⟩, []) ∧
  decode (wordBytes (0x89#8 ++ 16#6 ++ 32#6 ++ 48#6 ++ 3#3 ++ 1#1 ++ 0#2)) = .ok (.usub64 ⟨16, 32, 48, 3, true, 0, 0⟩, []) ∧
  decode (wordBytes (0x8A#8 ++ 16#6 ++ 32#6 ++ 48#6 ++ 3#3 ++ 1#1 ++ 0#2)) = .ok (.uminUniform ⟨16, 32, 48, 3, true, 0, 0⟩, []) ∧
  decode (wordBytes (0x8B#8 ++ 16#6 ++ 32#6 ++ 48#6 ++ 3#3 ++ 1#1 ++ 0#2)) = .ok (.umaxUniform ⟨16, 32, 48, 3, true, 0, 0⟩, []) ∧
  decode (wordBytes (0x8C#8 ++ 16#6 ++ 32#6 ++ 48#6 ++ 3#3 ++ 1#1 ++ 0#2)) = .ok (.uminu ⟨16, 32, 48, 3, true, 0, 0⟩, []) ∧
  decode (wordBytes (0x8D#8 ++ 16#6 ++ 32#6 ++ 48#6 ++ 3#3 ++ 1#1 ++ 0#2)) = .ok (.umaxu ⟨16, 32, 48, 3, true, 0, 0⟩, []) ∧
  decode (wordBytes (0x8E#8 ++ 16#6 ++ 32#6 ++ 48#6 ++ 3#3 ++ 1#1 ++ 0#2)) = .ok (.uand ⟨16, 32, 48, 3, true, 0, 0⟩, []) ∧
  decode (wordBytes (0x8F#8 ++ 16#6 ++ 32#6 ++ 48#6 ++ 3#3 ++ 1#1 ++ 0#2)) = .ok (.uor ⟨16, 32, 48, 3, true, 0, 0⟩, []) ∧
  decode (wordBytes (0x90#8 ++ 16#6 ++ 32#6 ++ 48#6 ++ 3#3 ++ 1#1 ++ 0#2)) = .ok (.uxor ⟨16, 32, 48, 3, true, 0, 0⟩, []) ∧
  decode (wordBytes (0x91#8 ++ 16#6 ++ 32#6 ++ 0x0#12)) = .ok (.uandi ⟨16, 32, 0x0⟩, []) ∧
  decode (wordBytes (0x92#8 ++ 16#6 ++ 32#6 ++ 0x0#12)) = .ok (.uori ⟨16, 32, 0x0⟩, []) ∧
  decode (wordBytes (0x93#8 ++ 16#6 ++ 32#6 ++ 48#6 ++ 3#3 ++ 1#1 ++ 0#2)) = .ok (.ushl ⟨16, 32, 48, 3, true, 0, 0⟩, []) ∧
  decode (wordBytes (0x94#8 ++ 16#6 ++ 32#6 ++ 48#6 ++ 3#3 ++ 1#1 ++ 0#2)) = .ok (.ushr ⟨16, 32, 48, 3, true, 0, 0⟩, []) ∧
  decode (wordBytes (0x95#8 ++ 16#6 ++ 32#6 ++ 48#6 ++ 3#3 ++ 1#1 ++ 0#2)) = .ok (.usar ⟨16, 32, 48, 3, true, 0, 0⟩, []) ∧
  decode (wordBytes (0x96#8 ++ 16#6 ++ 32#6 ++ 0x0#12)) = .ok (.ushli ⟨16, 32, 0x0⟩, []) ∧
  decode (wordBytes (0x97#8 ++ 16#6 ++ 32#6 ++ 0x0#12)) = .ok (.ushri ⟨16, 32, 0x0⟩, []) ∧
  decode (wordBytes (0x98#8 ++ 16#6 ++ 32#6 ++ 0x0#12)) = .ok (.ubfe ⟨16, 32, 0x0⟩, []) ∧
  decode (wordBytes (0x99#8 ++ 16#6 ++ 32#6 ++ 0x0#12)) = .ok (.ubit ⟨16, 32, 0x0⟩, []) ∧
  decode (wordBytes (0x9A#8 ++ 5#3 ++ 0#3 ++ 32#6 ++ 48#6 ++ 3#3 ++ 1#1 ++ 0#2)) = .ok (.ucmp ⟨5, 0, 32, 48, 3, true, 0, 0⟩, []) ∧
  decode (wordBytes (0x9B#8 ++ 16#6 ++ 32#6 ++ 48#6 ++ 3#3 ++ 1#1 ++ 0#2)) = .ok (.usel ⟨16, 32, 48, 3, true, 0, 0⟩, []) ∧
  decode (wordBytes (0x9C#8 ++ 5#3 ++ 1#3 ++ 2#3 ++ 4#3 ++ 0xCA#8 ++ 3#3 ++ 1#1)) = .ok (.qlog ⟨5, 1, 2, 4, 0xCA, 3, true⟩, []) ∧
  decode (wordBytes (0x9D#8 ++ 16#6 ++ 32#6 ++ 48#6 ++ 3#3 ++ 1#1 ++ 0#2)) = .ok (.ufadd ⟨16, 32, 48, 3, true, 0, 0⟩, []) ∧
  decode (wordBytes (0x9E#8 ++ 16#6 ++ 32#6 ++ 48#6 ++ 3#3 ++ 1#1 ++ 0#2)) = .ok (.ufmul ⟨16, 32, 48, 3, true, 0, 0⟩, []) ∧
  decode (wordBytes (0x9F#8 ++ 16#6 ++ 32#6 ++ 0x0#12)) = .ok (.ucvt ⟨16, 32, 0x0⟩, []) := by
  and_intros <;> decide +kernel

theorem test_decode_uniform_b :
  decode (wordBytes (0xA0#8 ++ 6#3 ++ 1#1 ++ 0x12345#20)) = .ok (.ubra ⟨6, true, 0x12345⟩, []) ∧
  decode (wordBytes (0xA1#8 ++ 6#3 ++ 1#1 ++ 0x12345#20)) = .ok (.ucall ⟨6, true, 0x12345⟩, []) ∧
  decode (wordBytes (0xA2#8 ++ 0#6 ++ 32#6 ++ 0#6 ++ 3#3 ++ 1#1 ++ 0#2)) = .ok (.ubrx ⟨0, 32, 0, 3, true, 0, 0⟩, []) ∧
  decode (wordBytes (0xA3#8 ++ 0#6 ++ 32#6 ++ 0#6 ++ 3#3 ++ 1#1 ++ 0#2)) = .ok (.uret ⟨0, 32, 0, 3, true, 0, 0⟩, []) ∧
  decode (wordBytes (0xA4#8 ++ 32#6 ++ 0x23456#18)) = .ok (.uloop ⟨32, 0x23456⟩, []) ∧
  decode (wordBytes (0xA5#8 ++ 16#6 ++ 32#6 ++ 0x0#12)) = .ok (.rdlane ⟨16, 32, 0x0⟩, []) ∧
  decode (wordBytes (0xA6#8 ++ 16#6 ++ 0#6 ++ 0#6 ++ 3#3 ++ 1#1 ++ 0#2)) = .ok (.actm ⟨16, 0, 0, 3, true, 0, 0⟩, []) ∧
  decode (wordBytes (0xA7#8 ++ 16#6 ++ 0#6 ++ 0x0#12)) = .ok (.sread ⟨16, 0, 0x0⟩, []) ∧
  decode (wordBytes (0xA8#8 ++ 0#6 ++ 32#6 ++ 0x0#12)) = .ok (.swrite ⟨0, 32, 0x0⟩, []) ∧
  decode (wordBytes (0xA9#8 ++ 4#3 ++ 2#2 ++ 0x0#19)) = .ok (.fence ⟨4, 2, 0x0⟩, []) ∧
  decode (wordBytes (0xAA#8 ++ 0#4 ++ 3#5 ++ 5#5 ++ 9#5 ++ 17#5)) = .ok (.wait ⟨0, 3, 5, 9, 17⟩, []) ∧
  decode (wordBytes (0xAB#8 ++ 1#4 ++ 3#5 ++ 5#5 ++ 9#5 ++ 0#5)) = .ok (.waitx ⟨1, 3, 5, 9, 0⟩, []) ∧
  decode (wordBytes (0xAC#8 ++ 0#6 ++ 32#6 ++ 48#6 ++ 3#3 ++ 1#1 ++ 0#2)) = .ok (.barinit ⟨0, 32, 48, 3, true, 0, 0⟩, []) ∧
  decode (wordBytes (0xAD#8 ++ 16#6 ++ 32#6 ++ 48#6 ++ 3#3 ++ 1#1 ++ 0#2)) = .ok (.bararv ⟨16, 32, 48, 3, true, 0, 0⟩, []) ∧
  decode (wordBytes (0xAE#8 ++ 0#6 ++ 32#6 ++ 48#6 ++ 3#3 ++ 1#1 ++ 0#2)) = .ok (.barwt ⟨0, 32, 48, 3, true, 0, 0⟩, []) ∧
  decode (wordBytes (0xAF#8 ++ 0#6 ++ 32#6 ++ 0#6 ++ 3#3 ++ 1#1 ++ 0#2)) = .ok (.barsync ⟨0, 32, 0, 3, true, 0, 0⟩, []) ∧
  decode (wordBytes (0xB0#8 ++ 16#6 ++ 32#6 ++ 0#6 ++ 3#3 ++ 1#1 ++ 0#2)) = .ok (.gbarv ⟨16, 32, 0, 3, true, 0, 0⟩, []) ∧
  decode (wordBytes (0xB1#8 ++ 0#6 ++ 32#6 ++ 48#6 ++ 3#3 ++ 1#1 ++ 0#2)) = .ok (.gbwt ⟨0, 32, 48, 3, true, 0, 0⟩, []) ∧
  decode (wordBytes (0xB2#8 ++ 0#6 ++ 32#6 ++ 48#6 ++ 3#3 ++ 1#1 ++ 0#2)) = .ok (.gbset ⟨0, 32, 48, 3, true, 0, 0⟩, []) := by
  and_intros <;> decide +kernel

theorem test_decode_core :
  decode (wordBytes (0xB3#8 ++ 16#6 ++ 32#6 ++ 5#3 ++ 1#1 ++ 0#1 ++ 4#3 ++ 0#4)) = .ok (.racq ⟨16, 32, 5, true, false, 4, 0⟩, []) ∧
  decode (wordBytes (0xB4#8 ++ 16#6 ++ 32#6 ++ 7#3 ++ 0#1 ++ 0#1 ++ 4#3 ++ 0#4)) = .ok (.rcmt ⟨16, 32, 7, false, false, 4, 0⟩, []) ∧
  decode (wordBytes (0xB5#8 ++ 16#6 ++ 32#6 ++ 5#3 ++ 1#1 ++ 0#1 ++ 4#3 ++ 0#4)) = .ok (.rpeek ⟨16, 32, 5, true, false, 4, 0⟩, []) ∧
  decode (wordBytes (0xB6#8 ++ 16#6 ++ 32#6 ++ 5#3 ++ 0#1 ++ 0#1 ++ 4#3 ++ 0#4)) = .ok (.rrel ⟨16, 32, 5, false, false, 4, 0⟩, []) ∧
  decode (wordBytes (0xB7#8 ++ 32#6 ++ 48#6 ++ 4#6 ++ 0#6)) = .ok (.tload ⟨32, 48, 4, 0⟩, []) ∧
  decode (wordBytes (0xB8#8 ++ 32#6 ++ 48#6 ++ 4#6 ++ 0#6)) = .ok (.tstore ⟨32, 48, 4, 0⟩, []) ∧
  decode (wordBytes (0xB9#8 ++ 32#6 ++ 48#6 ++ 4#6 ++ 0#6)) = .ok (.tgath ⟨32, 48, 4, 0⟩, []) ∧
  decode (wordBytes (0xBA#8 ++ 32#6 ++ 48#6 ++ 4#6 ++ 0#6)) = .ok (.tmcast ⟨32, 48, 4, 0⟩, []) ∧
  decode (wordBytes (0xBB#8 ++ 32#6 ++ 48#6 ++ 4#6 ++ 0#6)) = .ok (.nmv ⟨32, 48, 4, 0⟩, []) ∧
  decode (wordBytes (0xBC#8 ++ 32#6 ++ 48#6 ++ 0#6 ++ 0#6)) = .ok (.rgnb ⟨32, 48, 0, 0⟩, []) ∧
  decode (wordBytes (0xBD#8 ++ 0#6 ++ 0#6 ++ 0#6 ++ 7#3 ++ 0#1 ++ 0#2)) = .ok (.rgnc ⟨0, 0, 0, 7, false, 0, 0⟩, []) ∧
  decode (wordBytes (0xBE#8 ++ 0#6 ++ 32#6 ++ 0#6 ++ 3#3 ++ 1#1 ++ 0#2)) = .ok (.rgna ⟨0, 32, 0, 3, true, 0, 0⟩, []) ∧
  decode (wordBytes (0xBF#8 ++ 32#6 ++ 0#6 ++ 0#6 ++ 0#6)) = .ok (.safept ⟨32, 0, 0, 0⟩, []) ∧
  decode (wordBytes (0xC0#8 ++ 0#6 ++ 32#6 ++ 48#6 ++ 3#3 ++ 1#1 ++ 0#2)) = .ok (.free ⟨0, 32, 48, 3, true, 0, 0⟩, []) ∧
  decode (wordBytes (0xC1#8 ++ 0#6 ++ 32#6 ++ 0#6 ++ 3#3 ++ 1#1 ++ 0#2)) = .ok (.yield ⟨0, 32, 0, 3, true, 0, 0⟩, []) ∧
  decode (wordBytes (0xC2#8 ++ 5#3 ++ 0#3 ++ 32#6 ++ 0#6 ++ 3#3 ++ 1#1 ++ 0#2)) = .ok (.ttake ⟨5, 0, 32, 0, 3, true, 0, 0⟩, []) ∧
  decode (wordBytes (0xC3#8 ++ 16#6 ++ 32#6 ++ 5#3 ++ 1#1 ++ 0#1 ++ 4#3 ++ 0#4)) = .ok (.tspawn ⟨16, 32, 5, true, false, 4, 0⟩, []) ∧
  decode (wordBytes (0xC4#8 ++ 0#6 ++ 0#6 ++ 0#6 ++ 3#3 ++ 1#1 ++ 0#2)) = .ok (.ttrig ⟨0, 0, 0, 3, true, 0, 0⟩, []) ∧
  decode (wordBytes (0xC5#8 ++ 32#6 ++ 48#6 ++ 4#6 ++ 0#6)) = .ok (.prim ⟨32, 48, 4, 0⟩, []) ∧
  decode (wordBytes (0xC6#8 ++ 32#6 ++ 48#6 ++ 0#6 ++ 4#6)) = .ok (.coll ⟨32, 48, 0, 4⟩, []) ∧
  decode (wordBytes (0xC7#8 ++ 0#6 ++ 32#6 ++ 0x0#12)) = .ok (.recld ⟨0, 32, 0x0⟩, []) ∧
  decode (wordBytes (0xC8#8 ++ 0#6 ++ 0#6 ++ 0x0#12)) = .ok (.trapu ⟨0, 0, 0x0⟩, []) ∧
  decode (wordBytes (0xC9#8 ++ 0#6 ++ 0#6 ++ 0#6 ++ 7#3 ++ 0#1 ++ 0#2)) = .ok (.rtt ⟨0, 0, 0, 7, false, 0, 0⟩, []) := by
  and_intros <;> decide +kernel

/-! ### Single steps -/

/-- The next state of an instruction. -/
def out (i : Instr) (s : State) : State := match exec i s with
  | .next t => t
  | _ => s
/-- A lane of a register of the wave after an instruction. -/
def vAfter (i : Instr) (s : State) (n : Nat) (lane : Fin 32) : Word := (out i s).cur.vword n lane

/-- R92: 6 + 7. -/
theorem test_iadd : vAfter (.iadd ⟨3, 1, 2, false, false, 7, false, 0⟩) tR 3 31 = 13 := by decide +kernel
/-- R92, R69: a literal source; the sum wraps. -/
theorem test_iadd_wraps : vAfter (.iadd ⟨3, 1, 63, false, false, 7, false, 0xFFFFFFFF⟩) tR 3 0 = 5 := by decide +kernel
/-- R94: a shift by 32 to 63 writes zero. -/
theorem test_shl_all : vAfter (.shl ⟨3, 1, 63, false, false, 7, false, 32⟩) tR 3 0 = 0 := by decide +kernel
/-- R94: an arithmetic shift copies the sign. -/
theorem test_sar : vAfter (.sar ⟨3, 63, 63, false, false, 7, false, 0x80000004⟩) tR 3 0 = 0xF8000000 := by decide +kernel
/-- R98: the signed product of -1 and 7 as a pair. -/
theorem test_imulws : vAfter (.imulws ⟨6, 63, 2, false, false, 7, false, 0xFFFFFFFF⟩) tR 7 3 = 0xFFFFFFFF := by decide +kernel
/-- R107: 1.0 + 1.0 in FP64. -/
theorem test_dadd : vAfter (.dadd ⟨6, 4, 4, false, false, 7, false, 0⟩) tR 7 3 = 0x40000000 := by decide +kernel
/-- R107: 1.0 / 0.0 in FP32 is infinity. -/
theorem test_fdiv : vAfter (.fdiv ⟨3, 63, 4, false, false, 7, false, 0x3F800000⟩) tR 3 0 = 0x7F800000 := by decide +kernel
/-- R42: that division raises DZ, bit 9 of FPC. -/
theorem test_fdiv_flag : (out (.fdiv ⟨3, 63, 4, false, false, 7, false, 0x3F800000⟩) tR).cur.fpc = 0x200 := by decide +kernel
/-- R65: LANE reads the lane's number. -/
theorem test_mov_lane : vAfter (.mov ⟨3, 62, 0, false, false, 7, false, 0⟩) tR 3 17 = 17 := by decide +kernel
/-- R128: rank of lane 3 among all lanes by a predicate that is 1 everywhere. -/
theorem test_vote_rank : vAfter (.vote ⟨3, 7, 0, 2, 0⟩) tR 3 3 = 3 := by decide +kernel
/-- R130: the sum of 32 sixes. -/
theorem test_wred_add : vAfter (.wred ⟨3, 1, 0, 0, 0⟩) tR 3 9 = 192 := by decide +kernel
/-- R102: 6 < 7 in every lane. -/
theorem test_icmp : ((out (.icmp ⟨2, 2, 1, 2, false, false, 7, false, 0⟩) tR).cur.lanes[9]).p 2 = true := by decide +kernel
/-- R120: a branch of -2 words from the next word. -/
theorem test_bra : ((out (.bra ⟨7, false, 0xFFFFE⟩) tR).cur.lanes[9]).pc = 0xFFFFFFFC := by decide +kernel
/-- R124, R151: TRAP counts as executed; its immediate is TINFO. -/
theorem test_trap : (out (.trap ⟨0, 0, 0x123⟩) tR).cur.trapRegs = [4, 4, 0, 0, 0xFFFFFFFF, 0x123, 0x40, 0] := by decide +kernel
/-- R137: 100H + 1. -/
theorem test_uaddi : (out (.uaddi ⟨3, 1, 1⟩) tR).cur.sreg 3 0 = 0x101 := by decide +kernel
/-- R142: a count of 0 becomes FFFFFFFFH and loops. -/
theorem test_uloop : (out (.uloop ⟨2, 0x3FFFF⟩) tR).cur.sreg 2 0 = 0xFFFFFFFF ∧ ((out (.uloop ⟨2, 0x3FFFF⟩) tR).cur.lanes[0]).pc = 0 := by decide +kernel
/-- R145: FEAT0 names version 1.0. -/
theorem test_sread_feat0 : (out (.sread ⟨3, 0, 0x080⟩) tR).cur.sreg 3 0 = 0x100 := by decide +kernel
/-- R146: CLOCKLO. -/
theorem test_sread_clock : (out (.sread ⟨3, 0, 0x008⟩) tR).cur.sreg 3 0 = 100000000 := by decide +kernel

/-! ### States and operands that meet the hypotheses of the statements -/

/-- A lane form is ready on the small module. -/
theorem ready_of (fm : LaneForm) (h1 : tR.cur.guardPois tR.sel.mask fm.g = 0) (h2 : tR.cur.fpc.getLsbD 4 = false) : fm.ready tR := by
  refine ⟨h1, Or.inl h2, ⟨?_, ?_⟩, ?_⟩
  · decide +kernel
  · decide +kernel
  · exact unarmed_of (by decide +kernel)

theorem guards_clean : tR.cur.guardPois tR.sel.mask 7 = 0 ∧ tR.cur.guardPois tR.sel.mask 0 = 0 ∧ tR.cur.fpc.getLsbD 4 = false := by decide +kernel

theorem witness_LaneIntegerResults : (formV3 ⟨3, 1, 2, true, false, 0, true, 0⟩ (fun a b => a + b)).ready tR ∧
    (formPlain 63 false [] (fun _ _ => (0, 0)) (fun _ => 0)).ready tR ∧ tR.cur.guardPois tR.sel.mask 0 = 0 ∧ (⟨3, 0, 0, 0, 0⟩ : VX).fn = 0 :=
  ⟨ready_of _ guards_clean.2.1 guards_clean.2.2, ready_of _ guards_clean.1 guards_clean.2.2, guards_clean.2.1, rfl⟩
theorem witness_LaneWideResults : (formWide ⟨6, 1, 2, true, true, 0, true, 0⟩ (fun a _ => a.setWidth 64)).ready tR :=
  ready_of _ guards_clean.2.1 guards_clean.2.2
theorem witness_LaneFloat32Results : (formF32 ⟨3, 1, 63, false, false, 7, false, 0x3F800000⟩ (fun z => Fp.add Fp.f32 z)).ready tR :=
  ready_of _ guards_clean.1 guards_clean.2.2
theorem witness_LaneFloat64Results : (formF64 ⟨6, 4, 4, true, false, 7, false, 0⟩ (Fp.add Fp.f64 false)).ready tR :=
  ready_of _ guards_clean.1 guards_clean.2.2
theorem witness_LanePackedResults : (formF32 ⟨3, 1, 2, false, false, 7, false, 0⟩ (fun z => packed2 (Fp.add Fp.f16 z))).ready tR :=
  ready_of _ guards_clean.1 guards_clean.2.2
/-- FN 0 to 3 of FSGN, kinds 0 to 2 of DSFU, and a valid format word for NCVT. -/
theorem witness_LaneConversionResults : (formVX ⟨3, 1, 0, 3, 0⟩ (fun _ a => (a.setWidth 64, 0))).ready tR ∧
    (0#6).toNat = 0 ∧ (1#6).toNat = 1 ∧ (2#6).toNat = 2 ∧ (3#6).toNat = 3 ∧
    (0#6).extractLsb' 3 3 = 0#3 ∧ (8#6).extractLsb' 3 3 = 1#3 ∧ (16#6).extractLsb' 3 3 = 2#3 ∧
    ∀ i : Fin 32, tR.sel.mask.getLsbD i.val → Narrow.valid (tR.cur.vsrc 63 0x00000324 i) :=
  ⟨ready_of _ guards_clean.1 guards_clean.2.2, by decide +kernel⟩
/-- FN 0 to 3 of VOTE; a single type and FP64 in WRED and WSCAN. -/
theorem witness_LaneCollectiveResults : (formPlain 3 false (vname 1) (fun _ _ => (0, 0)) (fun _ => 0)).ready tR ∧
    (formWide ⟨6, 1, 0, true, false, 0, false, 0⟩ (fun _ _ => 0)).ready tR ∧
    (0#6).toNat = 0 ∧ (1#6).toNat = 1 ∧ (2#6).toNat = 2 ∧ (3#6).toNat = 3 ∧ (4#6).extractLsb' 1 2 ≠ 3#2 ∧ (6#6).extractLsb' 1 2 = 3#2 :=
  ⟨ready_of _ guards_clean.1 guards_clean.2.2, ready_of _ guards_clean.2.1 guards_clean.2.2, by decide +kernel⟩
theorem witness_LanePredicateResults : (cmpForm ⟨2, 2, 1, 2, true, false, 7, false, 0⟩ (fun _ _ _ => (true, 0))).ready tR ∧
    (1#6 ≠ 0 ∧ tR.unarmed ∧ tR.cur.fpc.getLsbD 4 = false) := by
  refine ⟨⟨guards_clean.1, Or.inl guards_clean.2.2, ?_⟩, by decide, ?_, guards_clean.2.2⟩ <;> exact unarmed_of (by decide +kernel)
theorem unarmed_tR : tR.unarmed := unarmed_of (by decide +kernel)
theorem room_tR : tR.room 1 ∧ tR.room 2 ∧ tR.room 4 := by refine ⟨⟨?_, ?_⟩, ⟨?_, ?_⟩, ?_, ?_⟩ <;> decide +kernel
theorem witness_NopsOnlyAdvance : tR.cur.guardPois tR.sel.mask 0 = 0 ∧ tR.unarmed ∧ tR.cur.qp 0 = false ∧
    (0x00000010 : Word).extractLsb' 24 8 = 0 ∧ (0x00000010 : Word).extractLsb' 4 20 ≠ 0 :=
  ⟨guards_clean.2.1, unarmed_tR, by decide +kernel⟩
/-- v4 holds 0 in every lane, an aligned target. -/
theorem witness_LaneTransfers : tR.unarmed ∧ tR.room 1 ∧ tR.cur.guardPois tR.sel.mask 7 = 0 ∧
    tR.cur.vsrcPois 4 &&& tR.cur.guardLanes tR.sel.mask 7 false = 0 ∧
    (∀ i : Fin 32, (tR.cur.guardLanes tR.sel.mask 7 false).getLsbD i.val → (tR.cur.vsrc 4 0 i).extractLsb' 0 2 = 0#2) :=
  ⟨unarmed_tR, room_tR.1, guards_clean.1, by decide +kernel, by decide +kernel⟩
/-- v1 holds 6 in every lane; lane 0 is the lowest. -/
theorem witness_MisalignedTargetTraps : tR.unarmed ∧ tR.room 1 ∧ tR.cur.guardPois tR.sel.mask 7 = 0 ∧ tR.cur.canTrap ∧
    tR.cur.vsrcPois 1 &&& tR.cur.guardLanes tR.sel.mask 7 false = 0 ∧ (tR.cur.guardLanes tR.sel.mask 7 false).getLsbD 0 = true ∧
    (tR.cur.vsrc 1 0 0).extractLsb' 0 2 ≠ 0#2 ∧ ∀ j : Fin 32, j < 0 → (tR.cur.vsrc 1 0 j).extractLsb' 0 2 = 0#2 := by
  refine ⟨unarmed_tR, room_tR.1, guards_clean.1, ?_, ?_⟩
  · unfold Wave.canTrap; decide +kernel
  · refine ⟨?_, ?_, ?_, ?_⟩ <;> decide +kernel
/-- Guard p0 is 0 everywhere: no thread exits; guard 7: all do. -/
theorem witness_ExitEndsThreads : tR.unarmed ∧ tR.cur.guardPois tR.sel.mask 0 = 0 ∧ tR.cur.guardLanes tR.sel.mask 0 false = 0 ∧
    tR.cur.guardLanes tR.sel.mask 7 false ≠ 0 ∧ tR.cur.live &&& ~~~(tR.cur.guardLanes tR.sel.mask 7 false) = 0 :=
  ⟨unarmed_tR, by decide +kernel⟩
theorem canTrap_tR : tR.cur.canTrap := by unfold Wave.canTrap; decide +kernel
theorem witness_SoftwareTraps : tR.cur.canTrap ∧ tR.unarmed ∧ tR.cur.guardPois tR.sel.mask 7 = 0 ∧ (tR.context tR.cur.ctx).debugger = false ∧
    tR.cur.guardLanes tR.sel.mask 7 false ≠ 0 := ⟨canTrap_tR, unarmed_tR, by decide +kernel⟩
theorem witness_IllegalWordsTrap : tR.cur.canTrap := canTrap_tR
/-- The small module at handler level. -/
def tHandler : State := tW (fun w => { regs w with handler := true, tmask := 1, tpc := 8 })
theorem witness_RttReturns : tHandler.cur.handler = true ∧ tR.cur.handler = false ∧ (0xC9000000 : Word).extractLsb' 24 8 = 0xC9 ∧
    (0xC9000000 : Word).extractLsb' 3 3 ≠ 7 := by decide +kernel
theorem witness_NestedTrapEndsContext : tHandler.cur.handler = true ∧ ∀ p ∈ tHandler.passes, p.ctx ≠ tHandler.cur.ctx := by decide +kernel

/-- A uniform guard that is clean and true. -/
theorem witness_UniformResults : (uniOne 7 false 3 (fun _ => (0, false))).ready tR ∧ (uniOne 0 true 3 (fun _ => (0, false))).ready tR ∧ tR.cur.qp 0 = false := by
  refine ⟨?_, ?_, ?_⟩ <;> (try unfold UniForm.ready) <;> decide +kernel
theorem witness_UniformTransfers : (uniJump 7 false (fun _ => 0)).ready tR ∧ tR.cur.sregPois 1 = false ∧ (tR.cur.sreg 1 0).extractLsb' 0 2 = 0#2 := by
  refine ⟨?_, ?_, ?_⟩ <;> (try unfold UniForm.ready) <;> decide +kernel
theorem witness_RdlaneReads : tR.unarmed ∧ tR.cur.fpc.getLsbD 4 = false ∧ (uniOne 7 false 3 (fun _ => (0, false))).ready tR :=
  ⟨unarmed_tR, guards_clean.2.2, witness_UniformResults.1⟩
/-- q0 is clean and 0; and the same wave with q0 poisoned. -/
theorem witness_UniformGuards : (∃ f : U3, f.qg = 0#3 ∧ f.qn = false ∧ Instr.unop ⟨0, 0, 0, 0, false, 0, 0⟩ = .unop f) ∧
    (tR.cur.qp 0 = false ∧ tR.cur.q 0 = false) ∧ (tW (fun w => { regs w with qPois := 1 })).cur.qp 0 = true ∧
    (tW (fun w => { regs w with qPois := 1 })).cur.handler = false :=
  ⟨⟨⟨0, 0, 0, 0, false, 0, 0⟩, rfl, rfl, rfl⟩, by decide +kernel⟩

/-- A debugger is attached to the context. -/
def tDebug : State := { tC (fun c => { c with debugger := true, matches_ := [0] }) with waves := [(⟨0, 0⟩, regs (tS.wave ⟨0, 0⟩))] }
/-- Indexes at both ends of each group: of every level, of the handler's, of the debugger's. -/
theorem witness_SpecialRegisterReads : (uniOne 7 false 3 (fun _ => (0, false))).ready tR ∧ (0x000#12).toNat = 0x000 ∧ (0x092#12).toNat = 0x092 ∧
    tHandler.cur.handler = true ∧ (0x040#12).toNat = 0x040 ∧ (0x047#12).toNat = 0x047 ∧ (tDebug.context tDebug.cur.ctx).debugger = true :=
  ⟨witness_UniformResults.1, by decide +kernel⟩
theorem witness_ClockReadsLatch : (0x008#12).toNat = 0x008 ∧ (0x00A#12).toNat = 0x00A ∧ tR.hasWave ⟨0, 0⟩ = true := by decide +kernel
/-- s2 is 0, a rounding mode and an aligned PC. -/
theorem witness_SpecialRegisterWrites : tR.cur.sregPois 2 = false ∧ (tR.cur.sreg 2 0).extractLsb' 0 3 ≤ 4#3 ∧ tHandler.cur.sregPois 2 = false ∧
    tHandler.cur.handler = true ∧ (tHandler.cur.sreg 2 0).extractLsb' 0 2 = 0#2 := by decide +kernel
/-- Indexes at both ends of each group; outside handler level, with no debugger, and with a poisoned source. -/
theorem witness_SpecialRegisterFates : tR.cur.canTrap ∧ tR.cur.handler = false ∧ (tR.context tR.cur.ctx).debugger = false ∧
    (0x040 ≤ (0x040#12).toNat ∧ (0x047#12).toNat ≤ 0x047) ∧ (0x00C ≤ (0x00C#12).toNat ∧ (0xFFF#12).toNat ≥ 0x093) ∧
    (0x002 ≤ (0x002#12).toNat ∧ (0x083#12).toNat ≤ 0x083) ∧ (tW (fun w => { regs w with sPois := 4 })).cur.sregPois 2 = true ∧
    (tW (fun w => { regs w with sPois := 4 })).cur.tvec ≠ 0 := ⟨canTrap_tR, by decide +kernel⟩
/-- ARM with UNIT 4, LANE 31 and NTH 1; and no ARM. -/
theorem witness_ErrinjArms : ((0xCF801000#32).extractLsb' 28 3).toNat ≤ 4 ∧ (0xCF801000#32).getLsbD 31 = true ∧ (0xCF801000#32).extractLsb' 12 11 ≠ 0#11 ∧
    (0#32).getLsbD 31 = false ∧ tDebug.hasWave ⟨0, 0⟩ = true ∧ (tDebug.context (tDebug.wave ⟨0, 0⟩).ctx).debugger = true ∧
    tDebug.cur.sregPois 2 = false ∧ tDebug.cur.sreg 2 0 = 0 := by decide +kernel
theorem witness_FreeClearsClaims : tR.cur.qp 7 = false ∧ tR.cur.q 7 ≠ false ∧ tR.cur.qp 0 = false ∧ tR.cur.q 0 = false ∧
    (0xC0FC0038 : Word).extractLsb' 24 8 = 0xC0 ∧ (0xC0FC0038 : Word).extractLsb' 18 6 ≠ 0 := by decide +kernel
theorem witness_YieldSpans : tR.cur.qp 7 = false ∧ tR.cur.q 7 ≠ false ∧ tR.hasWave ⟨0, 0⟩ = true := by decide +kernel
/-- No pre-emption asked; and one asked. -/
theorem witness_SafepointStops : tR.curTeam.preempt = none ∧ (tT (fun t => { t with preempt := some (.thermal, 0) })).curTeam.preempt ≠ none ∧
    (tT (fun t => { t with preempt := some (.thermal, 0) })).cur.holdsSection = false ∧ (tT (fun t => { t with preempt := some (.thermal, 0) })).cur.handler = false := by
  decide +kernel
theorem witness_AddressMatchStops : tDebug.hasWave ⟨0, 0⟩ = true ∧ (tDebug.context (tDebug.wave ⟨0, 0⟩).ctx).debugger = true ∧
    0 ∈ (tDebug.context (tDebug.wave ⟨0, 0⟩).ctx).matches_ ∧ (tDebug.wave ⟨0, 0⟩).dbgStopped = false ∧ (tDebug.wave ⟨0, 0⟩).lanes[0].status = .live ∧
    (tDebug.wave ⟨0, 0⟩).lanes[0].block = .none ∧ (tDebug.wave ⟨0, 0⟩).lanes[0].stopped = false ∧ (tDebug.wave ⟨0, 0⟩).lanes[0].pc = 0 ∧
    (tDebug.wave ⟨0, 0⟩).matchSkip.getLsbD 0 = false := by decide +kernel

/-! A data page of 64 KiB at virtual address 10000H, a record of it in b1 (stride 4, readable and writable), its address in s4:s5,
and lanes 0 and 1 selected. -/

def dataRecord : BitVec 128 := BitVec.ofNat 128 (0x10000 + 3 * 2 ^ 56 + 0x1000 * 2 ^ 64 + 4 * 2 ^ 96)
def tM : State := { tW (fun w => { regs w with brecs := w.brecs.set 1 dataRecord, sregs := ((w.sregs.set 1 0x100).set 2 0).set 4 0x10000 }) with
  mem := cellPut tR.mem 0x40008 (leBytes 8 (Pte.mk 0x60000 true true false 0 0 0 false).toNat), sel := ⟨⟨0, 0⟩, 3, 0, 4, 0, .lane, 0⟩ }

/-- Every line of an access translates to an address outside the fabric window. -/
def reachesB (s : State) (lanes : List (Fin 32 × List Nat)) (acc : Access) : Bool :=
  lanes.all (fun l => l.2.all (fun va => match s.translate s.cur.ctx (lineAddr va) acc with
    | .ok pa _ _ => !s.isFabric pa
    | _ => false))
theorem reaches_of (s : State) (lanes acc fab) (h : reachesB s lanes acc = true) : s.reaches lanes acc fab := by
  intro l hl va hva
  have h2 := List.all_eq_true.mp (List.all_eq_true.mp h l hl) va hva
  split at h2
  · rename_i pa e ea hx
    exact ⟨pa, e, ea, hx, Or.inr (by simpa using h2)⟩
  · cases h2
/-- And its pages hold plain data. -/
def plainB (s : State) (lanes : List (Fin 32 × List Nat)) (acc : Access) : Bool :=
  lanes.all (fun l => l.2.all (fun va => match s.translate s.cur.ctx (lineAddr va) acc with
    | .ok _ e _ => Pte.state e == 0 && !Pte.psn e && Pte.mtype e != 1
    | _ => true))
theorem plain_of (s : State) (lanes acc) (h : plainB s lanes acc = true) : ∀ l ∈ lanes, ∀ va ∈ l.2, s.plainPage va acc := by
  intro l hl va hva pa e ea hx
  have h2 := List.all_eq_true.mp (List.all_eq_true.mp h l hl) va hva
  rw [hx] at h2
  simpa [plainEntry, and_assoc] using h2

theorem unarmed_tM : tM.unarmed := unarmed_of (by decide +kernel)
theorem begins_tM (reads n) (h : n ≤ 16) : tM.begins reads n := by
  refine ⟨Or.inl (by decide +kernel), Or.inr ⟨by decide +kernel, le_trans h (by decide +kernel)⟩, unarmed_tM⟩
theorem accessible_tM (a : BitVec 6) (imm width : Nat) (acc : Access) (h0 : tM.sel.mask &&& tM.cur.vsrcPois a = 0)
    (h : ∀ i : Fin 32, Rec.addr dataRecord i.val (tM.cur.elem a imm i) % Rec.align dataRecord width = 0)
    (hr : reachesB tM (tM.accessLanes a 1 imm width) acc = true) : tM.Accessible a 1 imm width acc where
  valid := by decide +kernel
  clean := ⟨by decide +kernel, h0⟩
  permitted := ⟨Or.inr (by decide +kernel), Or.inr (by decide +kernel)⟩
  inside := Or.inl (by decide +kernel)
  aligned := fun i _ _ => h i
  mapped := reaches_of _ _ _ _ hr
/-- Loads of each width at index 0, and indexes that are no multiple of the width are not aligned. -/
theorem accessible4 (width : Nat) (h : width = 1 ∨ width = 2 ∨ width = 4 ∨ width = 8 ∨ width = 16) (acc : Access)
    (ha : acc = .read ∨ acc = .write ∨ acc = .atomic) : tM.Accessible 4 1 0 width acc := by
  apply accessible_tM
  · decide +kernel
  · rcases h with h | h | h | h | h <;> subst h <;> decide +kernel
  · rcases ha with ha | ha | ha <;> subst ha <;> rcases h with h | h | h | h | h <;> subst h <;> decide +kernel

theorem witness_LoadsIssue : tM.begins (vname 4) 4 ∧ tM.Accessible 4 1 0 16 .read ∧ tM.Accessible 4 1 0 1 .read ∧
    tM.cur.spairPois 4 = false ∧ va56 ((tM.cur.spair 4).toNat % 2 ^ 56 + 16 * 0) % 16 = 0 ∧
    tM.reaches [((lowestLane tM.sel.mask).getD 0, (List.range 16).map (fun j => va56 (va56 ((tM.cur.spair 4).toNat % 2 ^ 56 + 16 * 0) + j)))] .read true ∧
    tM.sel.mask ≠ 0 ∧ tM.struckHeld tM.cur.team ((tM.accessLanes 4 1 0 16).flatMap Prod.snd) = none :=
  ⟨begins_tM _ _ (by decide), accessible4 16 (by decide) _ (by decide), accessible4 1 (by decide) _ (by decide), by decide +kernel, by decide +kernel,
    reaches_of _ _ _ _ (by decide +kernel), by decide +kernel, by decide +kernel⟩
theorem net_tM : tM.net = [] := by decide +kernel
/-- A region of team 0 that is open. -/
def tRgn : State := tM.modTeam 0 (fun t => { t with region := some ⟨⟨[], [], [], [], [], [], []⟩, [], [], false, false, [], []⟩, rgnstat := 1 })
theorem witness_StoresIssue : tM.begins (vname 4 ++ vnames 8 4) 0 ∧ tM.Accessible 4 1 0 16 .write ∧ tM.Accessible 4 1 0 1 .write ∧ tM.idsRise ∧
    tM.l1Room (tM.accessLanes 4 1 0 16) ∧ (∀ l ∈ tM.accessLanes 4 1 0 16, ∀ va ∈ l.2, tM.plainPage va .write) ∧
    tM.regionOpen tM.cur.team = false ∧ tM.accessLanes 4 1 0 16 ≠ [] ∧
    tM.noneHeldBack ∧ tM.sel.key.slot < 64 ∧ tRgn.regionOpen tRgn.cur.team = true := by
  refine ⟨⟨Or.inl (by decide +kernel), Or.inl rfl, unarmed_tM⟩, accessible4 16 (by decide) _ (by decide), accessible4 1 (by decide) _ (by decide), ?_, ?_,
    plain_of _ _ _ (by decide +kernel), ?_, ?_, ?_, ?_, ?_⟩
  · exact ⟨fun q hq => absurd hq (by rw [net_tM]; exact List.not_mem_nil), by decide +kernel⟩
  · unfold State.l1Room; decide +kernel
  · decide +kernel
  · decide +kernel
  · exact fun q hq => absurd hq (by rw [net_tM]; exact List.not_mem_nil)
  all_goals decide +kernel
theorem witness_AtomicsIssue : tM.begins (vname 4 ++ vnames 1 (atomRegs 0)) 2 ∧ tM.Accessible 4 1 0 4 .atomic ∧ tM.Accessible 4 1 0 8 .atomic ∧
    (∀ l ∈ tM.accessLanes 4 1 0 4, ∀ va ∈ l.2, tM.isFabric (lineAddr (tM.paOf tM.cur.ctx (lineAddr va) .atomic)  + va % 128) = false) ∧
    (∀ l ∈ tM.accessLanes 4 1 0 4, ∀ va ∈ l.2, tM.plainPage va .atomic) ∧ tM.regionOpen tM.cur.team = false ∧ tRgn.regionOpen tRgn.cur.team = true ∧ tRgn.cur.canTrap :=
  ⟨begins_tM _ _ (by decide), accessible4 4 (by decide) _ (by decide), accessible4 8 (by decide) _ (by decide), by decide +kernel,
    plain_of _ _ _ (by decide +kernel), by decide +kernel, by decide +kernel, by unfold Wave.canTrap; decide +kernel⟩

/-- Lane 0 alone; and the module after a load, a store with .BYPASS, an atomic at crew scope and a plain store of it. -/
def tO : State := { tM with sel := ⟨⟨0, 0⟩, 1, 0, 4, 0, .lane, 0⟩ }
def tLd : State := out (.ldw ⟨8, 4, 1, 0, 0⟩) tO
def tSb : State := out (.stw ⟨1, 4, 1, 2, 0⟩) tO
def tAt : State := out (.atom ⟨1, 4, 1, 0, 2, false⟩) tO
def tSt : State := out (.stw ⟨1, 4, 1, 0, 0⟩) tO
/-- The one request of a state, and the one operation of the wave. -/
def aReq (s : State) : Request := s.net.headD
  { id := 0, by_ := .core 0, core := 0, tag := 0, gen := 0, key := ⟨0, 0⟩, op := 0, sharers := [], ctx := 0, vline := 0, pline := 0, kind := .read false false,
    owners := [], epoch := 0, number := 0, stamp := 0, born := 0, performed := false, reply := none, noInstall := false, noShare := false, dead := false,
    tries := 0, retryAt := 0, leg := .toHome, spot := .outside, seat := 0, injected := 0, movedAt := 0, recoveries := 0 }
def anOp (s : State) : Op := s.cur.ops.headD ⟨0, .ld, 0, 0, .stsr [], false, none, 0⟩
def got : Res → State → State
  | .next t, _ => t
  | _, s => s
/-- The requests stand at the agent that they are bound for. -/
def stand (leg : Leg) (s : State) : State := { s with net := s.net.map (fun q => { q with spot := .there, leg := leg, tag := 0 }) }
/-- The request is performed at its home; its reply reaches its core. -/
def tHome (s : State) : State := got (execL2Request (aReq s).id (stand .toHome s)) s
def tFill (s : State) : State := got (execRequestStep (aReq s).id (stand .backHere (tHome s))) s
def loadAccs (s : State) : List LaneAcc := (anOp s).kind.accs

/-- R184, R185: a stored word is loaded back through the L1, by the bytes that it holds. -/
theorem test_store_load : vAfter (.loadDataArrival ⟨0, 0⟩ 2) (out (.ldw ⟨8, 4, 1, 0, 0⟩) { tSt with sel := tO.sel }) 8 0 = 6 := by decide +kernel
/-- R188: an atomic addition at crew scope writes the sum home. -/
theorem test_atom_home : cellTake (tHome tAt).mem 0x60000 4 = [6, 0, 0, 0] := by decide +kernel
/-- R193, R289: the answered load brings the home's bytes. -/
theorem test_load_home : vAfter (.loadDataArrival ⟨0, 0⟩ 1) (tFill { tLd with mem := cellPut tLd.mem 0x60000 [0x78, 0x56, 0x34, 0x12] }) 8 0 = 0x12345678 := by
  decide +kernel

theorem witness_LoadArrival : ((tFill tLd).wave ⟨0, 0⟩).op 1 = some (anOp (tFill tLd)) ∧ (anOp (tFill tLd)).done = false ∧
    (anOp (tFill tLd)).kind = .load 8 4 false 0 none none (loadAccs (tFill tLd)) ∧ (tFill tLd).replied ⟨0, 0⟩ 1 = true ∧
    ((loadAccs (tFill tLd)).map LaneAcc.lane).Nodup ∧ 8 + (4 + 3) / 4 ≤ 62 ∧ (((tFill tLd).wave ⟨0, 0⟩).row 8).isSome ∧
    (loadAccs (tFill tLd)).map LaneAcc.value = [some (List.replicate 4 ⟨0, false⟩)] := by decide +kernel

/-! Stores acknowledged; a release as it waits, pushes and is sent; requests of the three kinds at their homes; an error in the L2; a read at its
slice, and the slice's fill; an eviction, a timeout, a stale reply, a packet too old. -/
theorem witness_MemoryEvents_acks : ((tFill tSb).wave ⟨0, 0⟩).op 1 = some (anOp (tFill tSb)) ∧ (anOp (tFill tSb)).done = false ∧
    (anOp (tFill tSb)).kind = .store true (loadAccs (tFill tSb)) ∧ (tFill tSb).replied ⟨0, 0⟩ 1 = true := by decide +kernel
def tRel : State := out (.strl ⟨1, 4, 1, false, 2, 0⟩) tO
def tRelP : State := out (.storeAcknowledge ⟨0, 0⟩ 1) tRel
def tRelS : State := out (.storeAcknowledge ⟨0, 0⟩ 1) tRelP
def relIn (s : State) (st : RelStep) : Bool := (s.wave ⟨0, 0⟩).op 1 == some (anOp s) && !(anOp s).done && (anOp s).kind == .release 2 (loadAccs s) st
theorem witness_MemoryEvents_release : relIn tRel .waits = true ∧ tRel.releaseReady ⟨0, 0⟩ 1 2 = true ∧ relIn tRelP (.pushes tRelP.nextId) = true ∧
    tRelP.pushing (tRelP.wave ⟨0, 0⟩).uid tRelP.nextId (tRelP.heldBackLines ⟨0, 0⟩) = false ∧
    relIn tRelS .sent = true ∧ relIn (tFill tRelS) .sent = true ∧ (tFill tRelS).replied ⟨0, 0⟩ 1 = true := by decide +kernel
theorem test_release_home : cellTake (tHome tRelS).mem 0x60000 4 = [6, 0, 0, 0] := by decide +kernel
/-- A request is the first at its home. -/
def atHome (s : State) : Bool := (stand .toHome s).req (aReq s).id == some (aReq (stand .toHome s)) && !s.isFabric (aReq s).pline &&
  (stand .toHome s).homeFirst (aReq (stand .toHome s)) && s.upsets == []
theorem witness_MemoryEvents_home : (atHome tLd ∧ (aReq tLd).kind = .read false false) ∧ (atHome tSb ∧ (aReq tSb).kind.writes) ∧
    (atHome tAt ∧ (aReq tAt).kind = .atomic 0 true (loadAccs tAt) ∧ (loadAccs tAt).length = 1) := by decide +kernel
/-- A correctable error and an uncorrectable one in a line that the L2 holds, the same way struck within the hour. -/
def tUpset (hard : Bool) : State :=
  { tLd.modDie (tLd.homeDie 0x60000) (fun d => { d with l2 := [⟨0x60000, 3, 1⟩], wayErrs := [(.ofL2 0x60000, 3, tLd.clock)] }) with
    upsets := [⟨tLd.homeDie 0x60000, false, 0x60000, hard⟩] }
theorem witness_MemoryEvents_upset : ∀ hard, atHome { tUpset hard with upsets := [] } ∧ (aReq (tUpset hard)).kind = .read false false ∧
    (aReq (tUpset hard)).pline = 0x60000 ∧ ((tUpset hard).die (tLd.homeDie 0x60000)).l2 = [⟨0x60000, 3, 1⟩] ∧
    ((tUpset hard).die (tLd.homeDie 0x60000)).retiredWays (.ofL2 0x60000) = 0 := by decide +kernel
theorem test_upset_counted : ((tHome (tUpset false)).die (tLd.homeDie 0x60000)).counters.l2ce = 1 ∧
    ((tHome (tUpset true)).die (tLd.homeDie 0x60000)).counters.l2ue = 1 ∧ (tHome (tUpset true)).poisoned = [0x60000 / 32] := by decide +kernel
/-- A line that a remote-data slice holds, and a read of it that has come there. -/
def tNear : State := (stand .toSlice tLd).modDie 0 (fun d => d.installCopy 0x60000 (List.replicate 128 ⟨7, false⟩) 0)
theorem witness_MemoryEvents_slice : tNear.req (aReq tNear).id = some (aReq tNear) ∧ (aReq tNear).spot = .there ∧ (aReq tNear).leg = .toSlice ∧
    (aReq tNear).kind = .read false false ∧ (aReq tNear).pline = 0x60000 ∧ ((tNear.die 0).copy 0x60000).map Copy.bytes = some (List.replicate 128 ⟨7, false⟩) ∧
    tNear.upsets = [] := by decide +kernel
/-- The answered fill of a slice, and a read that waits for it there. -/
def tFar : State := { tLd with net :=
  [{ aReq tLd with id := 900, by_ := .slice 0 (sliceOf 0x60000), leg := .backHere, spot := .there, performed := true, reply := some (List.replicate 128 ⟨0, false⟩) },
   { aReq tLd with leg := .toSlice, spot := .there }] }
theorem witness_MemoryEvents_fill : tFar.req 900 = some (aReq tFar) ∧ (aReq tFar).by_.isSlice = true ∧ (aReq tFar).home = true ∧ (aReq tFar).dead = false ∧
    (aReq tFar).noInstall = false ∧ (aReq tFar).reply = some (List.replicate 128 ⟨0, false⟩) ∧ tFar.pendingWrites 0 0x60000 = [] ∧ (aReq tFar).core = 0 ∧
    (aReq tFar).epoch = (tFar.die 0).epoch ∧ (tFar.waitingFor (aReq tFar)).length = 1 := by decide +kernel
theorem test_fill_copies : (((out (.rdcFill 900) tFar).die 0).copy 0x60000).map Copy.bytes = some (List.replicate 128 ⟨0, false⟩) ∧
    (out (.rdcFill 900) tFar).net.map Request.performed = [true] := by decide +kernel
theorem witness_MemoryEvents_eviction : ((tSt.core 0).l1.find? (fun l => l.ctx = 0 ∧ l.vline = 65536)).isSome ∧
    ((tSt.core 0).l1.find? (fun l => l.ctx = 0 ∧ l.vline = 65536)).map Line.held = some none := by decide +kernel
theorem test_eviction : cellTake (tHome (out (.l1Eviction 0 0 65536) tSt)).mem 0x60000 4 = [6, 0, 0, 0] := by decide +kernel
def tLate : State := { stand .toHome tLd with clock := tLd.clock + 75000 }
theorem witness_MemoryEvents_timeout : tLate.req (aReq tLate).id = some (aReq tLate) ∧ (aReq tLate).dead = false ∧ (aReq tLate).tag < 1024 ∧
    (aReq tLate).born + tLate.timeoutOf (aReq tLate) ≤ tLate.clock ∧ (tLate.wave (aReq tLate).key).op (aReq tLate).op = some (anOp tLate) ∧
    (anOp tLate).fail = none ∧ (aReq tLate).owners = [] ∧ (aReq tLate).sharers = [] := by decide +kernel
def tStale : State := { tLd with net := [{ aReq tLd with dead := true, leg := .backHere, spot := .there }] }
theorem witness_MemoryEvents_stale : tStale.req (aReq tStale).id = some (aReq tStale) ∧ (aReq tStale).dead = true ∧ (aReq tStale).home = true := by decide +kernel
def tOld : State := { tLd with clock := tLd.clock + 75001, net := [{ aReq tLd with leg := .backHere, spot := .input 3 7, injected := tLd.clock }] }
theorem witness_MemoryEvents_old : tOld.req (aReq tOld).id = some (aReq tOld) ∧ (aReq tOld).spot = .input 3 7 ∧ (aReq tOld).injected + 75000 < tOld.clock ∧
    (aReq tOld).cls = 1 := by decide +kernel

/-- A scratchpad of 64 KiB; s6 = 2 names a counted barrier of 2 arrivals, s7 = 1000000H one of the team's waves; lanes 0 and 1 selected. -/
def tP : State := (tW (fun w => { regs w with sregs := ((((w.sregs.set 1 0x100).set 2 0).set 4 0x10000).set 6 2).set 7 0x1000000 })).modTeam 0
  (fun t => { t with spSize := 0x10000, liveWaves := 2 })
def tQ : State := { tP with sel := ⟨⟨0, 0⟩, 3, 0, 4, 0, .lane, 0⟩ }
theorem begins_tQ (reads n) (h : n ≤ 16) : tQ.begins reads n :=
  ⟨Or.inl (by decide +kernel), Or.inr ⟨by decide +kernel, le_trans h (by decide +kernel)⟩, unarmed_of (by decide +kernel)⟩
/-- v4 = 0 in every lane; a remote store to member 0 at offset 0. -/
theorem witness_ScratchpadAccesses : tQ.begins (vname 4) 4 ∧ tQ.spReaches 4 0 16 true ∧ tQ.spReaches 4 0 4 false ∧ Memory.wf tQ.curTeam.sp ∧
    tQ.regionOpen tQ.cur.team = false ∧ tQ.sel.mask &&& tQ.cur.vsrcPois 4 = 0 ∧
    (tQ.memberTeam tQ.curTeam.crew 0 = some 0 ∧ (0, 0) ∉ (tQ.core tQ.sel.key.core).armedMap) ∧ tQ.cur.spAddr 4 0 0 = 0 ∧
    (out (.stsr ⟨1, 4, 0⟩) tO).cur.ops = [] := by
  refine ⟨begins_tQ _ _ (by decide), ⟨by decide +kernel, by decide +kernel⟩, ⟨by decide +kernel, by decide +kernel⟩, ?_⟩
  decide +kernel
/-- R268: the remote store of one lane lands at its event. -/
def tRs : State := out (.stsr ⟨1, 4, 0⟩) { tQ with sel := ⟨⟨0, 0⟩, 1, 0, 4, 0, .lane, 0⟩ }
theorem witness_ScratchpadAccesses_remote : (tRs.wave ⟨0, 0⟩).op (anOp tRs).id = some (anOp tRs) ∧ (anOp tRs).kind = .stsr [⟨0, 0, 6, false, false⟩] ∧
    (anOp tRs).done = false ∧ tRs.cur.ops = [anOp tRs] := by decide +kernel
theorem test_stsr : (out (.stsrPerform ⟨0, 0⟩ (anOp tRs).id) tRs).curTeam.spWord 0 = 6 := by decide +kernel
/-- R192: two lanes add 6 to one word; each returns what it found. -/
theorem test_atoms : (out (.atoms ⟨1, 4, 0, false, 0⟩) tQ).curTeam.spWord 0 = 12 ∧ vAfter (.atoms ⟨1, 4, 0, false, 0⟩) tQ 1 1 = 6 := by decide +kernel

/-- With nothing outstanding; with one load above a threshold of 0; with a failure due. -/
def aFail : Pending := ⟨7, .ld, 0, ⟨0x0C, 1, 0x1234, 0, true⟩⟩
def tPend : State := tW (fun w => { regs w with pend := [aFail] })
theorem oldestDue_of (w : Wave) (h : w.pend = [aFail]) (l : List Sys2Proof.Machine.Class) (hl : Sys2Proof.Machine.Class.ld ∈ l) : w.oldestDue l aFail :=
  ⟨⟨by rw [h]; exact List.mem_singleton.mpr rfl, hl, Or.inl rfl⟩,
    fun p' hp hne => absurd (List.mem_singleton.mp (h ▸ hp.1)) hne⟩
theorem witness_CounterWaits : tR.cur.pend = [] ∧ tR.cur.count .ld ≤ 0 ∧ ¬ (tLd.cur.count .ld ≤ 0) ∧ tPend.cur.oldestDue [.ld] aFail ∧
    tPend.cur.count .ld ≤ 0 ∧ tPend.cur.canTrap := by
  refine ⟨by decide +kernel, by decide +kernel, by decide +kernel, oldestDue_of _ (by decide +kernel) _ (by decide), by decide +kernel, ?_⟩
  unfold Wave.canTrap; decide +kernel
def tWaited (why : WaitWhy) : State := tP.modWave ⟨0, 0⟩ (fun w => { w with waits := [⟨3, 0, 4, 0, 1, why⟩] })
def aWait (why : WaitWhy) : Wait := ⟨3, 0, 4, 0, 1, why⟩
theorem canEnd_tWaited (why : WaitWhy) (h : (tWaited why).wave ⟨0, 0⟩ = { tP.wave ⟨0, 0⟩ with waits := [aWait why] }) : ((tWaited why).wave ⟨0, 0⟩).canEnd (aWait why) := by
  rw [h]; exact fun i _ => (by decide +kernel : ∀ i : Fin 32, (tP.wave ⟨0, 0⟩).lanes[i].stopped = false) i
theorem witness_CounterWaits_end : ((tWaited (.counters [(.ld, 0)])).wave ⟨0, 0⟩).waitAt 0 = some (aWait (.counters [(.ld, 0)])) ∧
    ((tWaited (.counters [(.ld, 0)])).wave ⟨0, 0⟩).canEnd (aWait (.counters [(.ld, 0)])) ∧ ((tWaited (.counters [(.ld, 0)])).wave ⟨0, 0⟩).count .ld ≤ 0 ∧
    ((tWaited (.counters [(.ld, 0)])).wave ⟨0, 0⟩).pend = [] :=
  ⟨by decide +kernel, canEnd_tWaited _ (by decide +kernel), by decide +kernel, by decide +kernel⟩
theorem witness_CounterWaits_due : ((tWaited (.counters [(.ld, 0)])).modWave ⟨0, 0⟩ (fun w => { w with pend := [aFail] })).cur.oldestDue [.ld] aFail :=
  oldestDue_of _ (by decide +kernel) _ (by decide)
/-- A full fence at package scope and a release at wave scope, each alone. -/
def tFence (kind : BitVec 2) (scope : Nat) (pushed : Option Nat) : State := tW (fun w => { regs w with fences := [⟨.fence kind, scope, 5, pushed⟩] })
theorem witness_FencesAct : ((tFence 0 4 none).wave ⟨0, 0⟩).fences = ⟨.fence 0, 4, 5, none⟩ :: [] ∧ ((tFence 0 4 none).wave ⟨0, 0⟩).earlierDone 5 [.ld] = true ∧
    (∀ kind ∈ [1#2, 2#2], ((tFence kind 4 (some 5)).wave ⟨0, 0⟩).fences = ⟨.fence kind, 4, 5, some 5⟩ :: [] ∧
      (tFence kind 4 (some 5)).pushing ((tFence kind 4 (some 5)).wave ⟨0, 0⟩).uid 5 [] = false) ∧
    ∀ scope ∈ [1, 2], ((tFence 2 scope none).wave ⟨0, 0⟩).fences = ⟨.fence 2, scope, 5, none⟩ :: [] ∧ (tFence 2 scope none).releaseReady ⟨0, 0⟩ 5 scope = true := by
  decide +kernel
/-- R197: an acquire at package scope drops the die's remote copies. -/
theorem test_fence_acquire : ((out (.fenceActionComplete ⟨0, 0⟩) (tFence 0 4 none)).die 0).epoch = 1 := by decide +kernel

/-! Barriers: object 100H free; armed with a count of 2, at generation 5; the same of the team's waves, with and without this wave's arrival. -/

theorem atObject_of (s : State) (f : U3) (h : s.cur.qp f.qg = false ∧ s.cur.q f.qg ≠ f.qn ∧ s.cur.sregPois f.a = false ∧ (s.cur.sreg f.a f.lit).toNat % 16 = 0 ∧
    (s.cur.sreg f.a f.lit).toNat + 16 ≤ s.curTeam.spSize ∧ (s.cur.errinj.getLsbD 31 = false ∧ s.cur.rows.all (fun r => r.2.par == 0) = true ∧ s.curTeam.spPar = []) ∧
    s.curTeam.objPois (s.cur.sreg f.a f.lit).toNat = false) : s.AtObject f :=
  ⟨⟨h.1, h.2.1⟩, ⟨h.2.2.1, h.2.2.2.1, h.2.2.2.2.1⟩, unarmed_of h.2.2.2.2.2.1, h.2.2.2.2.2.2⟩
def tObj (arrived : Word) (flags : Word) (mask : LaneMask) : State := tP.modTeam 0 (fun t =>
  { ((((t.putWord 0x100 2 false).putWord 0x104 arrived false).putWord 0x108 5 false).putWord 0x10C flags false) with armed := [0x10], arrived := [(0x100, mask)] })
def fObj : U3 := ⟨8, 1, 6, 7, false, 0, 0⟩
theorem witness_BarrierArming : tP.AtObject fObj ∧ tP.cur.sregPois 6 = false ∧ ctlIllegal (tP.cur.sreg 6 0) = false ∧ tP.cur.sreg 6 0 ≠ 0 ∧
    tP.curTeam.isArmed 0x100 = false ∧ (tObj 0 1 0).AtObject fObj ∧ (tObj 0 1 0).curTeam.isArmed 0x100 = true ∧ (tObj 0 1 0).cur.sreg 2 0 = 0 ∧
    (tObj 0 1 0).curTeam.arrivedAt 0x100 = 0 ∧ (tObj 0 1 0).waitedOn 0 0x100 = false ∧ (tObj 0 1 0).cur.canTrap ∧ ctlIllegal 0 = false ∧ tP.armingAt 0 0x100 = false ∧
    (tObj 0 1 0).armingAt 0 0x100 = false ∧ (tWaited (.arming 0x100 2 [])).armingAt 0 0x100 = true := by
  refine ⟨atObject_of _ _ (by decide +kernel), by decide +kernel, by decide +kernel, by decide +kernel, by decide +kernel, atObject_of _ _ (by decide +kernel),
    by decide +kernel, by decide +kernel, by decide +kernel, by decide +kernel, ?_, by decide +kernel⟩
  unfold Wave.canTrap; decide +kernel
/-- The core has no earlier remote store under way, or one; its answer waits for those before 9, and they have landed. -/
def tRsArming : State := tRs.modWave ⟨0, 0⟩ (fun w => { w with waits := [aWait (.arming 0x100 2 [(0, none)])] })
theorem witness_BarrierArming_events : ((tWaited (.arming 0x100 2 [(0, none)])).wave ⟨0, 0⟩).waits = [aWait (.arming 0x100 2 [(0, none)])] ∧
    (tWaited (.arming 0x100 2 [(0, none)])).stsrPending 0 0 (tWaited (.arming 0x100 2 [(0, none)])).nextId = false ∧
    (tRsArming.wave ⟨0, 0⟩).waits = [aWait (.arming 0x100 2 [(0, none)])] ∧ tRsArming.stsrPending 0 0 tRsArming.nextId = true ∧
    ((tWaited (.arming 0x100 2 [(0, some 9)])).wave ⟨0, 0⟩).waits = [aWait (.arming 0x100 2 [(0, some 9)])] ∧
    (tWaited (.arming 0x100 2 [(0, some 9)])).stsrPending 0 0 9 = false ∧
    ((tWaited (.arming 0x100 2 [])).wave ⟨0, 0⟩).waits = [aWait (.arming 0x100 2 [])] := by decide +kernel
theorem noStale_of (s : State) (a : Nat) (h : s.waves.all (fun p => p.2.waits == [])) : s.noStale s.cur.team a := by
  intro p hp _ x hx
  have h2 := List.all_eq_true.mp h p hp
  rw [beq_iff_eq] at h2
  rw [h2] at hx
  exact absurd hx List.not_mem_nil
theorem witness_BarrierArrivals : (tObj 0 1 0).AtObject fObj ∧ (tObj 0 1 0).curTeam.isArmed 0x100 = true ∧ (tObj 0 1 0).curTeam.kindAt 0x100 = 0 ∧
    Memory.wf (tObj 0 1 0).curTeam.sp ∧ (tObj 0 1 0).noStale (tObj 0 1 0).cur.team 0x100 ∧ (tObj 0 1 0).curTeam.arrivedAt 0x100 + 1 < (tObj 0 1 0).curTeam.expect 0x100 ∧
    (tObj 1 1 0).curTeam.arrivedAt 0x100 + 1 = (tObj 1 1 0).curTeam.expect 0x100 ∧ (tObj 1 1 0).AtObject fObj ∧
    (tObj 0 3 0).curTeam.kindAt 0x100 = 1 ∧ (tObj 0 3 0).AtObject fObj ∧ ((tObj 0 3 1).curTeam.maskAt 0x100).getLsbD (tObj 0 3 1).cur.index.toNat = true ∧
    (tObj 0 5 0).curTeam.kindAt 0x100 = 2 ∧ (tObj 0 5 0).cur.sregPois 6 = false ∧ tP.curTeam.isArmed 0x100 = false ∧
    (tObj 0 1 0).curTeam.gen 0x100 ≠ (tObj 0 1 0).cur.sreg 6 0 ∧ (tObj 0 1 0).curTeam.gen 0x100 = (tObj 0 1 0).cur.sreg 63 5 ∧ (tObj 0 1 0).cur.sregPois 63 = false ∧
    (tObj 0 1 0).cur.fences = [] ∧ (tObj 0 1 0).cur.earlierDone (tObj 0 1 0).nextId [.ld, .st] = true ∧ (tObj 0 1 0).cur.waits = [] ∧
    (tObj 0 1 0).cur.arriving 0x100 = false ∧
    (tObj 0 1 0).curTeam.expect 0x100 ≠ 0 := by
  refine ⟨atObject_of _ _ (by decide +kernel), by decide +kernel, by decide +kernel, by decide +kernel, noStale_of _ _ (by decide +kernel), by decide +kernel,
    by decide +kernel, atObject_of _ _ (by decide +kernel), by decide +kernel, atObject_of _ _ (by decide +kernel), by decide +kernel⟩
/-- An arrival behind a release that is under way. -/
def tObjF : State := (tObj 0 1 0).modWave ⟨0, 0⟩ (fun w => { w with fences := [⟨.fence 1, 1, 5, none⟩] })
theorem witness_BarrierArrivals_later : tObjF.AtObject fObj ∧ tObjF.curTeam.isArmed 0x100 = true ∧ tObjF.curTeam.kindAt 0x100 = 0 ∧ tObjF.cur.fences ≠ [] :=
  ⟨atObject_of _ _ (by decide +kernel), by decide +kernel⟩
/-- R201: the second arrival of two makes generation 6; BARARV gives the generation it arrived in. -/
theorem test_barsync : (out (.barsync fObj) (tObj 1 1 0)).curTeam.spWord 0x108 = 6 ∧ (out (.bararv fObj) (tObj 1 1 0)).cur.sreg 8 0 = 5 := by decide +kernel

/-! Waits under a watchdog of 1 µs (1500 clocks) that has run out. -/

def tWd (why : WaitWhy) : State := { tWaited why with clock := 100000000 }
theorem witness_BarrierTimeouts : ((tWd (.barrier 0x100 5)).wave ⟨0, 0⟩).waitAt 0 = some (aWait (.barrier 0x100 5)) ∧ ((tWd (.barrier 0x100 5)).wave ⟨0, 0⟩).canEnd (aWait (.barrier 0x100 5)) ∧
    ((tWd (.barrier 0x100 5)).wave ⟨0, 0⟩).canTrap ∧ ((tWd (.barrier 0x100 5)).context 0).frozenAt = none ∧ ((tWd (.barrier 0x100 5)).team 0).flags 0x100 = 0 ∧
    0 + 1 * 1500 < (tWd (.barrier 0x100 5)).clock ∧ ((tWd (.group 3 5)).wave ⟨0, 0⟩).waitAt 0 = some (aWait (.group 3 5)) ∧
    ((tWd (.ring .racq ⟨8, 1, 1, true, true, 0, 0⟩ none)).wave ⟨0, 0⟩).waitAt 0 = some (aWait (.ring .racq ⟨8, 1, 1, true, true, 0, 0⟩ none)) := by
  refine ⟨by decide +kernel, ?_, ?_, by decide +kernel⟩
  · unfold Wave.canEnd aWait; decide +kernel
  · unfold Wave.canTrap; decide +kernel

/-! Group barrier 3, owned by context 0: no generation; team 0 a member of the running one; and team 0 with team 9. -/

def tGrp (mset : List Nat) (f : List Fence) : State := (tP.setGroup 3 { tP.group 3 with owner := some 0, gen := 5, mset := mset, nset := mset }).modWave ⟨0, 0⟩ (fun w => { w with fences := f, sregs := w.sregs.set 1 3 })
theorem witness_GroupBarriers : ∀ m ∈ [[], [0], [0, 9]], (tGrp m []).cur.qp 7 = false ∧ (tGrp m []).cur.q 7 ≠ false ∧ (tGrp m []).cur.sregPois 1 = false ∧
    ((tGrp m []).cur.sreg 1 0).extractLsb' 6 26 = 0 ∧ ((tGrp m []).cur.sreg 1 0).toNat % 64 = 3 ∧ ((tGrp m []).group 3).owner = some 0 ∧
    (tGrp m []).regionOpen (tGrp m []).cur.team = false ∧ ((tGrp m []).cur.sreg 63 1).toNat ≤ 1 ∧ ((tGrp m []).group 3).mset = m ∧ (tGrp m []).cur.fences = [] ∧
    ((assocGet ((tGrp m []).group 3).waves (tGrp m []).cur.team).getD 0).getLsbD (tGrp m []).cur.index.toNat = false ∧
    (∀ p ∈ (tGrp m []).waves, p.2.waits = []) ∧ (tGrp m []).cur.waits = [] ∧ ((tGrp m []).group 3).gen = (tGrp m []).cur.sreg 63 5 ∧ ((tGrp m []).group 3).gen ≠ (tGrp m []).cur.sreg 63 4 := by
  decide +kernel
def tArr : State := tGrp [0, 9] [⟨.groupArrive 3 8, 4, 7, some 7⟩]
def tAcq : State := (tWaited (.groupLeft 7)).modWave ⟨0, 0⟩ (fun w => { w with fences := [⟨.groupAcquire, 4, 7, none⟩] })
theorem witness_GroupBarriers_events : (tArr.wave ⟨0, 0⟩).fences = ⟨.groupArrive 3 8, 4, 7, some 7⟩ :: [] ∧ tArr.pushing (tArr.wave ⟨0, 0⟩).uid 7 [] = false ∧
    (tArr.wave ⟨0, 0⟩).count .rs = 0 ∧ 0 ∈ (tArr.group 3).mset ∧ (tAcq.wave ⟨0, 0⟩).fences = ⟨.groupAcquire, 4, 7, none⟩ :: [] ∧
    (tAcq.wave ⟨0, 0⟩).earlierDone 7 [.ld] = true ∧ (tAcq.wave ⟨0, 0⟩).waits = [aWait (.groupLeft 7)] := by decide +kernel
theorem test_group_arrival : (out (.fenceActionComplete ⟨0, 0⟩) tArr).cur.sreg 8 0 = 5 := by decide +kernel

/-! A ring of 4 slots at scratchpad 100H with its counters. -/

def tRing (acq com get rel : Word) : State := tP.modTeam 0 (fun t =>
  ((((t.putWord 0x10C 4 false).putWord 0x110 acq false).putWord 0x114 com false).putWord 0x118 get false).putWord 0x11C rel false)
def fRing (w : Bool) : UR := ⟨2, 1, 1, w, true, 0, 0⟩
theorem ringReady_of (s : State) (w b : Bool) (h : s.cur.sregPois 1 = false ∧ (s.cur.sreg 1 0).toNat % 32 = 0 ∧ (s.cur.sreg 1 0).toNat + 32 ≤ s.curTeam.spSize ∧
    s.cur.sregPois 2 = false ∧ (s.cur.errinj.getLsbD 31 = false ∧ s.cur.rows.all (fun r => r.2.par == 0) = true ∧ s.curTeam.spPar = []) ∧
    s.curTeam.spPois = [] ∧ slotsIllegal (s.curTeam.spWord ((s.cur.sreg 1 0).toNat + 12)) = false) :
    s.RingReady (fRing w) b where
  block := ⟨rfl, h.1, h.2.1, h.2.2.1⟩
  data := fun _ => h.2.2.2.1
  clean := ⟨unarmed_of h.2.2.2.2.1, fun i _ => by unfold Team.wordPois Team.spBad; rw [h.2.2.2.2.2.1, h.2.2.2.2.1.2.2]; rfl⟩
  slots := h.2.2.2.2.2.2
  scope := (by decide : (0#3).toNat < 2)
/-- Room and none; committed and none; the slot in s2 = 0 is the one to commit and to release, and it is not. -/
theorem witness_RingOperations : ((tRing 1 0 0 0).RingReady (fRing false) false ∧ (tRing 1 0 0 0).RingReady (fRing true) true) ∧
    ((tRing 4 1 0 0).RingReady (fRing false) false ∧ (tRing 4 1 0 0).RingReady (fRing true) true) ∧
    ((tRing 1 0 0 0).curTeam.spWord 0x110 - (tRing 1 0 0 0).curTeam.spWord 0x11C).toNat < ((tRing 1 0 0 0).curTeam.spWord 0x10C).toNat ∧
    ((tRing 4 1 0 0).curTeam.spWord 0x10C).toNat ≤ ((tRing 4 1 0 0).curTeam.spWord 0x110 - (tRing 4 1 0 0).curTeam.spWord 0x11C).toNat ∧
    (tRing 4 1 0 0).curTeam.spWord 0x114 ≠ (tRing 4 1 0 0).curTeam.spWord 0x118 ∧ (tRing 1 0 0 0).curTeam.spWord 0x114 = (tRing 1 0 0 0).curTeam.spWord 0x118 ∧
    (tRing 1 0 0 0).curTeam.spWord 0x114 % 4 = (tRing 1 0 0 0).cur.sreg 2 0 ∧ (tRing 4 1 0 0).curTeam.spWord 0x114 % 4 ≠ (tRing 4 1 0 0).cur.sreg 2 0 ∧
    (tRing 1 0 0 0).cur.earlierDone (tRing 1 0 0 0).nextId [.ld, .st] = true ∧ (tRing 1 1 1 1).curTeam.spWord 0x11C % 4 ≠ (tRing 1 1 1 1).cur.sreg 2 0 ∧
    (tRing 1 0 0 0).cur.fences = [] ∧ ((tRing 1 0 0 0).modWave ⟨0, 0⟩ (fun w => { w with fences := [⟨.fence 1, 1, 5, none⟩] })).cur.fences ≠ [] :=
  ⟨⟨ringReady_of _ _ _ (by decide +kernel), ringReady_of _ _ _ (by decide +kernel)⟩,
    ⟨ringReady_of _ _ _ (by decide +kernel), ringReady_of _ _ _ (by decide +kernel)⟩, by decide +kernel⟩
theorem witness_RingOperations_retry : ((tWaited (.ring .racq (fRing true) none)).wave ⟨0, 0⟩).waitAt 0 = some (aWait (.ring .racq (fRing true) none)) ∧
    ((tWaited (.ring .racq (fRing true) none)).wave ⟨0, 0⟩).canEnd (aWait (.ring .racq (fRing true) none)) ∧
    ((tRing 1 0 0 0).team 0).spPois = [] ∧ ((tRing 1 0 0 0).team 0).spPar = [] ∧ slotsIllegal (((tRing 1 0 0 0).team 0).spWord 0x10C) = false :=
  ⟨by decide +kernel, canEnd_tWaited _ (by decide +kernel), by decide +kernel⟩
theorem test_racq : (out (.racq (fRing false)) (tRing 5 4 4 4)).cur.sreg 2 0 = 1 ∧ (out (.racq (fRing false)) (tRing 5 4 4 4)).curTeam.spWord 0x110 = 6 := by decide +kernel

/-! ### Regions -/

def imageOf (s : State) : Wave := (s.wave ⟨0, 0⟩).image ((s.wave ⟨0, 0⟩).rows.filter (fun r => (0x36#62).getLsbD r.1)) 4
/-- Team 0 of the scratchpad module inside a region whose checkpoint is the wave as it stands. -/
def ckOf (s : State) : Checkpoint := ⟨[imageOf s], [], [], [], [], [], []⟩
def inRegion (s : State) : State := s.modTeam 0 (fun t => { t with region := some ⟨ckOf s, [], [], false, false, [], []⟩, rgnstat := 1, rgnatt := 1 })
def fRgnb : UC := ⟨10, 12, 0, 0⟩
def fRegrp : VX := ⟨9, 4, 10, 0, 0⟩
/-- A clash: another wave of the team waits at an RGNC. -/
def tClash : State := (inRegion tP).setWave ⟨0, 1⟩ { tP.wave ⟨0, 0⟩ with uid := 1, index := 1, waits := [⟨BitVec.allOnes 32, 0x20, 0x24, 0, 0, .rendezvous (.rgnc fObj)⟩] }
theorem witness_RegionInstructions : tP.rdvClash (.rgnb fRgnb) = none ∧ tP.regionOpen tP.cur.team = false ∧ (tP.cur.spairPois 10 = false ∧ tP.cur.spairPois 12 = false) ∧
    (tP.cur.spair 10).extractLsb' 62 2 = 0 ∧ (tP.cur.sreg 12 0 = 0 ∧ tP.cur.sreg 13 0 = 0) ∧ windowsOverlap (windowOf 0) (windowOf 0) = false ∧ (windowOf 0).2 = 0 ∧
    (inRegion tP).regionOpen (inRegion tP).cur.team = true ∧ (inRegion tP).cur.pend = [] ∧ tP.sel.mask &&& tP.cur.vsrcPois 4 = 0 ∧ (inRegion tP).curTeam.region.isSome = true ∧
    tClash.rdvClash (.regrp fRegrp) = some 0x20 ∧ (inRegion tP).cur.qp 7 = false ∧ (inRegion tP).cur.q 7 ≠ false ∧ (inRegion tP).cur.sregPois 1 = false := by decide +kernel
theorem witness_RegionInstructions_regrp : tP.begins (vname 4) 0 ∧ tP.cur.canTrap :=
  ⟨⟨Or.inl (by decide +kernel), Or.inl rfl, unarmed_of (by decide +kernel)⟩, by unfold Wave.canTrap; decide +kernel⟩
/-- R244, R245: REASON 100H, LAST 2, OPEN; the second attempt. -/
theorem test_rgna : (out (.rgna fObj) (inRegion tP)).curTeam.rgnstat = 0x01000081 ∧ (out (.rgna fObj) (inRegion tP)).curTeam.rgnatt = 2 := by decide +kernel

/-- The team waits at a rendezvous. -/
def tRdv (i : Instr) (s : State) : State := got (s.rendezvous i) s
/-- One held line of the team in its core's L1, with one byte. -/
def tHeld (pois : Bool) (s : State) : State := s.setCore 0 { s.core 0 with l1 := [⟨0, 0x10000, 0x60000, true, true, some 0, [(0, ⟨7, pois, true, [0]⟩)]⟩] }
theorem witness_RegionEvents_begin : (((tRdv (.rgnb fRgnb) tP).waves.map Prod.fst).Nodup) ∧ (tRdv (.rgnb fRgnb) tP).rdvReady 0 = true ∧
    ((tRdv (.rgnb fRgnb) tP).rdvWaves 0).map (fun y => (y.1, y.2.2.2)) = [(⟨0, 0⟩, .rgnb fRgnb)] ∧
    ((tRdv (.rgnb fRgnb) tP).wave ⟨0, 0⟩).swapped = none ∧ (∀ r ∈ ((tRdv (.rgnb fRgnb) tP).wave ⟨0, 0⟩).rows, r.2.par = 0) := by decide +kernel
theorem witness_RegionEvents_commit : let s := tRdv (.rgnc fObj) (tHeld false (inRegion tP))
    s.rdvReady 0 = true ∧ (s.rdvWaves 0).map (fun y => y.2.2.2) = [.rgnc fObj] ∧ s.heldPoison 0 = [] ∧ (s.team 0).region.map Region.struck = some [] ∧
      ((s.team 0).region.map Region.overfull).getD false = false ∧ (s.core (s.team 0).core).l1.length ≤ (s.core (s.team 0).core).l1Cap ∧
      (∀ h ∈ s.heldLines 0, h.ctx = (s.team 0).ctx ∧ (h.bytes.map Prod.fst).Nodup) ∧ s.heldLines 0 ≠ [] ∧ ((s.heldLines 0).map Line.vline).Nodup := by decide +kernel
theorem witness_RegionEvents_poison : let s := tRdv (.rgnc fObj) (tHeld true (inRegion tP))
    s.rdvReady 0 = true ∧ (s.rdvWaves 0).map (fun y => y.2.2.2) = [.rgnc fObj] ∧ s.heldPoison 0 = [0x10000] ∧ (s.rdvWaves 0).map (fun y => y.1) = [⟨0, 0⟩] ∧
      (s.wave ⟨0, 0⟩).handler = false ∧ (s.wave ⟨0, 0⟩).tvec ≠ 0 := by decide +kernel
/-- The team with its region changed. -/
def tChg (f : Region → Region) : State := inRegion tP |>.modTeam 0 (fun t => { t with region := t.region.map f })
theorem witness_RegionEvents_overfull : let s := tRdv (.rgnc fObj) (tChg (fun r => { r with overfull := true }))
    s.rdvReady 0 = true ∧ (s.rdvWaves 0).map (fun y => y.2.2.2) = [.rgnc fObj] ∧ s.heldPoison 0 = [] ∧ ((s.team 0).region.map Region.overfull).getD false = true := by decide +kernel
theorem witness_RegionEvents_struck : let s := tRdv (.rgnc fObj) (tChg (fun r => { r with struck := [0x10000] }))
    s.rdvReady 0 = true ∧ (s.rdvWaves 0).map (fun y => y.2.2.2) = [.rgnc fObj] ∧ ((s.team 0).region.map Region.struck).getD [] = 0x10000 :: [] ∧
      rgnErrs (s.team 0).rgnstat < 2 := by decide +kernel
/-- A regrouping of one wave; an armed object in mid-phase. -/
theorem witness_RegionEvents_regroup : let s := tRdv (.regrp fRegrp) tP
    s.rdvReady 0 = true ∧ (s.rdvWaves 0).map (fun y => (y.1.core, y.2.2.2)) = [((s.team 0).core, .regrp fRegrp)] ∧ (s.team 0).midPhase = none ∧ s.midGroup 0 = false ∧
      let layout := unpacked (movers (s.rdvWaves 0))
      s.unpackedFits 0 (s.rdvWaves 0).length layout = true ∧ (layout.map groupRows).sum ≤ { s with waves := s.waves.filter (fun p => p.2.team ≠ 0) }.rowsFree 0 ∧
        layout.length ≤ (s.rdvWaves 0).length ∧ (s.team 0).declared ≤ 32 ∧ (s.wave ⟨0, 0⟩).swapped = none ∧ (∀ r ∈ (s.wave ⟨0, 0⟩).rows, r.2.par = 0) := by
  decide +kernel
theorem witness_RegionEvents_midphase : let s := tRdv (.regrp fRegrp) (tObj 1 1 0)
    s.rdvReady 0 = true ∧ (s.rdvWaves 0).map (fun y => (y.1.core, y.2.2.2)) = [((s.team 0).core, .regrp fRegrp)] ∧ (s.team 0).midPhase = some 0x100 := by decide +kernel
/-- A commit under way with one journal byte, with one atomic, with neither, and with a push that is not acknowledged. -/
def tCommit (j : List (Nat × Nat × MByte)) (a : List HeldAtomic) : State :=
  tRdv (.rgnc fObj) (inRegion tP) |>.modTeam 0 (fun t => { t with region := t.region.map (fun r => { r with journal := j, atomics := a, committing := true }) })
def oneAcc : LaneAcc := ⟨0, (List.range 4).map (fun i => ⟨0x10000 + i, 0x60000 + i, none⟩), [⟨6, false⟩, ⟨0, false⟩, ⟨0, false⟩, ⟨0, false⟩], none, false⟩
theorem witness_RegionEvents_completion : (((tCommit [(0x10000, 0x60000, ⟨9, false⟩)] []).team 0).region.map Region.committing) = some true ∧
    (((tCommit [(0x10000, 0x60000, ⟨9, false⟩)] []).team 0).region.map Region.journal) = some [(0x10000, 0x60000, ⟨9, false⟩)] ∧
    (((tCommit [] [⟨0, 2, [oneAcc]⟩]).team 0).region.map Region.journal) = some [] ∧ (((tCommit [] [⟨0, 2, [oneAcc]⟩]).team 0).region.map Region.atomics) = some [⟨0, 2, [oneAcc]⟩] ∧
    ((tCommit [] [⟨0, 2, [oneAcc]⟩]).core 0).line 0 oneAcc.home.1 none = none ∧ (tCommit [] [⟨0, 2, [oneAcc]⟩]).net = [] ∧
    (((tCommit [] []).team 0).region.map Region.atomics) = some [] ∧
    ({ tCommit [] [] with net := [{ aReq tO with owners := [((tCommit [] []).wave ⟨0, 0⟩).uid] }], nextId := 5 }).pushing ((tCommit [] []).wave ⟨0, 0⟩).uid 5 [] = true := by
  decide +kernel
/-- R237: the journal's bytes are sent to their homes; a held atomic is performed there. -/
theorem test_commit : ((aReq (out (.rgncCompletion 0) (tCommit [(0x10000, 0x60000, ⟨9, false⟩)] []))).kind = .write [(0x60000, ⟨9, false⟩)] []) ∧
    cellTake (out (.rgncCompletion 0) (tCommit [] [⟨0, 2, [oneAcc]⟩])).mem 0x60000 1 = [6] := by decide +kernel
/-- R238: the trap at a poisoned held byte names its address. -/
theorem test_commit_poison : (out (.rendezvousComplete 0) (tRdv (.rgnc fObj) (tHeld true (inRegion tP)))).cur.trapRegs = [0xD, 0, 0x10000, 0, 0xFFFFFFFF, 1, 0x40, 0] := by
  decide +kernel
def tTardy : State := { (tRdv (.rgnb fRgnb) (tP.setContext 0 { tP.context 0 with bwdt := 1 })) with clock := 200000000 }
theorem witness_RegionEvents_timeout : (tTardy.wave ⟨0, 0⟩).rdvWait = some (⟨BitVec.allOnes 32, 0, 4, 100000000, 1, .rendezvous (.rgnb fRgnb)⟩, .rgnb fRgnb) ∧
    (∀ i : Fin 32, (tTardy.wave ⟨0, 0⟩).lanes[i].stopped = false) ∧ 100000000 + 1 * 1500 < tTardy.clock ∧
    (tTardy.wave ⟨0, 0⟩).handler = false ∧ (tTardy.wave ⟨0, 0⟩).tvec ≠ 0 ∧ (tTardy.context 0).frozenAt = none ∧
    (((tTardy.team 0).region.map Region.committing).getD false) = false := by decide +kernel
/-- A team waits for its replay; and one whose third attempt failed as well. -/
def tReplay (stat : Word) : State := let s := inRegion tP
  { s with waves := [], teams := [(0, { s.team 0 with rgnstat := stat, resident := false, replay := some (0, 0, 0), saved := some [imageOf s] })] }
theorem witness_RegionEvents_replay : (tReplay 0x51).replayDue = some 0 ∧ (tReplay 0x51).replayPlacing 0 = .at 1 [(0, 4)] ∧ ((tReplay 0x51).teams.map Prod.fst).Nodup ∧
    ((tReplay 0x51).team 0).rgnstat.getLsbD 0 = true := by decide +kernel
theorem witness_RegionEvents_failed : (tReplay 0x70).replayDue = some 0 ∧ (tReplay 0x70).replayPlacing 0 = .at 1 [(0, 4)] ∧ ((tReplay 0x70).team 0).region.isSome = true ∧
    ((tReplay 0x70).team 0).rgnstat.getLsbD 0 = false ∧ (tReplay 0x70).teamWaves 0 = [] ∧ (∀ w ∈ ((tReplay 0x70).team 0).saved.getD [], w.handler = false ∧ w.tvec ≠ 0) ∧
    (∀ r, ((tReplay 0x70).team 0).region = some r → r.ck.failed.length ≤ 3) := by
  refine ⟨by decide +kernel, by decide +kernel, by decide +kernel, by decide +kernel, by decide +kernel, by decide +kernel, ?_⟩
  rw [show ((tReplay 0x70).team 0).region = some ⟨ckOf tP, [], [], false, false, [], []⟩ by decide +kernel]
  rintro r ⟨⟩
  decide +kernel
/-- A scratchpad for which the split must change (R163). -/
theorem witness_RegionEvents_bind : ((tReplay 0x51).modTeam 0 (fun t => { t with spSize := 0x70000 })).replayDue = some 0 ∧
    ((tReplay 0x51).modTeam 0 (fun t => { t with spSize := 0x70000 })).replayPlacing 0 = .bind [(0, 4, some 14)] := by decide +kernel
theorem test_replay_fails : ((out (.replayPlacement 0) (tReplay 0x70)).waves.map (fun p => (p.2.handler, p.2.tcause, p.2.tinfo))) = [(true, 0x12, 1)] := by decide +kernel

/-! ### Tasks: queue 0 of context 0 has its block at 10100H (4 slots at 10200H), one committed task of one wave for the range 0 to 4 -/

def recBytes (entry flags shape depc : Nat) : List Byte := leBytes 4 entry ++ leBytes 4 flags ++ leBytes 8 0 ++ leBytes 8 4 ++ leBytes 4 1 ++ leBytes 4 shape ++
  leBytes 8 0 ++ leBytes 8 0 ++ leBytes 8 depc ++ leBytes 4 0 ++ leBytes 4 0
def blockBytes (base acq com get rel : Nat) : List Byte := leBytes 8 base ++ leBytes 4 64 ++ leBytes 4 4 ++ leBytes 4 acq ++ leBytes 4 com ++ leBytes 4 get ++ leBytes 4 rel
def aQueue : Queue := { Queue.absent with block := 0x10100, triggered := true, aborted := false }
def withQueue (q : Queue) (base com : Nat) (b : List Byte) : State :=
  { (tM.setContext 0 { tM.context 0 with queues := [(0, q)] }) with mem := cellPut (cellPut tM.mem 0x60100 (blockBytes base com com 0 0)) 0x60200 b }
/-- A queue with a committed record; with its head taken; with a head that depends on the word at 10300H. -/
def tQueue : State := withQueue aQueue 0x10200 1 (recBytes 0 0 1 0)
def aHead (b : List Byte) : Queue := { aQueue with head := some 0, headBytes := b, headReady := true, readySince := 1 }
def tHead (b : List Byte) : State := withQueue (aHead b) 0x10200 1 b

theorem witness_TasksRun_take : tP.cur.qp 7 = false ∧ tP.cur.q 7 ≠ false ∧ tP.regionOpen tP.cur.team = false ∧ (tP.crew tP.curTeam.crew).hi ≤ (tP.crew tP.curTeam.crew).lo ∧
    ({ tP with crews := [(0, { tP.crew 0 with lo := 2, hi := 5 })] } : State).regionOpen 0 = false := by decide +kernel
/-- R307: TTAKE gives grain 2 of 2 to 5. -/
theorem test_ttake : (out (.ttake ⟨1, 0, 8, 0, 7, false, 0, 0⟩) { tP with crews := [(0, { tP.crew 0 with lo := 2, hi := 5 })] }).cur.sreg 8 0 = 2 ∧
    ((out (.ttake ⟨1, 0, 8, 0, 7, false, 0, 0⟩) { tP with crews := [(0, { tP.crew 0 with lo := 2, hi := 5 })] }).crew 0).lo = 3 := by decide +kernel
def tTrig (pushed : Option Nat) : State := tW (fun w => { regs w with fences := [⟨.trigger 3, 4, 5, pushed⟩] })
theorem witness_TasksRun_trigger : ((tTrig none).wave ⟨0, 0⟩).fences = ⟨.trigger 3, 4, 5, none⟩ :: [] ∧ (tTrig none).releaseReady ⟨0, 0⟩ 5 4 = true ∧
    ((tTrig (some 5)).wave ⟨0, 0⟩).fences = ⟨.trigger 3, 4, 5, some 5⟩ :: [] ∧ (tTrig (some 5)).pushing ((tTrig (some 5)).wave ⟨0, 0⟩).uid 5 [] = false := by decide +kernel
/-- A ring of records of 64 bytes at scratchpad 200H; the record at 0. -/
def tSpawn (acq com rel : Word) : State := tP.modTeam 0 (fun t =>
  ((((((t.putWord 0x100 0x200 false).putWord 0x108 64 false).putWord 0x10C 4 false).putWord 0x110 acq false).putWord 0x114 com false).putWord 0x11C rel false))
theorem witness_TasksRun_spawn : (tSpawn 1 1 0).RingReady (fRing true) true ∧ (tSpawn 4 4 0).RingReady (fRing false) true ∧ (tSpawn 1 1 0).regionOpen (tSpawn 1 1 0).cur.team = false ∧
    assocGet (tSpawn 1 1 0).cur.spawning (tSpawn 1 1 0).sel.pc = none ∧ Memory.wf (tSpawn 1 1 0).curTeam.sp ∧ (tSpawn 1 1 0).curTeam.spWord 0x108 = 64 ∧
    (tSpawn 1 1 0).curTeam.spPois = [] ∧ (tSpawn 1 1 0).curTeam.spPar = [] ∧ (tSpawn 1 1 0).cur.sreg 2 0 = 0 ∧ ((tSpawn 1 1 0).curTeam.spWord 0x110 - (tSpawn 1 1 0).curTeam.spWord 0x11C).toNat < 4 ∧
    4 ≤ ((tSpawn 4 4 0).curTeam.spWord 0x110 - (tSpawn 4 4 0).curTeam.spWord 0x11C).toNat ∧ (tSpawn 1 1 0).cur.earlierDone (tSpawn 1 1 0).nextId [.ld, .st] = true :=
  ⟨ringReady_of _ _ _ (by decide +kernel), ringReady_of _ _ _ (by decide +kernel), by decide +kernel⟩
theorem test_tspawn : (out (.tspawn (fRing true)) (tSpawn 1 1 0)).curTeam.spWord 0x110 = 2 ∧ (out (.tspawn (fRing true)) (tSpawn 1 1 0)).curTeam.spWord 0x114 = 2 := by decide +kernel

theorem witness_TasksRun_dependence : (tHead (recBytes 0 0 1 0)).allQueues = [(0, 0)] ∧ (tHead (recBytes 0 0 1 0)).chosen = none ∧ ((tHead (recBytes 0 0 1 0)).queue 0 0).head = some 0 ∧
    ((tHead (recBytes 0 0 1 0)).queue 0 0).running.takeWhile Prod.snd = [] ∧ TaskRec.depc (recBytes 0 0 1 0) = 0 ∧ TaskRec.depc (recBytes 0 0 1 0x10300) ≠ 0 ∧ (tHead (recBytes 0 0 1 0x10300)).engineReach 0 0x10300 4 .read = .ok ∧
    ((tHead (recBytes 0 0 1 0x10300)).vaBytes 0 0x10300 4).any MByte.pois = false := by decide +kernel
theorem witness_TasksRun_head : tQueue.allQueues = [(0, 0)] ∧ tQueue.chosen = none ∧ (tQueue.queue 0 0).head = none ∧ (tQueue.queue 0 0).aborted = false ∧ (tQueue.queue 0 0).running.takeWhile Prod.snd = [] ∧
    tQueue.blockOk 0 (tQueue.queue 0 0) = true ∧ tQueue.blockWord 0 (tQueue.queue 0 0) 20 ≠ tQueue.blockWord 0 (tQueue.queue 0 0) 24 ∧
    tQueue.slotAddr 0 (tQueue.queue 0 0) 0 = 0x10200 ∧ tQueue.engineReach 0 0x10200 64 .read = .ok ∧ (tQueue.vaBytes 0 0x10200 64).any MByte.pois = false ∧
    TaskRec.valid ((tQueue.vaBytes 0 0x10200 64).map MByte.val) false = true ∧ TaskRec.depc ((tQueue.vaBytes 0 0x10200 64).map MByte.val) = 0 := by decide +kernel
/-- The controller has refused the page at 30000H: the slots there, and a dependence there, cannot be read. -/
def refuse (s : State) : State := { s with faults := [⟨9, 0, 0x30000, 0, some false, none⟩] }
theorem witness_TasksRun_unreadable : (refuse (withQueue aQueue 0x30000 1 [])).engineReach 0 ((refuse (withQueue aQueue 0x30000 1 [])).slotAddr 0 ((refuse (withQueue aQueue 0x30000 1 [])).queue 0 0) 0) 64 .read = .fail 0x30000 ∧
    (refuse (withQueue aQueue 0x30000 1 [])).blockOk 0 ((refuse (withQueue aQueue 0x30000 1 [])).queue 0 0) = true ∧
    (refuse (tHead (recBytes 0 0 1 0x30000))).engineReach 0 0x30000 4 .read = .fail 0x30000 ∧ (refuse (tHead (recBytes 0 0 1 0x30000))).chosen = none ∧
    TaskRec.crec ((refuse (tHead (recBytes 0 0 1 0x30000))).queue 0 0).headBytes = 0 := by decide +kernel
theorem test_taskinv : (out (.dispatcherAccessFault 0 0 1) (refuse (tHead (recBytes 0 0 1 0x30000)))).log.map (fun r => (r.kind, r.body)) =
    [(0xA, [0, 0, 0x10200, 0, 0x30000, 0, 0])] := by decide +kernel

/-- The head is chosen; started; chosen beside a resident crew of lower priority beside it. -/
def tChosen (b : List Byte) : State := (tHead b).choose (0, 0)
def tBehindReplay : State := { tHead (recBytes 0 0 1 0) with waves := [], teams := [(0, { (tReplay 0x51).team 0 with crew := 0 })] }
theorem witness_TasksRun_select : tBehindReplay.chosen = none ∧ tBehindReplay.bestHead = some (0, 0) ∧ (tBehindReplay.queue 0 0).head = some 0 ∧
    tBehindReplay.replayDue.isSome = true ∧ ∀ p ∈ tBehindReplay.teams, p.1 < tBehindReplay.nextId ∧ p.2.crew < tBehindReplay.nextId := by decide +kernel
/-- The chosen crew's one team, on core 0. -/
def firstTeam (s : State) : List (Nat × Nat) := [(s.nextId - 1, 0)]
def tGo : State := tChosen (recBytes 0 0 1 0)
theorem canStart_tGo : tGo.CanStart (tGo.nextId - 2) (firstTeam tGo) where
  waits := by decide +kernel
  table := by decide +kernel
  keys := by decide +kernel
  shape := by decide +kernel
  range := by decide +kernel
theorem witness_TasksRun_start : tGo.chosen.isSome = true ∧ tGo.CanStart (tGo.nextId - 2) (firstTeam tGo) ∧ tGo.chosenPlacing (tGo.nextId - 2) = .at 0 (firstTeam tGo) ∧
    tGo.firstPlace (tGo.nextId - 2) 0 = some (firstTeam tGo) ∧ tGo.crewDie (tGo.nextId - 2) = some 0 ∧ tGo.crewTeams (tGo.nextId - 2) = [tGo.nextId - 1] ∧
    (tGo.team (tGo.nextId - 1)).crew = tGo.nextId - 2 :=
  ⟨by decide +kernel, canStart_tGo, by decide +kernel⟩
/-- A team of 512 KiB, for which the split must change; one of 600 KiB, for which there is no place. -/
def tChosenKib (kib : Nat) : State := { tChosen (recBytes 0 3 (1 + kib * 256) 0) with clock := 200000000 }
theorem witness_TasksRun_bind : (tChosenKib 512).chosen.isSome = true ∧ (tChosenKib 512).crewWaits ((tChosenKib 512).nextId - 2) = true ∧
    (tChosenKib 512).chosenPlacing ((tChosenKib 512).nextId - 2) = .bind [((tChosenKib 512).nextId - 1, 0, some 16)] := by decide +kernel
/-- R155, R158: the wave stands at ENTRY with its thread numbers in v0, in the quarter that holds the fewest waves. -/
theorem test_launch : ((out .taskSelect (tHead (recBytes 0x40 0 1 0))).waves.map (fun p => (p.1.slot, p.2.lanes[31].pc, p.2.vword 0 31))) =
    [(0, 0, 31), (16, 0x40, 31)] := by decide +kernel
theorem witness_TasksRun_aging : ((tHead (recBytes 0 0 1 0)).queue 0 0).head.isSome = true ∧ ((tHead (recBytes 0 0 1 0)).queue 0 0).headReady = true ∧
    ((tHead (recBytes 0 0 1 0)).queue 0 0).aborted = false ∧ ((tHead (recBytes 0 0 1 0)).queue 0 0).base + ((tHead (recBytes 0 0 1 0)).queue 0 0).age < 3 ∧
    ((tHead (recBytes 0 0 1 0)).queue 0 0).readySince + (((tHead (recBytes 0 0 1 0)).queue 0 0).age + 1) * 1500000 ≤ (tHead (recBytes 0 0 1 0)).clock ∧ (tHead (recBytes 0 0 1 0)).chosen = none := by decide +kernel
def tWaits : State := tChosenKib 600
theorem witness_TasksRun_reserve : tWaits.chosenCrew = some (tWaits.nextId - 2) ∧ (tWaits.crew (tWaits.nextId - 2)).waitSince + 1500000 < tWaits.clock ∧ tWaits.dies = [] ∧
    (tWaits.die 7).reserved = none := by decide +kernel
def tRuns : State := { tP with crews := [(0, { tP.crew 0 with lo := 0, hi := 4 })], tasks := [(0, { Task.absent with bytes := recBytes 0 0 1 0, nextTeam := 1, noSplit := false, complete := false })] }
def aCrew : Crew := { tP.crew 0 with lo := 0, hi := 4 }
theorem witness_TasksRun_split : tRuns.roomWanted 1 = false ∧ tRuns.splitCrew 1 (fun c => c.place.any (fun p => p / 32 = 1 / 32)) = some aCrew ∧ aCrew.id < tRuns.nextId ∧
    (tRuns.task aCrew.task).nextTeam + TaskRec.crew (tRuns.task aCrew.task).bytes ≤ 2 ^ 32 ∧ tRuns.rtabReach (tRuns.task aCrew.task).ctx (tRuns.task aCrew.task).bytes = .ok ∧
    ((((tRuns.setCrew aCrew.id { aCrew with hi := aCrew.lo + (aCrew.hi - aCrew.lo + 1) / 2 }).mkCrew aCrew.task (aCrew.lo + (aCrew.hi - aCrew.lo + 1) / 2) aCrew.hi).2).firstPlace tRuns.nextId 1).isSome = true := by
  decide +kernel
theorem test_split : let t := out (.rangeSplit 1) tRuns; (t.crew aCrew.id).hi = 2 ∧ (t.crew tRuns.nextId).lo = 2 ∧ (t.crew tRuns.nextId).hi = 4 := by decide +kernel

/-! Stopping, saving and restoring team 0 -/

def tStop (why : PreemptWhy) (s : State) : State := (s.modTeam 0 (fun t => { t with preempt := some (why, 0) })).modWave ⟨0, 0⟩ (fun w => { w with stop := .atSafepoint 6 })
def tAsked : State := tP.modTeam 0 (fun t => { t with preempt := some (.priority, 0) })
theorem witness_TeamsStopAndMove_stop : (tP.team 0).resident = true ∧ tAsked.hasWave ⟨0, 0⟩ = true ∧ (tAsked.team (tAsked.wave ⟨0, 0⟩).team).preempt = some (.priority, 0) ∧
    0 + 150000 < tAsked.clock ∧ (tAsked.wave ⟨0, 0⟩).stop = .running ∧ (tAsked.context (tAsked.wave ⟨0, 0⟩).ctx).frozenAt = none ∧
    (∀ p ∈ tAsked.teamWaves 0, p.2.holdsSection = false) ∧ assocGet tAsked.scouts ⟨0, 0⟩ = none ∧
    (assocGet ({ tAsked with scouts := [(⟨0, 0⟩, ⟨tAsked.wave ⟨0, 0⟩, 3, 0, 0, [], [], [], [], 0, 0, 0⟩)] } : State).scouts ⟨0, 0⟩).isSome = true := by decide +kernel
/-- The team's writes are home, or its wave still owns a dirty line. -/
theorem witness_TeamsStopAndMove_save : ∀ s ∈ [tStop .priority tP, tStop .priority (inRegion tP), tStop .priority tSt], (s.team 0).resident = true ∧ (s.team 0).preempt.isSome = true ∧
    (∀ m ∈ s.crewTeams (s.team 0).crew, s.stoppedTeam m = true) ∧ s.crewTeams 0 = [0] ∧ (s.waves.map Prod.fst).Nodup := by decide +kernel
theorem witness_TeamsStopAndMove_home : (tStop .priority tP).teamHome 0 = true ∧ (tStop .priority (inRegion tP)).teamHome 0 = true ∧ (tStop .priority tSt).teamHome 0 = false ∧
    (∀ p ∈ (tStop .priority tP).teamWaves 0, ∀ r ∈ p.2.rows, r.2.par = 0) ∧ (∀ p ∈ (tStop .priority (inRegion tP)).teamWaves 0, ∀ r ∈ p.2.rows, r.2.par = 0) := by
  decide +kernel
theorem witness_TeamsStopAndMove_region : (tStop .priority tP).regionOpen 0 = false ∧ (tStop .priority (inRegion tP)).regionOpen 0 = true ∧
    ((tStop .priority (inRegion tP)).team 0).region = some ⟨ckOf tP, [], [], false, false, [], []⟩ := by decide +kernel
/-- R150, R172: only the masked rows are saved; R243: the region aborts with LAST 3. -/
theorem test_save : (((out (.teamSave 0) (tStop .priority tP)).team 0).saved.getD []).map (fun w => w.rows.map Prod.fst) = [[1, 2]] ∧
    ((out (.teamSave 0) (tStop .priority (inRegion tP))).team 0).rgnstat = 0xC1 := by decide +kernel
def tSaved : State := { tP with
  waves := [], crews := [(0, { tP.crew 0 with saved := true, place := none })]
  teams := [(0, { tP.team 0 with resident := false, saved := some [(tP.wave ⟨0, 0⟩).forSave (tP.wave ⟨0, 0⟩).rows] })]
  tasks := [(0, { Task.absent with bytes := recBytes 0 0 1 0 })] }
theorem witness_TeamsStopAndMove_restore : tSaved.restoreDue = some 0 ∧ tSaved.restorePlacing 0 = .at 0 [(0, 0)] ∧ tSaved.restorePlace 0 3 = some [(0, 12)] ∧
    (tSaved.crew 0).heat = false ∧ (placeSlots ((tSaved.team 0).saved.getD []).length (tSaved.usedSlots 12)).isSome = true ∧
    (tSaved.modTeam 0 (fun t => { t with spSize := 0x80000 })).restoreDue = some 0 ∧
    (tSaved.modTeam 0 (fun t => { t with spSize := 0x80000 })).restorePlacing 0 = .bind [(0, 0, some 16)] := by decide +kernel
/-- Where no core's scratchpad is of more than 16 granules, a team that needs more than those finds no place, and no change would make it one. -/
theorem grans_of (s : State) (h : s.cores.all (fun p => decide (p.2.scratchGrans ≤ 16)) = true) (core : Nat) : (s.core core).scratchGrans ≤ 16 := by
  have key : ∀ l : List (Nat × CoreSt), l.all (fun p => decide (p.2.scratchGrans ≤ 16)) = true → ((assocGet l core).getD CoreSt.initial).scratchGrans ≤ 16 := by
    intro l
    induction l with
    | nil => intro _; exact (by decide : CoreSt.initial.scratchGrans ≤ 16)
    | cons p l ih =>
      intro ha
      simp only [List.all_cons, Bool.and_eq_true, decide_eq_true_eq] at ha
      simp only [assocGet]
      split
      · exact ha.1
      · exact ih ha.2
  exact key s.cores h
theorem fitAt_none {used : List (Nat × Nat)} {cap kib : Nat} (h : cap < kib) : fitAt used cap kib = none := by
  unfold fitAt
  rw [Nat.sub_eq_zero_of_le h]
  rfl
theorem noAdmit (s : State) (core waves kib crew : Nat) (r : Requester) (h : s.cores.all (fun p => decide (p.2.scratchGrans ≤ 16)) = true) (hk : 512 < kib) :
    s.admits core waves kib r crew = false ∧ s.afterSplit core waves kib = none := by
  have hg := grans_of s h core
  have ht : s.splitTarget core kib = none := by
    unfold State.splitTarget
    rw [List.find?_eq_none]
    intro g hm
    have : g < 17 := List.mem_range.mp hm
    rw [fitAt_none (by omega)]
    simp
  refine ⟨?_, ?_⟩
  · unfold State.admits State.placeScratch
    rw [fitAt_none (by omega)]
    simp
  · unfold State.afterSplit
    simp [ht]
theorem noPlace (s : State) (k crew t : Nat) (used : List Nat) (h : s.cores.all (fun p => decide (p.2.scratchGrans ≤ 16)) = true) (hk : 512 < (s.teamShape t).2) :
    s.placeMembers k crew [t] used = none ∧ s.splitPlan k crew [t] used = none := by
  have hf : (List.range 4).find? (fun _ => false) = none := rfl
  refine ⟨?_, ?_⟩
  · unfold State.placeMembers
    simp [noAdmit s _ _ _ _ _ h hk, hf]
  · unfold State.splitPlan
    simp [fun core => (noAdmit s core (s.teamShape t).1 _ crew (.team t) h hk).1, fun core => (noAdmit s core (s.teamShape t).1 _ crew (.team t) h hk).2, hf]
theorem noChosenPlace (s : State) (c t : Nat) (h : s.cores.all (fun p => decide (p.2.scratchGrans ≤ 16)) = true) (hc : s.crewTeams c = [t]) (hb : (s.crew c).bound = [])
    (hk : 512 < (s.teamShape t).2) : s.chosenPlacing c = .wait := by
  unfold State.chosenPlacing State.placing State.crewPlace
  have h1 : ∀ l : List Nat, l.findSome? (fun _ => (none : Option (Nat × List (Nat × Nat)))) = none := fun l => by induction l <;> simp_all
  have h2 : ∀ l : List Nat, l.findSome? (fun _ => (none : Option (List (Nat × Nat × Option Nat)))) = none := fun l => by induction l <;> simp_all
  simp only [hc, hb, (noPlace s _ c t [] h hk).1, (noPlace s _ c t [] h hk).2, Option.map_none, h1, h2]
  rfl
theorem witness_TeamsStopAndMove_priority : tWaits.chosen = some (0, 0, tWaits.nextId - 3) ∧ tWaits.chosenCrew = some (tWaits.nextId - 2) ∧
    (tWaits.crew (tWaits.nextId - 2)).waitSince + 150000 < tWaits.clock ∧ tWaits.chosenPlacing (tWaits.nextId - 2) = .wait ∧
    (tWaits.crew (tWaits.nextId - 2)).bound = [] ∧ tWaits.stopping = false ∧
    ((tWaits.crews.map Prod.snd).filter (fun k => tWaits.crewResident k.id && tWaits.crewEff k < (tWaits.task (tWaits.nextId - 3)).eff)).map (fun k => (k.id, k.place)) =
      [(0, some 0)] :=
  ⟨by decide +kernel, by decide +kernel, by decide +kernel, noChosenPlace _ _ (tWaits.nextId - 1) (by decide +kernel) (by decide +kernel) (by decide +kernel) (by decide +kernel),
    by decide +kernel⟩
/-- Core 0 has been above its limit for longer than 50 ms; its team, and one of 600 KiB. -/
def tHot (s : State) : State := s.setCore 0 { s.core 0 with hotSince := some 0 }
def tWide : State := (tHot tP).modTeam 0 (fun t => { t with spSize := 600 * 1024 })
theorem witness_TeamsStopAndMove_thermal : ((tHot tP).team 0).resident = true ∧ ((tHot tP).team 0).preempt = none ∧ ((tHot tP).team 0).placedAt + 75000000 < (tHot tP).clock ∧
    ((tHot tP).core 0).hotSince = some 0 ∧ 0 + 75000000 < (tHot tP).clock ∧ (tHot tP).coolCluster 5 = true ∧
    ((tHot tP).placeMembers 5 ((tHot tP).team 0).crew ((tHot tP).crewTeams ((tHot tP).team 0).crew) []).isSome = true ∧
    (∀ k, k < 256 → k ≠ (tWide.team 0).core / 4 → tWide.coolCluster k = true →
      tWide.placeMembers k (tWide.team 0).crew (tWide.crewTeams (tWide.team 0).crew) [] = none) := by
  refine ⟨by decide +kernel, by decide +kernel, by decide +kernel, by decide +kernel, by decide +kernel, by decide +kernel, by decide +kernel, fun k _ _ _ => ?_⟩
  rw [show tWide.crewTeams (tWide.team 0).crew = [0] from by decide +kernel]
  exact (noPlace tWide k _ 0 [] (by decide +kernel) (by decide +kernel)).1

/-! ### The core's own events -/

/-- Every thread has left: the last wave of its team; one of two; one with a failure due. -/
def tExit : State := tWaited .exit
def tExit2 : State := tExit.setWave ⟨0, 1⟩ { tP.wave ⟨0, 0⟩ with uid := 1, index := 1 }
def tExitPend : State := tExit.modWave ⟨0, 0⟩ (fun w => { w with pend := [aFail] })
theorem witness_CoreManagement_retire : ∀ s ∈ [tExit, tExit2, tExitPend], (s.wave ⟨0, 0⟩).exitWait = some (aWait .exit) ∧ (s.wave ⟨0, 0⟩).ops = [] ∧ (s.wave ⟨0, 0⟩).fences = [] ∧
    s.rdcClear 0 (s.wave ⟨0, 0⟩) = true ∧ (s.wave ⟨0, 0⟩).stop = .running ∧ (∀ i : Fin 32, (s.wave ⟨0, 0⟩).lanes[i].stopped = false) ∧ (s.waves.map Prod.fst).Nodup ∧
    (s.wave ⟨0, 0⟩).handler = false ∧ (s.wave ⟨0, 0⟩).tvec ≠ 0 := by decide +kernel
theorem witness_CoreManagement_pend : (tExit.wave ⟨0, 0⟩).pend = [] ∧ (tExit2.wave ⟨0, 0⟩).pend = [] ∧ (tExitPend.wave ⟨0, 0⟩).oldestDue [.ld, .st, .cp, .tl, .nm, .rs, .fx] aFail :=
  ⟨by decide +kernel, by decide +kernel, oldestDue_of _ (by decide +kernel) _ (by decide)⟩
/-- Wave 0 of core 0 heads the register-grow queue. -/
def tGrow (n : Nat) : State := tP.setCore 0 { tP.core 0 with rowQueue := [(0, n)] }
theorem witness_CoreManagement_grow : ((tGrow 2).core 0).rowQueue = (0, 2) :: [] ∧ (tP.core 0).rowQueue = [] ∧ (∀ p ∈ tP.coreWaves 0, p.2.swappedReady = false) := by decide +kernel
/-- All its threads wait at a barrier since clock 0; a candidate, while the head's need is not met; swapped out, with its rows in the granule or in memory. -/
def tBlocked : State := tP.modWave ⟨0, 0⟩ (fun w => { w.blockAs (BitVec.allOnes 32) .waiting with waits := [aWait (.barrier 0x100 5)] })
def tCand : State := { tBlocked.modWave ⟨0, 0⟩ (fun w => { w with swapCandidate := true }) with cores := [(0, { tP.core 0 with rowQueue := [(1, 100000)] })] }
/-- The only wave besides the head is short of rows. -/
def tStalled : State := { tP.modWave ⟨0, 0⟩ (fun w => { w with growStall := true }) with cores := [(0, { tP.core 0 with rowQueue := [(1, 100000), (0, 2)] })] }
theorem witness_CoreManagement_swap : aWait (.barrier 0x100 5) ∈ (tBlocked.wave ⟨0, 0⟩).waits ∧ (aWait (.barrier 0x100 5)).swaps = true ∧ (tBlocked.wave ⟨0, 0⟩).laneMask Lane.free = 0 ∧
    (tBlocked.wave ⟨0, 0⟩).released = none ∧ (tBlocked.wave ⟨0, 0⟩).swapped = none ∧ 0 + 4096 < tBlocked.clock ∧ ({ tBlocked with clock := 100 }).clock ≤ 0 + 4096 ∧
    tCand.rowsFree 0 < tCand.headLacks 0 ∧ tCand.hasWave ⟨0, 0⟩ = true ∧ (tCand.wave ⟨0, 0⟩).swapCandidate = true ∧ (tCand.wave ⟨0, 0⟩).rows ≠ [] ∧
    (tCand.wave ⟨0, 0⟩).blockedSince = some 0 ∧ (tCand.coreWaves 0).length = 1 ∧ (tCand.core 0).swapRows.length + (tCand.wave ⟨0, 0⟩).rows.length ≤ 256 ∧
    (∀ r ∈ (tCand.wave ⟨0, 0⟩).rows, r.2.par = 0) ∧ tStalled.rowsFree 0 < tStalled.headLacks 0 ∧
    (∀ p ∈ tStalled.coreWaves 0, p.2.swapCandidate = false ∧ p.2.growStall = true) ∧ tStalled.youngestStalled 0 = some ⟨0, 0⟩ := by decide +kernel
theorem test_swap : ((out (.swapOut ⟨0, 0⟩) tCand).wave ⟨0, 0⟩).rows = [] ∧ ((out (.swapOut ⟨0, 0⟩) tStalled).wave ⟨0, 0⟩).rows = [] := by decide +kernel
def tSwapped (held : Bool) : State := { tBlocked.modWave ⟨0, 0⟩ (fun w => { w with rows := [], swapped := some w.rows, granted := 8 }) with
  cores := [(0, { tP.core 0 with rowQueue := [(0, 0)], swapRows := if held then [(0, 1), (0, 2)] else [] })] }
theorem witness_CoreManagement_drain : ((tSwapped true).core 0).swapNames 0 = [1, 2] ∧ (((tSwapped true).wave ⟨0, 0⟩).swapped.map (fun r => r.map Prod.fst)) = some [0, 1, 2, 4, 5] ∧
    Memory.wf (tSwapped true).mem ∧ ((tSwapped false).core 0).swapNames 0 = [] ∧ ((tSwapped true).core 0).rowQueue = (0, 0) :: [] ∧ 0 + 5 ≤ ((tSwapped true).wave ⟨0, 0⟩).granted ∧
    (∀ r ∈ ((tSwapped true).wave ⟨0, 0⟩).rows, r.2.par = 0) := by
  decide +kernel
/-- R170: a drained row stands at 128 bytes a name in the wave's slot. -/
theorem test_drain : cellTake (out (.swapGranuleDrain ⟨0, 0⟩) { tSwapped true with contexts := [(0, { tP.context 0 with swapBase := 0x100000 })] }).mem 0x100080 4 = [6, 0, 0, 0] := by
  decide +kernel
def tSplit : State := tP.setCore 0 { tP.core 0 with split := some ⟨13, none, false⟩, l1Grans := 5 }
theorem witness_CoreManagement_split : (tSplit.core 0).split = some ⟨13, none, false⟩ ∧ (tSplit.core 0).l1.length ≤ ((tSplit.core 0).l1Grans - 1) * 256 := by decide +kernel
def tDrains : State := tP.setCore 0 { tP.core 0 with draining := [0] }
theorem witness_CoreManagement_relocate : ((tDrains.wave ⟨0, 0⟩).row 1).map Row.place = some 1 ∧ 1 / 256 ∈ (tDrains.core 0).draining ∧ 0 < tDrains.rowsFree 0 ∧
    (tDrains.core 0).openGrans.Nodup ∧ (tP.core 0).draining = [] ∧ (tP.core 0).split = none := by decide +kernel
def tFaulty (s : State) : State := s.setCore 0 { s.core 0 with laneErrors := [(3, 32, 0), (3, 32, 5)] }
theorem witness_CoreManagement_lanes : ((tFaulty tP).core 0).laneFaulty 3 32 = true ∧ (tFaulty tP).coreWaves 0 ≠ [] ∧ ((tFaulty { tP with waves := [] }).core 0).laneFaulty 3 32 = true ∧
    (tFaulty { tP with waves := [] }).coreWaves 0 = [] := by decide +kernel

/-! ### Tiles, copies, products: tile headers at scratchpad 400H (A) and 2000H (B), an ACCST descriptor and target at 3000H and 4000H -/

def tileMem (typ : Nat) (fmt : Word) (klen : Nat) (s : State) : State :=
  (s.modTeam 0 (fun t =>
    (t.putBytes 0x400 ((TileHdr.mk fmt klen false 0 typ 1 0 0 0x3F800000 0 0).map (fun b => ⟨b, false⟩))).putBytes 0x2000
      ((TileHdr.mk fmt klen false 1 typ 1 0 0 0x3F800000 0 0).map (fun b => ⟨b, false⟩)))).modWave ⟨0, 0⟩ (fun w => { w with
    sregs := ((((w.sregs.set 8 0x400).set 9 0x2000).set 12 0).set 13 0x3000).set 14 0x4000 })
def tTile : State := tileMem 1 0 8 tP
def fMma : VT := ⟨16, 8, 9, 0⟩
theorem tileOk_of (x : Team) (m : MmaSpec) (v : Word) (kind kt : Nat) (h : v.getLsbD 19 = false ∧ (v.toNat % 2 ^ 19 % 32 = 0 ∧ v.toNat % 2 ^ 19 + 32 ≤ x.spSize ∧ x.headerPois (v.toNat % 2 ^ 19) = false) ∧
    (dataStart (v.toNat % 2 ^ 19) + (tileRows kind m.typ - 1) * rstride (TileHdr.klen (x.header (v.toNat % 2 ^ 19))) m.bits
    + ((v.toNat / 2 ^ 20 + 1) * kt * m.bits + 7) / 8 ≤ x.spSize) ∧
    (TileHdr.kind (x.header (v.toNat % 2 ^ 19)) = kind ∧ TileHdr.typ (x.header (v.toNat % 2 ^ 19)) = m.typ ∧
    TileHdr.reserved (x.header (v.toNat % 2 ^ 19)) = false ∧ (kind = 1 → TileHdr.gath (x.header (v.toNat % 2 ^ 19)) = false)) ∧
    ((m.typ ≠ 4 → TileHdr.fmt (x.header (v.toNat % 2 ^ 19)) = 0) ∧ (m.typ = 4 → Narrow.valid (TileHdr.fmt (x.header (v.toNat % 2 ^ 19))) = true ∧
    m.lo ≤ Narrow.width (TileHdr.fmt (x.header (v.toNat % 2 ^ 19))) ∧ Narrow.width (TileHdr.fmt (x.header (v.toNat % 2 ^ 19))) ≤ m.hi)) ∧
    (v.toNat / 2 ^ 20 + 1) * kt ≤ TileHdr.klen (x.header (v.toNat % 2 ^ 19))) : x.TileOk m v kind kt :=
  ⟨h.1, h.2.1, h.2.2.1, h.2.2.2.1, h.2.2.2.2.1, h.2.2.2.2.2⟩
theorem mmaReady_tTile : tTile.MmaReady fMma (mmaSpec 0x75) where
  begins := ⟨Or.inl (by decide +kernel), Or.inr ⟨by decide +kernel, by decide +kernel⟩, unarmed_of (by decide +kernel)⟩
  clean := by decide +kernel
  a := tileOk_of _ _ _ _ _ (by decide +kernel)
  b := tileOk_of _ _ _ _ _ (by decide +kernel)
  meta_ := by decide +kernel
def tMma : State := out (.mmas fMma) tTile
def theTile (s : State) : TileOp := match (anOp s).kind with
  | .tile t _ _ => t
  | _ => ⟨0, 0, [], [], 0, 0, 0, 0, 0, none⟩
def tMmaOn : State := got (execTileOpStart ⟨0, 0⟩ (anOp tMma).id tMma) tMma
theorem witness_MatrixOperations : tTile.MmaReady fMma (mmaSpec 0x75) ∧ (tMma.wave ⟨0, 0⟩).tileOp (anOp tMma).id = some (anOp tMma, theTile tMma, false) ∧
    tMma.missingScales ⟨0, 0⟩ (anOp tMma) (theTile tMma) = [] ∧ (tMma.core 0).array = [] ∧ tMma.cur.ops = [anOp tMma] ∧
    (tMmaOn.wave ⟨0, 0⟩).tileOp (anOp tMmaOn).id = some (anOp tMmaOn, theTile tMmaOn, true) ∧ tMmaOn.missingScales ⟨0, 0⟩ (anOp tMmaOn) (theTile tMmaOn) = [] ∧
    (theTile tMmaOn).hit = none ∧ (theTile tMmaOn).badNibble (tMmaOn.team 0) (anOp tMmaOn).lanes = none ∧ (theTile tMmaOn).acc + 16 ≤ 62 ∧
    (tMmaOn.wave ⟨0, 0⟩).accWaits = false ∧ (∀ j, j < 16 → ((tMmaOn.wave ⟨0, 0⟩).row (16 + j)).isSome) ∧ ((tMmaOn.wave ⟨0, 0⟩).lanes[0]).status = .live :=
  ⟨mmaReady_tTile, by decide +kernel⟩
/-- R226: a sparse operation whose metadata are all zero names no two rising positions. -/
def tSparse : State := tP.modWave ⟨0, 0⟩ (fun w => { w with ops := [⟨1, .tl, 0, 1, .tile ⟨0x7A, 16, TileHdr.mk 0 128 false 0 4 1 0 0 0 0 0,
  TileHdr.mk 0 128 false 1 4 1 0 0 0 0 0, 0x400, 0x2000, 0, 0, 0x3000, none⟩ true [], false, none, 0⟩] })
theorem witness_MatrixOperations_sparse : (tSparse.wave ⟨0, 0⟩).tileOp 1 = some (anOp tSparse, theTile tSparse, true) ∧
    tSparse.missingScales ⟨0, 0⟩ (anOp tSparse) (theTile tSparse) = [] ∧ ((theTile tSparse).badNibble (tSparse.team 0) (anOp tSparse).lanes).isSome = true ∧
    (tSparse.wave ⟨0, 0⟩).accWaits = false := by decide +kernel
/-- An operation of one lane whose A tile has block scales at 10000H, none of them in the clove cache; then with the scales that it asked for. -/
def tScale : State := tM.modWave ⟨0, 0⟩ (fun w => { w with ops := [⟨1, .tl, 0, 1, .tile ⟨0x78, 16, TileHdr.mk 0x800000 64 false 0 4 1 0 0 0 0 0x10000,
  TileHdr.mk 0 64 false 1 4 1 0 0 0 0 0, 0x400, 0x2000, 0, 0, 0, none⟩ false [], false, none, 0⟩] })
def tScaleGot : State := { got (execCloveMissRead ⟨0, 0⟩ 1 tScale) tScale with net := [] }
theorem witness_MatrixOperations_scales : (tScale.wave ⟨0, 0⟩).tileOp 1 = some (anOp tScale, theTile tScale, false) ∧ tScale.replied ⟨0, 0⟩ 1 = true ∧
    (anOp tScale).fail = none ∧ (anOp tScale).kind.accs = [] ∧ tScale.missingScales ⟨0, 0⟩ (anOp tScale) (theTile tScale) = [(1, 0x800000, 0, 0, 0x10000)] ∧
    tScale.reachAll (tScale.wave ⟨0, 0⟩).ctx [(0x10000, 1)] .read = .ok ∧ tScale.struckHeld (tScale.wave ⟨0, 0⟩).team [0x10000] = none ∧
    (tScaleGot.wave ⟨0, 0⟩).tileOp 1 = some (anOp tScaleGot, theTile tScaleGot, false) ∧ tScaleGot.replied ⟨0, 0⟩ 1 = true ∧ (anOp tScaleGot).fail = none ∧
    (anOp tScaleGot).kind.accs.length = 1 := by decide +kernel
/-- An ACCST of FP32 accumulators with no options. -/
def fAcc : VT := ⟨16, 14, 12, 0⟩
def tAcc : State := out (.accst fAcc) tTile
/-- The same behind an operation that has not completed, and when the array has begun that. -/
def tAccLate : State := out (.accst fAcc) tMma
def tAccBegun : State := got (execTileOpStart ⟨0, 0⟩ (anOp tMma).id tAccLate) tAccLate
theorem witness_MatrixOperations_accst : (∀ c ∈ tTile.accstChecks fAcc, c = none) ∧ tTile.begins (vnames 16 16) 0 ∧ tTile.cur.sreg 12 0 = 0 ∧
    tTile.cur.accWaits = false ∧ tTile.cur.swapped = none ∧ tTile.cur.accPending tTile.nextId 16 = false ∧
    (tAcc.wave ⟨0, 0⟩).op (anOp tAcc).id = some (anOp tAcc) ∧
    (match (anOp tAcc).kind with
      | .accst y => y.late == none
      | _ => false) = true ∧ (anOp tAcc).done = false := by
  refine ⟨by decide +kernel, ⟨Or.inl (by decide +kernel), Or.inl rfl, unarmed_of (by decide +kernel)⟩, by decide +kernel⟩
theorem witness_MatrixOperations_late : (∀ c ∈ tMma.accstChecks fAcc, c = none) ∧ tMma.begins (vnames 16 16) 0 ∧ tMma.cur.accWaits = false ∧ tMma.cur.swapped = none ∧
    tMma.cur.accPending tMma.nextId 16 = true ∧ (tAccBegun.wave ⟨0, 0⟩).tileOp (anOp tAccBegun).id = some (anOp tAccBegun, theTile tAccBegun, true) ∧
    tAccBegun.missingScales ⟨0, 0⟩ (anOp tAccBegun) (theTile tAccBegun) = [] ∧ (theTile tAccBegun).hit = none ∧
    (theTile tAccBegun).badNibble (tAccBegun.team 0) (anOp tAccBegun).lanes = none ∧
    ((tAccBegun.wave ⟨0, 0⟩).ops.map (fun o => (o.id == (anOp tAccBegun).id, o.done, match o.kind with
      | .accst y => y.late.isSome
      | _ => false))) = [(true, false, false), (false, false, true)] := by
  refine ⟨by decide +kernel, ⟨Or.inl (by decide +kernel), Or.inl rfl, unarmed_of (by decide +kernel)⟩, by decide +kernel⟩

/-! Copies: a shape record of 2 rows of 8 FP32 elements at 10000H on an uncached page with its marks set, the tensor at 10480H -/

def shapeRec : List Byte := leBytes 8 0x10480 ++ leBytes 4 0 ++ leBytes 4 0x101 ++ leBytes 4 8 ++ leBytes 4 2 ++ leBytes 4 1 ++ leBytes 4 1 ++
  leBytes 4 8 ++ leBytes 4 16 ++ leBytes 4 16 ++ leBytes 4 0x3F800000 ++ leBytes 8 0 ++ leBytes 4 0 ++ leBytes 4 0x100
def tCopy : State := { tTile.modWave ⟨0, 0⟩ (fun w => { w with sregs := (((w.sregs.set 20 0x10000).set 22 0).set 24 0x400).set 25 0xFFFFFFFF }) with
  mem := cellPut (cellPut (cellPut tM.mem 0x40008 (leBytes 8 ((Pte.mk 0x60000 true true false 0 1 0 false).toNat + 0x60))) 0x60000 shapeRec) 0x60480 [1, 2, 3, 4] }
def fCopy : UC := ⟨20, 22, 24, 25⟩
theorem copyReady_of (s : State) (f : UC) (mc : Bool) (h : (mc = true → s.regionOpen s.cur.team = false) ∧
    (s.cur.spairPois f.a = false ∧ s.cur.spairPois f.b = false ∧ s.cur.sregPois f.c = false ∧ s.cur.sregPois f.fn = false) ∧
    ((s.cur.sreg (f.a + 1) 0).extractLsb' 24 8 = 0 ∧ s.cur.sreg f.c 0 &&& (if mc then 0xF0F80000 else 0xFFF80000) = 0) ∧
    (mc = true → (s.cur.sreg f.c 0).extractLsb' 24 4 ≠ 0 ∧ ((s.cur.sreg f.c 0).extractLsb' 24 4).toNat ≤ 2 ^ s.crewSize s.cur.team - 1) ∧
    ((s.cur.sreg f.c 0).toNat % 2 ^ 19 % 32 = 0 ∧ (s.cur.spair f.a).toNat % 2 ^ 56 % 64 = 0 ∧ (s.cur.sreg f.fn 0 ≠ 0xFFFFFFFF → (s.cur.sreg f.fn 0).toNat % 16 = 0)) ∧
    ((mc = false ∨ ((s.cur.sreg f.c 0).extractLsb' 24 4).getLsbD s.curTeam.member = true) → (s.cur.sreg f.c 0).toNat % 2 ^ 19 + 32 ≤ s.curTeam.spSize ∧
      (s.cur.sreg f.fn 0 ≠ 0xFFFFFFFF → (s.cur.sreg f.fn 0).toNat + 16 ≤ s.curTeam.spSize ∧ s.curTeam.kind2At (s.cur.sreg f.fn 0).toNat = true))) : s.CopyReady f mc :=
  ⟨h.1, h.2.1, h.2.2.1, h.2.2.2.1, h.2.2.2.2.1, h.2.2.2.2.2⟩
def tCast : State := tCopy.modWave ⟨0, 0⟩ (fun w => { w with sregs := w.sregs.set 24 0x01000400 })
theorem witness_CopiesAndProducts_issue : tCopy.CopyReady fCopy false ∧ tCast.CopyReady fCopy true :=
  ⟨copyReady_of _ _ _ (by decide +kernel), copyReady_of _ _ _ (by decide +kernel)⟩
def tLoading : State := out (.tload fCopy) tCopy
def tStoring : State := (out (.tstore fCopy) tCopy).modTeam 0 (fun t => t.putWord 0x500 0x12345678 false)
def aCopy (s : State) : CopyOp := match (anOp s).kind with
  | .copy c _ _ _ => c
  | _ => ⟨0, 0, 0, 0, 0, 0, 0⟩
/-- The copy with its record, with bytes that have come for it. -/
def copied (r : Option (List Byte)) (accs : List LaneAcc) (s : State) : State :=
  s.modWave ⟨0, 0⟩ (fun w => { w with ops := [{ anOp s with kind := .copy (aCopy s) r accs none }] })
def come (lane va pa : Nat) (bs : List Byte) : LaneAcc := ⟨lane, bs.zipIdx.map (fun b => ⟨va + b.2, pa + b.2, some ⟨b.1, false⟩⟩), [], none, false⟩
def aJob (s : State) : CopyJob := ⟨⟨0, 0⟩, anOp s, aCopy s, shapeRec⟩
theorem copyAt_of (s : State) (r : Option (List Byte)) (accs : List LaneAcc) (h : (s.wave ⟨0, 0⟩).op (anOp s).id = some (anOp s) ∧ (anOp s).done = false ∧ (anOp s).fail = none ∧
    (anOp s).kind = .copy (aCopy s) r accs none ∧ s.replied ⟨0, 0⟩ (anOp s).id = true) : s.CopyAt ⟨0, 0⟩ (anOp s) (aCopy s) r accs := h
/-- The record is to be asked for; it has come, good, poisoned and not valid. -/
theorem witness_CopiesAndProducts_record : tLoading.CopyAt ⟨0, 0⟩ (anOp tLoading) (aCopy tLoading) none [] ∧ tLoading.reachAll 0 [((aCopy tLoading).record, 64)] .read = .ok ∧
    tLoading.struckHeld 0 (rangeVas ((aCopy tLoading).record, 64)) = none :=
  ⟨copyAt_of _ _ _ (by decide +kernel), by decide +kernel⟩
theorem witness_CopiesAndProducts_came : ∀ a ∈ [come 0 0x10000 0x60000 shapeRec, come 0 0x10000 0x60000 [], ⟨0, [⟨0x10000, 0x60000, some ⟨0, true⟩⟩], [], none, false⟩],
    (copied none [a] tLoading).CopyAt ⟨0, 0⟩ (anOp (copied none [a] tLoading)) (aCopy tLoading) none (a :: []) := by
  unfold State.CopyAt; decide +kernel
theorem witness_CopiesAndProducts_valid : Shape.valid ((come 0 0x10000 0x60000 shapeRec).bytesGot.map MByte.val) = true ∧
    Shape.valid ((come 0 0x10000 0x60000 []).bytesGot.map MByte.val) = false := by decide +kernel
/-- A load with its record, that asks for its rows; one whose rows have come, with an armed object in its tile and without; one whose tile lies outside. -/
def tShaped : State := copied (some shapeRec) [] tLoading
def tRows (armed : List Nat) : State := (copied (some shapeRec) [come 0 0x10480 0x60480 [1, 2, 3, 4], come 1 0x104A0 0x604A0 [5, 6, 7, 8]] tLoading).modTeam 0 (fun t => { t with armed := armed })
def tOutside : State := tShaped.modTeam 0 (fun t => { t with spSize := 0x420 })
theorem witness_CopiesAndProducts_load : tShaped.CopyAt ⟨0, 0⟩ (anOp tShaped) (aCopy tShaped) (some shapeRec) [] ∧ (aJob tShaped).refused (tShaped.team 0) = none ∧ (aCopy tShaped).op = 0xB7 ∧
    (aJob tShaped).asks (tShaped.team 0) ≠ [] ∧ tShaped.reachAll 0 (((aJob tShaped).asks (tShaped.team 0)).map Prod.fst) .read = .ok ∧
    tShaped.struckHeld 0 ((((aJob tShaped).asks (tShaped.team 0)).map Prod.fst).flatMap rangeVas) = none ∧ (aJob tOutside).refused (tOutside.team 0) = some 0x07 ∧
    ((tRows []).team 0).armedAt 0x400 (aJob (tRows [])).span = none ∧ ((tRows [0x41]).team 0).armedAt 0x400 (aJob (tRows [0x41])).span ≠ none ∧ Memory.wf ((tRows []).team 0).sp :=
  ⟨copyAt_of _ _ _ (by decide +kernel), by decide +kernel⟩
/-- R213: the header and the first row of the load. -/
theorem test_tload : ((out (.copyTransfer ⟨0, 0⟩ (anOp (tRows [])).id) (tRows [])).team 0).spWord 0x500 = 0x04030201 ∧
    ((out (.copyTransfer ⟨0, 0⟩ (anOp (tRows [])).id) (tRows [])).team 0).spWord 0x400 = 0 := by decide +kernel
def tShapedSt : State := copied (some shapeRec) [] tStoring
theorem witness_CopiesAndProducts_store : tShapedSt.CopyAt ⟨0, 0⟩ (anOp tShapedSt) (aCopy tShapedSt) (some shapeRec) [] ∧ (aJob tShapedSt).refused (tShapedSt.team 0) = none ∧
    (aCopy tShapedSt).op = 0xB8 ∧ tShapedSt.regionOpen 0 = false ∧ (tShapedSt.team 0).armedAt 0x400 (aJob tShapedSt).span = none ∧
    ((tShapedSt.modTeam 0 (fun t => { t with armed := [0x41] })).team 0).armedAt 0x400 (aJob tShapedSt).span ≠ none ∧
    tShapedSt.reachAll 0 (((aJob tShapedSt).rows (tShapedSt.team 0)).filterMap (fun r => ((aJob tShapedSt).run r.1).map (fun y => (y.1, y.2.1)))) .write = .ok ∧
    tShapedSt.tileWrites (aJob tShapedSt) ≠ [] ∧ (∀ b ∈ tShapedSt.tileWrites (aJob tShapedSt), lineAddr b.1 = 0x10480) ∧ tShapedSt.markRange 0 0x10480 1 .write = tShapedSt ∧
    (match tShapedSt.translate 0 0x10480 .write with
      | .ok _ _ _ => true
      | _ => false) = true :=
  ⟨copyAt_of _ _ _ (by decide +kernel), by decide +kernel⟩
/-- A transferred copy: for a byte-counting object with no member left; for member 0; with a failed member. -/
def tArrive (op : BitVec 8) (members failed finished : BitVec 4) (bar : Word) : State := (tObj 0 5 0).modWave ⟨0, 0⟩ (fun w => { w with ops := [⟨1, .cp, 0, 3,
  .copy ⟨op, 0x10000, 0, 0, 0x400, members, bar⟩ none [] (some ⟨1, 0x500, List.replicate 32 1, [⟨7, false⟩], [], failed, finished⟩), false, none, 0⟩] })
theorem witness_CopiesAndProducts_arrival : ∀ s ∈ [tArrive 0xB7 0 0 0 0x100, tArrive 0xBA 1 0 0 0xFFFFFFFF, tArrive 0xBA 1 1 1 0xFFFFFFFF, tArrive 0xBA 1 0 1 0xFFFFFFFF],
    (s.wave ⟨0, 0⟩).op 1 = some (anOp s) ∧ (anOp s).done = false ∧ (anOp s).fail = none ∧ s.replied ⟨0, 0⟩ 1 = true ∧ (s.team 0).kind2At 0x100 = true ∧ Memory.wf (s.team 0).sp ∧
    (s.team 0).arrivedAt 0x100 + 1 < (s.team 0).expect 0x100 ∧ (s.waves.all (fun p => p.2.waits == [])) = true ∧ s.memberTeam 0 0 = some 0 ∧
    s.memberFails (some 0) (aCopy s) ⟨1, 0x500, List.replicate 32 1, [⟨7, false⟩], [], 0, 0⟩ = false := by decide +kernel
theorem witness_CopiesAndProducts_failed : let s := (tArrive 0xB7 0 0 0 0x100).modWave ⟨0, 0⟩ (fun w => { w with ops := w.ops.map (fun o => { o with fail := some aFail.fail }) })
    (s.wave ⟨0, 0⟩).op 1 = some (anOp s) ∧ (anOp s).done = false ∧ (anOp s).fail.isSome = true ∧ s.replied ⟨0, 0⟩ 1 = true := by decide +kernel
theorem test_delivery : (out (.tmcastMemberDelivery ⟨0, 0⟩ 1 0 false) (tArrive 0xBA 1 0 0 0xFFFFFFFF)).curTeam.spWord 0x500 = 7 := by decide +kernel

/-! NMV: descriptor at 2000H, x at 3000H, y at 3800H; W of one FP64 element on a page of 64 MiB in stack 3's window at 4000000H, and at 0, on a page that is not -/

def nmvDesc (w : Nat) : List Byte := leBytes 8 w ++ leBytes 4 0 ++ leBytes 4 1 ++ leBytes 4 1 ++ leBytes 4 0 ++ leBytes 8 0
def tNmv (w : Nat) : State := { (tP.modTeam 0 (fun t => t.putBytes 0x2000 ((nmvDesc w).map (fun b => ⟨b, false⟩)))).modWave ⟨0, 0⟩ (fun w => { w with
    sregs := ((w.sregs.set 8 0x2000).set 9 0x3000).set 10 0x3800 }) with
  mem := cellPut tM.mem 0x30008 (leBytes 8 (Pte.mk (localBase 3) true true false 2 0 0 false).toNat) }
theorem witness_CopiesAndProducts_nmv : ∀ w ∈ [0, 0x4000000], let s := tNmv w; let b := cellTake s.curTeam.sp 0x2000 32
    (s.cur.sregPois 8 = false ∧ s.cur.sregPois 9 = false ∧ s.cur.sregPois 10 = false ∧ s.curTeam.headerPois 0x2000 = false) ∧ 0x3000 + nmvXBytes 0 b ≤ s.curTeam.spSize ∧
      0x3800 + nmvYBytes 0 b ≤ s.curTeam.spSize ∧ nmvIllegal 0 b 0x2000 0x3000 0x3800 = false ∧ s.curTeam.armedAt 0x3800 (nmvYBytes 0 b) = none ∧
      s.reachAll 0 ((nmvPages 0 b).map (fun p => (p, 1))) .read = .ok ∧ s.nmvBadPage 0 (nmvPages 0 b) = (if w = 0 then some 0 else none) := by decide +kernel
def tNmvOn : State := out (.nmv ⟨8, 9, 10, 0⟩) (tNmv 0x4000000)
theorem witness_CopiesAndProducts_product : (tNmvOn.wave ⟨0, 0⟩).op (anOp tNmvOn).id = some (anOp tNmvOn) ∧ (anOp tNmvOn).kind = .nmv (nmvDesc 0x4000000) 0x3000 0x3800 0 ∧
    (anOp tNmvOn).done = false ∧ Memory.wf (tNmvOn.team 0).sp := by decide +kernel

/-! ### Dies, stacks, pages -/

def tDie (f : Die → Die) : State := tP.setDie 0 (f (tP.die 0))
/-- A packet at the head of the west input of router 2 that has not moved since clock 0: its route goes on to router 0. -/
def tPk (f : Die → Die) : State := { tDie f with net := [{ aReq tO with spot := .input 2 1, leg := .toHome, pline := 0x60000 }] }
theorem witness_DieAndPageEvents_blocked : (tPk id).covers (2, 1, 0) = true ∧ (tPk id).covers (0, 1, 0) = true ∧
    ((tPk id).headOf (2, 1, 0)).map (fun q => (q.movedAt, (tPk id).wants q)) = some (0, some (.input 0 1)) ∧ 0 + Config.networkClocks 4096 ≤ (tPk id).clock ∧
    tP.headOf (2, 1, 0) = none ∧ tP.covers (0, 1, 2) = true ∧ tP.covers (4, 1, 2) = true := by decide +kernel
def aToken (visited : List (Nat × Nat × Nat)) (closed : Bool) : Token := ⟨4, (2, 1, 0), visited, closed⟩
theorem witness_DieAndPageEvents_net : ((tPk id).input (2, 1, 0)).probedAt = none ∧
    (tPk (fun d => { d with inputs := [⟨2, 1, 0, some 0, none, false⟩] })).input (2, 1, 0) = ⟨2, 1, 0, some 0, none, false⟩ ∧ 0 + Config.networkClocks 4096 ≤ tP.clock ∧
    (∀ d ∈ (tPk id).dies, d.2.probes = []) ∧ ((tPk id).dies.map Prod.fst).Nodup ∧
    (∀ origin ∈ [((0 : Nat), (1 : Nat), (0 : Nat)), (7, 1, 0)], ((tPk (fun d => { d with probes := [⟨3, origin, (2, 1, 0)⟩] })).die 0).probes.find? (fun q => q.id = 3) =
      some ⟨3, origin, (2, 1, 0)⟩) ∧
    (∀ taken : Bool, let t := tPk (fun d => { d with tokens := [aToken [] false], inputs := [⟨0, 1, 0, none, none, taken⟩] })
      (t.die 0).token 4 = some (aToken [] false) ∧ (t.input (0, 1, 0)).slot = taken ∧ ∀ q ∈ t.net, q.spot ≠ .slot 0 1) ∧
    ((tPk (fun d => { d with tokens := [aToken [(0, 1, 0)] true] })).die 0).token 4 = some (aToken [(0, 1, 0)] true) ∧ ((tPk id).net.map Request.id).Nodup ∧
    0 ∉ (tP.die 7).deadLinks := by decide +kernel
/-- R282: the packet takes the slot that the token reserved for it. -/
theorem test_shift : (out (.recoveryShift 0 4) (tPk (fun d => { d with tokens := [aToken [(0, 1, 0)] true] }))).net.map (fun q => (q.spot, q.recoveries)) =
    [(.slot 0 1, 1)] := by decide +kernel
theorem witness_DieAndPageEvents_stacks : 32 * (2 ^ 31 - 1) < 64 * 2 ^ 30 ∧
    ∀ used ∈ [[], List.range 32], let x := (tP.setStack 15 { tP.stack 15 with errs := [(63, 7, 0, true)], spares := [(63, used)] }).stack 15
      x.rowFaulty 63 7 = true ∧ x.used 63 = used := by decide +kernel
def anInv (h : Option Hdr) : Invalidation := ⟨0, 0x10000, 0x10000, 5, [(0x60000, 0x10000)], [], h⟩
theorem witness_DieAndPageEvents_invalidation : ∀ h ∈ [none, some tH], let s : State := { tP with invalidations := [anInv h] }
    s.invalidations.find? (fun i => i.ctx = 0 && s.invalidated i) = some (anInv h) ∧ s.hostPorts ≠ 0 := by decide +kernel
theorem witness_DieAndPageEvents_quiescence : tP.oldAccess = false := by decide +kernel
/-- R369: a frame freed at Q = 0 is zero once Q is 2. -/
theorem test_quiescence : cellTake (out .quiescenceAdvance { tM with quiescence := 1, mem := cellPut tM.mem 0x60000 [7], spoil := [(0x60000, 16, 0)] }).mem 0x60000 1 = [0] := by decide +kernel
/-- A page that migrates at 20000H (entry 40010H), and one in stack 0's window at 30000H (entry 40018H). -/
def tPages : State := { tM with mem := cellPut (cellPut tM.mem 0x40010 (leBytes 8 (Pte.mk 0x70000 true true true 0 0 2 false).toNat)) 0x40018 (leBytes 8 (Pte.mk (localBase 0) true true true 1 0 0 false).toNat) }
def tMoving (why : WaitWhy) : State := tPages.modWave ⟨0, 0⟩ (fun w => { w with waits := [aWait why] })
theorem witness_DieAndPageEvents_migrating : ((tMoving (.migrating 0 0 384 0x20000 0 0 3)).wave ⟨0, 0⟩).waits = [aWait (.migrating 0 0 384 0x20000 0 0 3)] ∧
    tPages.translate 0 0x20000 (accessOf 0) = .migrating 0 ∧ (match tPages.translate 0 0x10000 (accessOf 0) with
      | .migrating _ => false
      | _ => true) = true ∧ 0 + 3000000 ≤ tPages.clock ∧ (tPages.wave ⟨0, 0⟩).handler = false ∧ (tPages.wave ⟨0, 0⟩).tvec ≠ 0 := by decide +kernel
def aMap : MapArgs := ⟨0x50000, 0x10000, 0, true, true, false, 0, 0, 0, false, 0, none, false⟩
theorem witness_DieAndPageEvents_service : ((tMoving (.page [(5, 0)])).wave ⟨0, 0⟩).waits = [aWait (.page [(5, 0)])] ∧ tPages.walk 0 (5 * 65536) = .none 0 ∧
    (tPages.mapPages 0 aMap none).1 = 0 ∧ (match (tPages.mapPages 0 aMap none).2.walk 0 0x50000 with
      | .none _ => false
      | _ => true) = true ∧
    ∀ a ∈ [0, 3], ({ tPages with faults := [⟨6, 0, 0x50000, a, none, none⟩] } : State).faults.find? (fun f =>
      f.id = 6 ∧ f.answered = none ∧ f.migratingSince = none) = some ⟨6, 0, 0x50000, a, none, none⟩ := by decide +kernel
theorem witness_DieAndPageEvents_migrate : tPages.migrations = [] ∧ tPages.window (localBase 0) = .local_ 0 ∧ (match tPages.walk 0 0x30000 with
      | .leaf ea e 0 => decide (ea = 0x40018 ∧ Pte.home e = 1 ∧ Pte.state e = 0 ∧ Pte.frame e = localBase 0)
      | _ => false) = true ∧ (tPages.allocRange 1 1 (pageSize 0) (pageSize 0) 0).isSome = true ∧ (∀ p ∈ tPages.cores, p.2.l1 = []) ∧ Memory.wf tPages.mem := by decide +kernel
def aMigration : Migration := ⟨0, 0x20000, 0x40010, 0x10000, 0x70000, 0x90000⟩
theorem witness_DieAndPageEvents_migrated : let s : State := { tPages with migrations := [aMigration] }
    s.migrations.find? (fun m => m.ctx = 0 ∧ m.va ≤ 0x20000 ∧ 0x20000 < m.va + m.size) = some aMigration ∧ s.invalidations = [] ∧ Pte.valid (s.entryAt 0x40010) = true ∧
      Pte.leaf (s.entryAt 0x40010) = true ∧ Pte.state (s.entryAt 0x40010) = 2 ∧ Pte.frame (s.entryAt 0x40010) = 0x70000 ∧ 0x40010 + 8 ≤ 0x90000 := by decide +kernel
def tFetch (pc : Word) (window : Nat) : State := (tPages.setContext 0 { tPages.context 0 with window := window }).modWave ⟨0, 0⟩ (fun w => w.moveTo (BitVec.ofNat 32 3) pc)
theorem witness_DieAndPageEvents_fetch : ∀ x ∈ [((0x10000 : Word), 0x10000), (0x50000, 0x100000), (0x20000, 0x100000)],
    ((tFetch x.1 x.2).wave ⟨0, 0⟩).laneMask (fun l => l.free && l.pc == x.1) ≠ 0 ∧ (tFetch x.1 x.2).fetchXlat 0 x.1 =
      (if x.1 = 0x10000 then .fault 9 3 0 else if x.1 = 0x50000 then .noPage 0 else .migrating 0) ∧ ((tFetch x.1 x.2).wave ⟨0, 0⟩).refused = [] := by decide +kernel

/-! ### A pass of queue 0 on a target of 4 × 4 pixels at 11000H, 4 bytes a sample, one sample a pixel; one grain; a triangle that covers half of it -/

def passRec (crec : Nat) : List Byte := leBytes 8 crec ++ leBytes 4 0x40 ++ leBytes 4 0 ++ leBytes 8 0 ++ leBytes 8 0 ++ leBytes 8 1 ++ leBytes 4 0x00040004 ++ leBytes 4 0 ++
  leBytes 8 0 ++ leBytes 4 0 ++ leBytes 4 0 ++ leBytes 8 0x12000 ++ leBytes 4 0 ++ leBytes 4 0 ++ List.replicate 24 0 ++ List.replicate 24 0 ++ leBytes 8 0x11000 ++ leBytes 4 1 ++ leBytes 4 4 ++
  List.replicate 112 0
def triRec (x1 : Nat) : List Byte := leBytes 4 0 ++ leBytes 4 0 ++ leBytes 4 0 ++ leBytes 4 x1 ++ leBytes 4 0 ++ leBytes 4 0 ++ leBytes 4 0 ++ leBytes 4 0x40800000 ++ leBytes 4 0 ++
  leBytes 4 0 ++ leBytes 8 0
def aPrim : Prim := ⟨0, 0, triRec 0x40800000⟩
def aTile : TileSt := TileSt.fresh 0 0
def aPass : Pass := ⟨0, 0, 0x10800, passRec 0, [(0, [])], [], 0, [⟨0, 0, false, 0⟩], [], [], [], [], (List.range 8).map (fun d => ⟨d, 0, 0, [], []⟩), []⟩
def aFrag (lane : Nat) : Frag := ⟨lane, lane, 0, 0, [(0, 0)], false, false, false, 0, [], none⟩
def aPixel : PixelWave := ⟨0, 0, 0, 0, 0x10800, 0, [aFrag 0, aFrag 1]⟩
/-- The pass is open; team 0 works for its one render task, whose record of one triangle stands at scratchpad 400H. -/
def tPass (p : Pass) : State := { (((tP.modTeam 0 (fun t => t.putBytes 0x400 ((triRec 0x40800000).map (fun b => ⟨b, false⟩)))).modWave ⟨0, 0⟩ (fun w => { w with
    sregs := (((w.sregs.set 8 0x400).set 9 1).set 10 0).set 11 0 })).setContext 0 { tP.context 0 with queues := [(0, { aQueue with render := true })] }) with
  mem := tM.mem, tasks := [(0, { Task.absent with queue := 0, complete := false })], passes := [p] }
/-- One wave of it is a pixel wave with fragments in lanes 0 and 1. -/
def tPixel (px : PixelWave) : State := (tPass aPass).modWave ⟨0, 0⟩ (fun w => { w with pixel := some px })
theorem witness_PixelOperations : (tPixel aPixel).cur.pixel = some aPixel ∧ (tPixel aPixel).regionOpen (tPixel aPixel).cur.team = false ∧
    (∀ g ∈ aPixel.frags, g.lane < 32) ∧ (aPixel.frags.map Frag.lane).Nodup ∧ ((tPixel aPixel).openPass 0 0).map Pass.rec_ = some (passRec 0) ∧ PassRec.fmt (passRec 0) 0 ≠ 0 ∧
    (∀ g ∈ aPixel.frags, g.colours = [] ∧ g.depth = none ∧ ∀ x ∈ vnames 0 4, ((tPixel aPixel).cur.vpois x).getLsbD g.lane = false) ∧
    (tPixel aPixel).cur.guardPois (tPixel aPixel).sel.mask 0 = 0 ∧ (tPixel aPixel).cur.guardLanes (tPixel aPixel).sel.mask 0 false = 0 ∧
    (tPixel aPixel).cur.live &&& ~~~((tPixel aPixel).cur.guardLanes (tPixel aPixel).sel.mask 7 false) = 0 ∧
    (tPixel aPixel).cur.fragLanes (BitVec.allOnes 32) (fun g => !g.locked && !(tPixel aPixel).cur.fragEnded g) = 3 ∧ (tPixel aPixel).cur.earlierDone (tPixel aPixel).nextId [.ld] = true ∧
    (∀ g ∈ aPixel.frags, (tPixel aPixel).sectionBarred aPixel g = false) ∧ (tPixel aPixel).cur.errinj = 0 ∧ tP.cur.pixel = none ∧ (tPixel aPixel).cur.fpc = 0 := by decide +kernel
theorem witness_PixelOperations_unarmed : (tPixel aPixel).unarmed ∧ (tPixel aPixel).begins (vnames 0 4) 0 :=
  ⟨unarmed_of (by decide +kernel), Or.inl (by decide +kernel), Or.inl rfl, unarmed_of (by decide +kernel)⟩
/-- In an open region; with a load of the wave outstanding. -/
theorem witness_PixelOperations_region : (inRegion tP).regionOpen (inRegion tP).cur.team = true ∧ (inRegion tP).sel.mask ≠ 0 ∧
    (inRegion tP).cur.guardLanes (inRegion tP).sel.mask 7 false ≠ 0 ∧ ((tPixel aPixel).modWave ⟨0, 0⟩ (fun w => { w with
      ops := [⟨0, .ld, 0, 1, .load 8 4 false 0 none none [], false, none, 0⟩] })).cur.earlierDone (tPixel aPixel).nextId [.ld] = false := by decide +kernel
/-- R395: an export of a depth to a pass with a depth target. -/
theorem witness_PixelOperations_depth : PassRec.dbase ((passRec 0).take 0x30 ++ leBytes 8 0x13000 ++ (passRec 0).drop 0x38) ≠ 0 := by decide +kernel
def heldFrag (lane : Nat) : Frag := { aFrag lane with locked := true }
theorem witness_PixelOperations_release : (tPixel { aPixel with frags := [heldFrag 0] }).cur.fragLanes (BitVec.allOnes 32) (fun g => g.locked && !g.released) = 1 ∧
    (tPixel aPixel).cur.fragLanes (BitVec.allOnes 32) (fun g => g.locked && !g.released) = 0 := by decide +kernel
def tSection : State := (tPixel aPixel).modWave ⟨0, 0⟩ (fun w => { w with waits := [aWait (.pixelSection 3)] })
theorem witness_PixelOperations_acquire : (tSection.wave ⟨0, 0⟩).waits = [aWait (.pixelSection 3)] ∧ (tSection.wave ⟨0, 0⟩).pixel = some aPixel ∧
    (tSection.wave ⟨0, 0⟩).earlierDone tSection.nextId [.ld] = true ∧
    ∀ g ∈ aPixel.frags, g.locked = false ∧ (tSection.wave ⟨0, 0⟩).fragEnded g = false ∧ tSection.sectionBarred aPixel g = false := by decide +kernel
def tHolds : State := let s := tPixel { aPixel with frags := [heldFrag 0] }; s.setContext 0 { s.context 0 with pxwdt := 1 }
theorem witness_PixelOperations_timeout : (tHolds.wave ⟨0, 0⟩).pixel = some { aPixel with frags := [heldFrag 0] } ∧
    ({ aPixel with frags := [heldFrag 0] } : PixelWave).frags.find? (fun g => g.lane = 0 && (tHolds.wave ⟨0, 0⟩).fragHolds g) = some (heldFrag 0) ∧ (tHolds.context 0).frozenAt = none ∧
    (tHolds.context 0).pxwdt = 1 ∧ (heldFrag 0).lockedAt + 1 * 1500 < tHolds.clock := by decide +kernel

theorem witness_RenderPasses_prim : (tPass aPass).primPass = some aPass ∧ (tPass aPass).unarmed ∧ (tPass aPass).cur.sreg 8 0 = 0x400 ∧ (tPass aPass).cur.sreg 9 0 = 1 ∧ (tPass aPass).cur.spair 10 = 0 ∧
    ((tPass aPass).cur.sregPois 8 = false ∧ (tPass aPass).cur.sregPois 9 = false ∧ (tPass aPass).cur.spairPois 10 = false) ∧ (tPass aPass).regionOpen (tPass aPass).cur.team = false ∧
    0x400 + 48 * 1 ≤ (tPass aPass).curTeam.spSize ∧ ((tPass aPass).curTeam.spBytes 0x400 48).any MByte.pois = false ∧ aPass.refusesPrim 0 ((tPass aPass).curTeam.prims 0x400 1) = false := by
  refine ⟨by decide +kernel, unarmed_of (by decide +kernel), by decide +kernel⟩
def tSending : State := (tPass aPass).modWave ⟨0, 0⟩ (fun w => { w with waits := [aWait (.prim [triRec 0x40800000] 0 true)] })
theorem witness_RenderPasses_accept : tSending.openPass 0 0 = some aPass ∧ (tSending.wave ⟨0, 0⟩).waits = [aWait (.prim [triRec 0x40800000] 0 true)] ∧
    (∀ i : Fin 32, (tSending.wave ⟨0, 0⟩).lanes[i].stopped = false) ∧ (tSending.task (tSending.team (tSending.wave ⟨0, 0⟩).team).task).ctx = 0 ∧
    (tSending.task (tSending.team (tSending.wave ⟨0, 0⟩).team).task).queue = 0 ∧ tSending.primBefore 0 0 0 0 = false := by decide +kernel
/-- A close, a record that is dropped (it has no area) and one that is forwarded; a record on its way to die 0; a close marker on its way. -/
theorem witness_RenderPasses_exchange : recDropped (triRec 0) 4 4 = true ∧ recDropped (triRec 0x40800000) 4 4 = false ∧ recTiles (triRec 0x40800000) 4 4 = [(0, 0)] ∧
    PassRec.width (passRec 0) = 4 ∧ PassRec.height (passRec 0) = 4 ∧ ({ aPass with exchange := [(0, aPrim)] } : Pass).nextRecord 0 = some aPrim ∧
    (({ aPass with exchange := [(0, aPrim)] } : Pass).coveredTiles 0 aPrim.bytes).length ≤ (tPass { aPass with exchange := [(0, aPrim)] }).binFree 0 ∧
    ({ aPass with markers := [(0, 0, 1)] } : Pass).markers.find? (fun m => m.1 = 0 ∧ m.2.1 = 0) = some (0, 0, 1) ∧ (∃ o ∈ aPass.owners, o.die = 0) := by decide +kernel
def withTile (t : TileSt) : Pass := { aPass with tiles := [t], owners := (List.range 8).map (fun d => ⟨d, 1, 0, [], []⟩) }
def tFlush : TileSt := { aTile with phase := .flushing, core := some 0 }
theorem witness_RenderPasses_flush : (withTile tFlush).tile 0 0 = some tFlush ∧ (tPass (withTile tFlush)).openPass 0 0 = some (withTile tFlush) ∧ (tPass (withTile tFlush)).tileDone (withTile tFlush) tFlush = true ∧
    (tPass (withTile tFlush)).areaReach 0 (PassRec.slot (passRec 0) 0 0) (PassRec.bufSize (passRec 0)) .write = .ok ∧ PassRec.owner (passRec 0) 0 0 = 0 := by decide +kernel
def tWant (saved : Bool) : TileSt := { aTile with phase := .closing, saved := saved }
theorem witness_RenderPasses_grant : ∀ b : Bool, (tWant b).wantsBuffer = true ∧ (tPass (withTile (tWant b))).bufCore (withTile (tWant b)) (tWant b) = some 0 ∧
    ∀ a ∈ (tPass (withTile (tWant b))).openAreas (withTile (tWant b)) (tWant b), (tPass (withTile (tWant b))).areaReach 0 a.1 a.2 .read = .ok := by decide +kernel
def tWork : TileSt := { tFlush with work := [aPrim] }
theorem witness_RenderPasses_launch : tWork.core = some 0 ∧ tWork.work = aPrim :: [] ∧ tWork.quads < (tileQuads (passRec 0) aPrim.bytes 0 0).length ∧ (triOf aPrim.bytes).isSome = true ∧
    (tPass (withTile tWork)).admits 0 1 0 (.team (tPass (withTile tWork)).nextId) ((tPass (withTile tWork)).nextId + 1) = true := by decide +kernel
def tBlend : TileSt := { tFlush with ended := [{ aFrag 0 with colours := [(0, [1, 2, 3, 4])] }] }
theorem witness_RenderPasses_blend : (nextFrag ((tPass (withTile tBlend)).tileFrags 0 0 tBlend)).isSome = true ∧ tBlend.core.isSome = true := by decide +kernel
def tBinned : TileSt := { aTile with bin := [aPrim] }
def tClosing : TileSt := { aTile with phase := .closing, core := some 0 }
theorem witness_RenderPasses_render : PassRec.glast (passRec 0) ≤ ((withTile tBinned).owner 0).orderPoint ∧ tBinned.phase = .idle ∧ tBinned.bin ≠ [] ∧
    [tClosing].find? (fun t => t.phase = .closing && t.core.isSome && (tPass (withTile tClosing)).tileDone (withTile tClosing) t) = some tClosing ∧
    ∀ r ∈ tClosing.rows (passRec 0), (tPass (withTile tClosing)).areaReach 0 r.2.2 ((tileSpan 0 4).length * PassRec.samples (passRec 0) * PassRec.bytesOf (passRec 0) r.1) .write = .ok := by
  decide +kernel
theorem witness_RenderPasses_end : (withTile { aTile with phase := .written }).finished = true ∧ PassRec.crec (passRec 0) = 0 ∧ PassRec.crec (passRec 0x10900) ≠ 0 ∧
    (tPass aPass).areaReach 0 0x10900 16 .write = .ok := by decide +kernel
theorem witness_RenderPasses_watchdog : (aPass.owner 0).orderPoint < PassRec.glast (passRec 0) ∧ (tPass aPass).grainIdle aPass 0 = false ∧ ((tPass aPass).context 0).frozenAt = none ∧
    PassRec.watchdog (passRec 0) ≠ 0 ∧ PassRec.watchdog (passRec 0) < 2 ^ 32 ∧ (aPass.owner 0).movedAt + PassRec.watchdog (passRec 0) * 1500 < { tPass aPass with clock := 200000000 }.clock := by
  decide +kernel
/-- R381: an item at the port goes to its owner and is counted there. -/
theorem test_forward : ((out (.exchangeForward 0 0) (tPass { aPass with port := [⟨0, 0, some aPrim⟩] })).passes.map (fun p => (p.exchange, p.sent))) = [([(0, aPrim)], [((0, 0), 1)])] := by
  decide +kernel

/-! ### The fabric: a load of lane 0 whose line is in the fabric window, a window of 16 GiB there; a collective of two members, ours rank 0 -/

def tNode (by_ : NetAgent) (kind : ReqKind) (tries : Nat) (dead : Bool) : State := { tLd with
  net := [{ aReq tLd with by_ := by_, pline := fabricBase, kind := kind, tries := tries, leg := .toHome, spot := .there, dead := dead }], fabmap := [⟨fabricBase, 16, 0, BitVec.allOnes 32⟩] }
theorem witness_FabricAndCollectives_node : ∀ kind ∈ [ReqKind.read true false, .write [(fabricBase, ⟨5, false⟩)] []], ∀ tries ∈ [0, 14, 15], ∀ dead : Bool, let s := tNode (.core 0) kind tries dead
    s.req (aReq s).id = some (aReq s) ∧ s.atNode (aReq s) = true ∧ (aReq s).kind = kind ∧ (aReq s).pline % 128 = 0 ∧ (aReq s).leg = .toHome ∧ (aReq s).spot = .there ∧
    Memory.wf s.mem ∧ s.isFabric (aReq s).pline = true ∧ (aReq s).performed = false ∧ (aReq s).dead = dead ∧ (aReq s).by_.isSlice = false ∧ (aReq s).owners = [] ∧
    (s.wave (aReq s).key).op (aReq s).op = some (anOp s) ∧ (anOp s).fail = none ∧ (s.nodeWindow (aReq s).pline).isSome = true ∧
    ({ s with fabmap := [] } : State).nodeWindow (aReq s).pline = none := by decide +kernel
theorem witness_FabricAndCollectives_slice : let s := tNode (.slice 0 3) (.read false false) 0 false
    s.req (aReq s).id = some (aReq s) ∧ s.atNode (aReq s) = true ∧ (aReq s).by_.isSlice = true := by decide +kernel
/-- R437: the second not-ready reply puts the next try off by 2 µs. -/
theorem test_retry : (out (.notReadyRetry (aReq tLd).id) (tNode (.core 0) (.read true false) 1 false)).net.map (fun q => (q.tries, q.retryAt)) = [(2, 100000000 + 3000)] := by decide +kernel
def secure : Spdm := ⟨3, 15, some 7, true⟩
def tPort (f : UaPort → UaPort) : State := { tS.setPort 31 (f (tS.port 31)) with sessions := [(1, ⟨1, 0x0100, 0x3F, 1, 0, none, secure⟩)] }
theorem witness_FabricAndCollectives_ports : ∀ c : Bool, let s := tPort (fun p => { p with current := c, bank0 := some 1, bank1 := some 2 })
    (s.port 31).switching = false ∧ (∃ v ∈ s.sessions, v.2.spdm.secured = true) ∧ (s.port 31).current = c ∧ (s.port 31).bank0.isSome = true ∧ (s.port 31).bank1.isSome = true ∧
    ((tPort (fun p => { p with current := c, switching := true })).port 31).switching = true ∧ (s.port 31).alive = true ∧ s.hostPorts ≠ 0 := by decide +kernel
theorem witness_FabricAndCollectives_issue : tM.cur.spairPois 0 = false ∧ tM.cur.spairPois 60 = false ∧ tM.regionOpen tM.cur.team = false ∧ tRgn.cur.spairPois 60 = false ∧
    tRgn.regionOpen tRgn.cur.team = true := by decide +kernel
def collDesc : List Byte := leBytes 8 0x10600 ++ leBytes 8 0x10680 ++ leBytes 4 4 ++ leBytes 4 0 ++ leBytes 8 9 ++ List.replicate 32 0
def aColl (desc record : Nat) (mark : Option Nat) : Op := ⟨1, .fx, 0, 1, .coll desc record 4 [] mark, false, none, 0⟩
def tColl (desc record : Nat) (mark : Option Nat) : State := { tM.modWave ⟨0, 0⟩ (fun w => { w with ops := [aColl desc record mark] }) with
  mem := cellPut (cellPut tM.mem 0x60400 collDesc) 0x40008 (leBytes 8 ((Pte.mk 0x60000 true true false 0 0 0 false) ||| 0x60).toNat), cgroups := [⟨0, 0, [7, 8], 0, fabricBase, []⟩], nextId := 5 }
theorem witness_FabricAndCollectives_drop : ((tColl 0x10400 0x10500 none).wave ⟨0, 0⟩).op 1 = some (aColl 0x10400 0x10500 none) ∧ (aColl 0x10400 0x10500 none).done = false ∧ ([] : List Nat).contains 255 = false ∧
    0 + ((tColl 0x10400 0x10500 none).context ((tColl 0x10400 0x10500 none).wave ⟨0, 0⟩).ctx).ctimeout * 1500 ≤ { tColl 0x10400 0x10500 none with clock := 10 ^ 12 }.clock := by decide +kernel
/-- The release of the collective: nothing to push; a push is under way; an earlier load is outstanding. -/
def collRel (s : State) : State × Option Nat × Bool := s.releaseTo ⟨0, 0⟩ 1 5 none
def tPushing : State := { tColl 0x10400 0x10500 (some 5) with net := [{ aReq tO with owners := [((tColl 0x10400 0x10500 none).wave ⟨0, 0⟩).uid] }] }
def tEarlier : State := (tColl 0x10400 0x10500 none).modWave ⟨0, 0⟩ (fun w => { w with ops := ⟨0, .ld, 0, 1, .load 8 4 false 0 none none [], false, none, 0⟩ :: w.ops })
theorem witness_FabricAndCollectives_release : (collRel (tColl 0x10400 0x10500 none)).2.2 = true ∧ tPushing.pushing (tPushing.wave ⟨0, 0⟩).uid 5 [] = true ∧
    tEarlier.releaseReady ⟨0, 0⟩ 1 5 = false := by decide +kernel
theorem witness_FabricAndCollectives_misaligned : (collRel (tColl 0x10401 0x10500 none)).2.2 = true ∧ (collRel (tColl 0x10400 0x10508 none)).2.2 = true ∧ 0x10401 % 64 ≠ 0 ∧
    0x10400 % 64 = 0 ∧ 0x10508 % 16 ≠ 0 := by decide +kernel
def aGroup : CGroup := ⟨0, 0, [7, 8], 0, fabricBase, []⟩
def tCollR : State := let rel := collRel (tColl 0x10400 0x10500 none); rel.1.setWave ⟨0, 0⟩ ((rel.1.wave ⟨0, 0⟩).setOp (aColl 0x10400 0x10500 rel.2.1))
def contrib (count : Nat) : List Contribution := [⟨1, 4, count, 0, List.replicate 16 0⟩]
theorem witness_FabricAndCollectives_exchange : 0x10400 % 64 = 0 ∧ 0x10500 % 16 = 0 ∧ tCollR.engineReach 0 0x10400 64 .read = .ok ∧
    tCollR.vaBytes 0 0x10400 64 = cleanBytes collDesc ∧ tCollR.markRange 0 0x10400 64 .read = tCollR ∧ tCollR.collIllegal 0 4 collDesc = false ∧ tCollR.cgroup 0 (CollDesc.group collDesc) = some aGroup ∧
    tCollR.areaReach 0 (CollDesc.src collDesc) 16 .read = .ok ∧ tCollR.markRange 0 (CollDesc.src collDesc) 16 .read = tCollR ∧ tCollR.engineReach 0 0x10500 48 .write = .ok ∧
    aGroup.living [] = [0, 1] ∧ (∀ n : Nat, ((contrib n).find? (fun c => c.rank = 1)).isSome = true) ∧ CollDesc.count collDesc = 4 ∧ CollDesc.root collDesc = 0 := by
  refine ⟨by decide, by decide, by decide +kernel, by decide +kernel, by decide +kernel, by decide +kernel, by decide +kernel, by decide +kernel, by decide +kernel, by decide +kernel,
    by decide +kernel, fun _ => rfl, by decide +kernel, by decide +kernel⟩
/-- R441: a contribution that disagrees in its count ends the exchange: the record alone is written, with MISMATCH. -/
theorem test_collective : cellTake (got (execCollExchangeComplete ⟨0, 0⟩ 1 (contrib 5) (tColl 0x10400 0x10500 none)) tM).mem 0x60500 8 = [1, 0, 0, 0, 4, 0, 0, 0] := by decide +kernel
theorem witness_FabricAndCollectives_deliver : let j : CollJob := ⟨⟨0, 0⟩, aColl 0x10400 0x10500 none, 4, collDesc, 0x10500, aGroup, [(0, tCollR.vaBytes 0 0x10600 16), (1, cleanBytes (List.replicate 16 0))]⟩
    let runs := j.results.map (fun r => (va56 (CollDesc.dst collDesc + r.1), r.2))
    tCollR.reachAll 0 (runs.map (fun r => (r.1, r.2.length))) .write = .ok ∧ (runs.foldl (fun (t : State) r => t.collWrite j r.1 r.2) tCollR).engineReach 0 0x10500 48 .write = .ok ∧
    ((tColl 0x10400 0x10500 none).wave ⟨0, 0⟩).ops = [aColl 0x10400 0x10500 none] := by decide +kernel

/-! ### The host: session 1 is open with every feature but DENY_UNSECURED, and owns context 0; headers of it in order -/

def aSess (features : DWord) (x : Spdm) : Session := ⟨1, 0x0100, features, 1, 0, none, x⟩
def hosted (v : Session) (s : State) : State := { s.setContext 0 { s.context 0 with session := 1 } with sessions := [(1, v)] }
def tHost : State := hosted (aSess 0x2F Spdm.initial) tM
theorem witness_HostCommands_open : tHost.hostPorts ≠ 0 ∧ (let h := { tH with op := 1, session := 0 }
    h.resv = 0 ∧ h.event = false ∧ h.resp = false ∧ h.status = 0 ∧ h.resv2 = 0 ∧ h.session = 0 ∧ h.length.toNat ≤ 1048576 ∧ h.op = 0x01) ∧
    0x0100 ≤ (0x0100#16).toNat ∧ (0x00FF#16).toNat < 0x0100 ∧ ∀ p ∈ tHost.sessions, p.1.toNat < 2 ^ 32 - 1 := by decide +kernel
/-- A header for each way to refuse it: a reserved bit, no such session, a SEQ to come, another version, too long, the wrong code; and a
repeated command. -/
theorem witness_HostCommands_header : tHost.hostPorts ≠ 0 ∧ tHost.sessionBusy tH.session = false ∧ { tH with resv := 1 }.resv ≠ 0 ∧ assocGet tHost.sessions { tH with session := 9 }.session = none ∧
    assocGet tHost.sessions tH.session = some (aSess 0x2F Spdm.initial) ∧ { tH with seq := 2 }.seq ≠ (aSess 0x2F Spdm.initial).nextSeq ∧ (aSess 0x2F Spdm.initial).stored = none ∧
    tH.seq = (aSess 0x2F Spdm.initial).nextSeq ∧ { tH with vmin := 1 }.vmaj.toNat * 256 + { tH with vmin := 1 }.vmin.toNat ≠ (aSess 0x2F Spdm.initial).version ∧
    tH.vmaj.toNat * 256 + tH.vmin.toNat = (aSess 0x2F Spdm.initial).version ∧ 1048576 < { tH with length := 1048577 }.length.toNat ∧ tH.length.toNat ≤ 1048576 ∧ tH.op.toNat ≠ 0x02 ∧
    { tH with seq := 0 }.seq + 1 = { aSess 0x2F Spdm.initial with stored := some ⟨tH, []⟩ }.nextSeq := by decide +kernel
theorem accepts_of (op : BitVec 8) (v : Session) (s : State) (hs : s.hostPorts ≠ 0 ∧ s.sessionBusy 1 = false ∧ assocGet s.sessions 1 = some v)
    (hv : v.nextSeq = 1 ∧ v.version = 0x0100) : s.Accepts { tH with op := op } v op.toNat := by
  refine ⟨hs.1, hs.2.1, hs.2.2, ⟨rfl, rfl, rfl, rfl, rfl⟩, hv.1.symm, ?_, ?_, rfl⟩
  · have a : tH.vmaj.toNat = 1 := rfl
    have b : tH.vmin.toNat = 0 := rfl
    simp [a, b, hv.2]
  · have : tH.length.toNat = 0 := rfl
    simp [this]
theorem on_of (op : BitVec 8) (v : Session) (c : Context) (s : State) (hs : s.hostPorts ≠ 0 ∧ s.sessionBusy 1 = false ∧ assocGet s.sessions 1 = some v)
    (hv : v.nextSeq = 1 ∧ v.version = 0x0100) (hc : assocGet s.contexts 0 = some c ∧ c.session = 1 ∧ c.ended = false) :
    s.acceptsOn { tH with op := op } v c op.toNat := ⟨accepts_of op v s hs hv, hc.1, hc.2.1, hc.2.2⟩
theorem host_ok : tHost.hostPorts ≠ 0 ∧ tHost.sessionBusy 1 = false ∧ assocGet tHost.sessions 1 = some (aSess 0x2F Spdm.initial) := by decide +kernel
theorem host_ctx : assocGet tHost.contexts 0 = some (tHost.context 0) ∧ (tHost.context 0).session = 1 ∧ (tHost.context 0).ended = false := by decide +kernel
theorem witness_HostCommands_accepts : ∀ op : BitVec 8, tHost.Accepts { tH with op := op } (aSess 0x2F Spdm.initial) op.toNat ∧
    tHost.acceptsOn { tH with op := op } (aSess 0x2F Spdm.initial) (tHost.context 0) op.toNat := fun op =>
  ⟨accepts_of op _ _ host_ok ⟨rfl, rfl⟩, on_of op _ _ _ host_ok ⟨rfl, rfl⟩ host_ctx⟩
def aCtx : CtxArgs := ⟨0, 0x40, 0x10000, 0, 0, 1, true⟩
theorem witness_HostCommands_create : (aSess 0x2F Spdm.initial).feature 3 = true ∧ (aSess 0x3F Spdm.initial).feature 4 = true ∧ Spdm.initial.secured = false ∧ (aSess 0x2F Spdm.initial).denied = false ∧
    ctxLegal { aCtx with window := 0 } = false ∧ ctxLegal aCtx = true ∧ (List.range 64).find? (fun n => (assocGet tHost.contexts n).isNone) = some 1 ∧
    ((tHost.taken { tH with op := 0x10 } (aSess 0x2F Spdm.initial)).makeContext 1 1 aCtx).isSome = true ∧
    (∀ n, n < 64 → (assocGet ((List.range 64).map (fun n => (n, Context.absent))) n).isSome = true) := by decide +kernel
theorem witness_HostCommands_policies : (64 ≤ 512 ∧ 512 ≤ 512 ∧ 512 % 64 = 0) ∧ (aSess 0x2F Spdm.initial).feature 2 = true ∧ windowLegal ⟨fabricBase, 1, 0, 1⟩ = true ∧
    windowLegal ⟨fabricBase, 0, 0, 1⟩ = false ∧ assocGet tHost.contexts 63 = none ∧ (aSess 0x2F Spdm.initial).feature 5 = true ∧ (tHost.group 63).owner = none ∧
    ((tHost.setGroup 63 { tHost.group 63 with owner := some 0 }).group 63).owner = some (tH.ctx.setWidth 6) ∧ [7].length ≤ 256 ∧ tHost.isFabric fabricBase = true := by decide +kernel
theorem witness_HostCommands_map : aMap.home ≠ 3#2 ∧ (aSess 0x2F Spdm.initial).denied = false ∧
    ((tHost.taken { tH with op := 0x12 } (aSess 0x2F Spdm.initial)).mapPages 0 aMap (some { tH with op := 0x12 })).1 = 0 ∧ tHost.mapLegal { aMap with size := 0 } = false := by decide +kernel
theorem witness_HostCommands_queue : let s := hosted (aSess 0x2F Spdm.initial) (withQueue aQueue 0x10200 0 [])
    let q : Queue := { Queue.absent with qid := 15, block := 0x10100, render := true, pxpois := true, aborted := false }
    (aSess 0x2F Spdm.initial).feature 0 = true ∧ 0x10100 % 32 = 0 ∧ assocGet (s.context 0).queues 15 = none ∧ s.blockOk 0 q = true ∧ s.blockWord 0 q 8 = 64 := by decide +kernel
def anImage : List Byte := leBytes 4 0x424F464D ++ leBytes 4 0x00010100 ++ leBytes 4 1 ++ leBytes 4 0 ++ leBytes 4 1 ++ leBytes 4 64 ++ leBytes 4 80 ++ leBytes 4 80 ++ leBytes 4 112 ++
  leBytes 4 8 ++ leBytes 4 8 ++ List.replicate 20 0 ++ leBytes 4 0 ++ leBytes 4 0 ++ leBytes 4 8 ++ leBytes 4 120 ++ List.replicate 32 0 ++ List.replicate 8 0 ++ [1, 2, 3, 4, 5, 6, 7, 8]
theorem witness_HostCommands_code : anImage.length = 128 ∧ Image.wellFormed anImage = true ∧ Image.versionOk anImage = true ∧ Image.wellFormed (List.replicate 128 0) = false ∧
    (Image.secs anImage = [(0, 0, 8, 120)] ∧ 0 + 8 ≤ (tHost.context 0).window) ∧ (∀ va ∈ pagePoints 0 8, (tHost.anyPa 0 va).isSome = true) ∧ { tH with length := 128 }.length.toNat = anImage.length := by
  decide +kernel
/-- R422, R87: the section's bytes stand at its place. -/
theorem test_load_code : cellTake (got (execLoadCode { tH with op := 0x14, length := 128 } anImage tHost) tM).mem 0x50000 8 = [1, 2, 3, 4, 5, 6, 7, 8] := by decide +kernel
theorem witness_HostCommands_submit : let b := recBytes 0 0 1 0
    let s := fun (com : Nat) => hosted (aSess 0x2F Spdm.initial) (withQueue aQueue 0x10200 com [])
    b.length = 64 ∧ TaskRec.valid b false = true ∧ ∀ com ∈ [0, 4], assocGet ((s com).context 0).queues 0 = some aQueue ∧ (s com).submitWaits 0 aQueue = false ∧ aQueue.aborted = false ∧
      (s com).blockOk 0 aQueue = true ∧ (s com).queueRoom 0 aQueue = 4 - com ∧ (s com).areaOk 0 ((s com).nextSlot 0 aQueue 0) 64 .write = true := by decide +kernel
theorem witness_HostCommands_rdma : tHost.ctxOfKey (tHost.context 0).mkey = some 0 ∧ tHost.hostPorts ≠ 0 ∧ 0x10000 + 4 ≤ 2 ^ 56 ∧ tHost.areaOk 0 0x10000 4 .read = true ∧
    tHost.areaOk 0 0x10000 4 .write = true := by decide +kernel

/-! ### Debugging and the responder -/

def tAttached (f : Wave → Wave) : State := let s := hosted (aSess 0x2F secure) (tM.modWave ⟨0, 0⟩ f); s.setContext 0 { s.context 0 with debugger := true }
def halted (w : Wave) : Wave := { w with dbgStopped := true }
theorem debug_ok : ∀ f ∈ [id, halted], (tAttached f).hostPorts ≠ 0 ∧ (tAttached f).sessionBusy 1 = false ∧ assocGet (tAttached f).sessions 1 = some (aSess 0x2F secure) ∧
    assocGet (tAttached f).contexts 0 = some ((tAttached f).context 0) ∧ ((tAttached f).context 0).session = 1 ∧ ((tAttached f).context 0).ended = false := by
  intro f hf
  rcases List.mem_pair.mp hf with rfl | rfl <;> decide +kernel
theorem witness_DebugAndSpdm_accepts : ∀ f ∈ [id, halted], (tAttached f).acceptsOn { tH with op := 0x19 } (aSess 0x2F secure) ((tAttached f).context 0) 0x19 ∧
    (tAttached f).Accepts { tH with op := 0x20 } (aSess 0x2F secure) 0x20 := fun f hf =>
  let ⟨a, b, c, d, e, g⟩ := debug_ok f hf
  ⟨on_of 0x19 _ _ _ ⟨a, b, c⟩ ⟨rfl, rfl⟩ ⟨d, e, g⟩, accepts_of 0x20 _ _ ⟨a, b, c⟩ ⟨rfl, rfl⟩⟩
theorem witness_DebugAndSpdm_running : let s := tAttached id
    (aSess 0x2F secure).feature 3 = true ∧ (aSess 0x27 secure).feature 3 = false ∧ (s.context 0).debugger = true ∧ s.debuggable 0 (s.context 0) ⟨0, 0⟩ = true ∧
    s.debuggable 0 (s.context 0) ⟨1023, 63⟩ = false ∧ (s.team (s.wave ⟨0, 0⟩).team).teamStop = false ∧
    ((s.modTeam 0 (fun t => { t with teamStop := true })).team ((s.modTeam 0 (fun t => { t with teamStop := true })).wave ⟨0, 0⟩).team).teamStop = true ∧
    (s.waves.map Prod.fst).Nodup ∧ (assocGet s.teams 0).isSome = true ∧ (s.team 0).ctx = 0 ∧ (∀ p ∈ s.waves, p.2.team = 0 → p.2.dbgStopped = false) := by decide +kernel
/-- A stopped wave can be stepped and written; each name of a register at the ends of its range. -/
def atStep (f : Wave → Wave) : State × Wave :=
  let s := tAttached f
  let w := { (s.wave ⟨0, 0⟩).resume with dbgStopped := true }
  ((s.taken { tH with op := 0x19 } (aSess 0x2F secure)).setWave ⟨0, 0⟩ w, { w with dbgStep := true })
theorem witness_DebugAndSpdm_stopped : let s := tAttached halted
    (s.wave ⟨0, 0⟩).dbgStopped = true ∧ s.debuggable 0 (s.context 0) ⟨0, 0⟩ = true ∧ (atStep halted).1.meets ⟨0, 0⟩ (atStep halted).2 = none ∧
    ((atStep halted).1.waveCands ⟨0, 0⟩ (atStep halted).2).any Cand.ready = true ∧ s.rowsFree 0 ≠ 0 ∧
    (∀ r ∈ [DebugReg.v 0 0, .v 61 31, .s 61, .p 6 31, .q 6, .b 15, .pc 31, .fpc, .trap 7], ((s.wave ⟨0, 0⟩).debugGet r).isSome = true ∧ ((s.wave ⟨0, 0⟩).debugSet (s.pool 0) r 0).isSome = true) ∧
    (∃ p ∈ s.waves, p.2.team = 0 ∧ p.2.dbgStopped = true) ∧ (1#64).toNat % 4 ≠ 0 := by decide +kernel
/-- A stopped wave with no path to step. -/
def stuck (w : Wave) : Wave := halted (w.blockAs (BitVec.allOnes 32) .waiting)
theorem witness_DebugAndSpdm_held : (atStep stuck).1.waveCands ⟨0, 0⟩ (atStep stuck).2 = [] ∧ (atStep stuck).1.meets ⟨0, 0⟩ (atStep stuck).2 = none := by decide +kernel
theorem witness_DebugAndSpdm_responder : (aSess 0x2F ⟨1, 0, none, false⟩).spdm.stage = 1 ∧ Spdm.initial.stage ≠ 1 ∧ (aSess 0x2F ⟨2, 0, none, false⟩).spdm.stage = 2 ∧ 31 % 16 = 15 ∧
    3 ≤ secure.stage ∧ 65535 ≤ 65535 ∧ Spdm.initial.stage < 3 ∧ secure.exchanged.isSome = true ∧ secure.secured = true := by decide

/-! ### Words, steps, reset, memory -/

def litIadd : Instr := .iadd ⟨3, 1, 63, false, false, 7, false, 0xDEADBEEF⟩
theorem witness_DecodeEncode : litIadd.opcode.isSome = true ∧ litIadd.wellFormed = true ∧ illegal litIadd = none ∧ litIadd.takesLit = true ∧
    decode (encodeBytes litIadd ++ [1, 2, 3]) = .ok (litIadd, [1, 2, 3]) := by decide +kernel
def litWord : Nat := (0x06#8 ++ 3#6 ++ 1#6 ++ 63#6 ++ 0#1 ++ 0#1 ++ 7#3 ++ 0#1 : Word).toNat + 0xDEADBEEF * 2 ^ 32
def tNext : State := State.reset.withFetchWord 64 litWord
/-- An instruction with a literal, fetched and run by the next step; and a wave-wide one (BARARR), whose threads are held. -/
theorem witness_StepRunsDecoded : (match tNext.fetchXlat 0 0, tNext.fetchXlat 0 4 with
      | .ok _ _ _, .ok _ _ _ => true
      | _, _ => false) = true ∧
    (tNext.context 0).codeWord 0 ++ (tNext.context 0).codeWord 4 = encodeBytes litIadd ∧ litIadd.opcode.isSome = true ∧ litIadd.wellFormed = true ∧ illegal litIadd = none ∧
    tNext.scouts = [] ∧ tNext.blendNext.isNone = true ∧ tNext.pending = [] ∧ tNext.agenda = [] ∧ tNext.accidents = [] ∧ tNext.phase = true ∧ tNext.waves = [(⟨0, 0⟩, tNext.wave ⟨0, 0⟩)] ∧
    (tNext.wave ⟨0, 0⟩).mayIssue = true ∧ (tNext.context 0).debugger = false ∧ (match tNext.fetch 0 0 with
      | .instr i next w => decide (next = 8) && (tNext.wave ⟨0, 0⟩).operandsReady i w && tNext.unitFree ⟨0, 0⟩ w
      | _ => false) = true ∧ (tNext.wave ⟨0, 0⟩).live ≠ 0 := by decide +kernel
theorem witness_StepRunsDecoded_lanes : ∀ n ∈ [litWord, 0xAD000000], let w := (State.reset.withFetchWord 64 n).wave ⟨0, 0⟩
    ∀ j : Fin 32, w.lanes[j].pc = 0 ∧ w.lanes[j].stopped = false ∧ (if isWaveWide (n / 2 ^ 24 % 256) then w.lanes[j].block = .held else w.lanes[j].block = .none ∧ w.lanes[j].yieldSpan = .none) := by
  decide +kernel
/-- The second issue of a clock is still to run. -/
def tSecond : State := { tNext with pending := [⟨⟨0, 0⟩, 2, 0, 8, 0, .pair, 0⟩], phase := false }
theorem witness_StepRunsDecoded_pending : tSecond.scouts = [] ∧ tSecond.blendNext.isNone = true ∧ tSecond.hasWave ⟨0, 0⟩ = true ∧ (tSecond.wave ⟨0, 0⟩).growStall = false ∧
    (tSecond.wave ⟨0, 0⟩).handler = false ∧ (match tSecond.fetch 0 0 with
      | .instr _ _ _ => true
      | _ => false) = true := by decide +kernel
theorem witness_StepKeepsMemoryForm : Memory.wf tNext.mem ∧ (match step tNext with
      | .next _ => true
      | _ => false) = true := by decide +kernel
/-- Accidents come one clock at a time: a core reads hot at clock 1; a lane word of row 0 has lost its parity (R174, R318). -/
def tHurt : State := { tNext with accidents := [(1, .heat 0 90 80), (0, .row 0 0 5), (1, .heat 0 70 80)] }
theorem test_accidents : tHurt.tick.tick.clock = 2 ∧ (tHurt.tick.core 0).hotSince = some 1 ∧ (tHurt.tick.tick.core 0).hotSince = none ∧
    tHurt.tick.tick.accidents = [] ∧ (tHurt.tick.wave ⟨0, 0⟩).rows.any (fun r => r.2.place = 0 && r.2.par = 0x20) = true := by decide +kernel

end Sys2Proof.Tests
end

/-! PROOFS. The integer functions of the model as the operations on words that the rules name (R94 to R100). -/

namespace Sys2Proof.Machine.Int32

/-! ### Minimum, maximum and absolute value (R94, R95) -/

theorem smin_eq (a b : Word) : smin a b = if b.slt a then b else a := by
  simp only [smin, BitVec.slt_iff_toInt_lt, ← Int.not_le, ite_not]

theorem smax_eq (a b : Word) : smax a b = if a.sle b then b else a := by
  simp only [smax, BitVec.sle_iff_toInt_le]

theorem umin_eq (a b : Word) : umin a b = if b.ult a then b else a := by
  simp only [umin, BitVec.ult_iff_toNat_lt, ← Nat.not_le, ite_not]

theorem umax_eq (a b : Word) : umax a b = if a.ule b then b else a := by
  simp only [umax, BitVec.ule_iff_le, BitVec.le_def]

theorem abs_eq (a : Word) : abs a = if a.slt 0 then -a else a := by
  rw [abs, show 0 - a = -a from BitVec.zero_sub a, show a.slt 0 = a.msb from BitVec.slt_zero_eq_msb]

/-! ### Shift amounts (R94, R96, R99) -/

/-- A mask of n ones keeps a word modulo 2^n. -/
theorem toNat_and_ones (b m : Word) (n : Nat) (hm : m.toNat = 2 ^ n - 1) : (b &&& m).toNat = b.toNat % 2 ^ n := by
  rw [BitVec.toNat_and, hm, Nat.and_two_pow_sub_one_eq_mod]

theorem shiftAmount_eq (b : Word) : shiftAmount b = b.toNat % 64 := toNat_and_ones b 63 6 rfl

/-- The amount of SHLI, SHRI and SARI: the low five bits of the immediate. -/
theorem zextImm_amount (imm : BitVec 12) : (zextImm imm &&& 31).toNat % 64 = imm.toNat % 32 := by
  rw [toNat_and_ones _ 31 5 rfl, zextImm, BitVec.toNat_setWidth_of_le (by decide)]
  omega

/-! ### Bit fields (R100) -/

theorem bfPos_eq (c : Word) : bfPos c = fieldPos c := by
  simp [bfPos, fieldPos, BitVec.extractLsb'_toNat]

theorem bfLen_eq (c : Word) : bfLen c = fieldLen c := by
  simp [bfLen, fieldLen, BitVec.extractLsb'_toNat, Nat.shiftRight_eq_div_pow]

theorem bfPos_lt (c : Word) : bfPos c < 32 := (c.extractLsb' 0 5).isLt

/-- A field ends at bit 31 at the latest. -/
theorem lt_fieldWidth_iff (pos len j : Nat) : j < fieldWidth pos len ↔ j < len ∧ pos + j < 32 := by unfold fieldWidth; omega

/-- A field zero-extended: its bits at the foot of a word. -/
theorem fieldU_eq_setWidth (a : Word) (pos len : Nat) :
    fieldU a pos len = (a.extractLsb' pos (fieldWidth pos len)).setWidth 32 := by
  apply BitVec.eq_of_toNat_eq
  simp [fieldU, BitVec.extractLsb'_toNat, Nat.shiftRight_eq_div_pow]

/-- A field sign-extended from its top bit. -/
theorem fieldS_eq_signExtend (a : Word) (pos len : Nat) :
    fieldS a pos len = (a.extractLsb' pos (fieldWidth pos len)).signExtend 32 := by
  simp only [fieldS, BitVec.signExtend]
  generalize fieldWidth pos len = n
  cases n with
  | zero => simp
  | succ n =>
    rw [if_neg n.succ_ne_zero, BitVec.toInt_eq_toNat_cond, BitVec.extractLsb'_toNat, Nat.shiftRight_eq_div_pow]
    generalize a.toNat / 2 ^ pos % 2 ^ (n + 1) = v
    rw [Nat.add_sub_cancel, pow_succ]
    congr 1
    push_cast
    split_ifs <;> omega

/-- BFEU (R100): the bits of the field, zeros above. -/
theorem bitsFrom_unsigned (a : Word) (pos len : Nat) : bitsFrom a pos len false = fieldU a pos len := by
  rw [fieldU_eq_setWidth]
  apply BitVec.eq_of_getLsbD_eq
  intro j hj
  rw [bitsFrom, BitVec.getLsbD_ofFnLE, dif_pos hj, BitVec.getLsbD_setWidth, BitVec.getLsbD_extractLsb']
  by_cases h : j < len ∧ pos + j < 32
  · simp [h, hj, lt_fieldWidth_iff]
  · simp [h, lt_fieldWidth_iff]

/-- BFES (R100): the bits of the field, copies of its top bit above, and 0 for an empty field. -/
theorem bitsFrom_signed (a : Word) (pos len : Nat) (hp : pos < 32) : bitsFrom a pos len true = fieldS a pos len := by
  rw [fieldS_eq_signExtend]
  apply BitVec.eq_of_getLsbD_eq
  intro j hj
  rw [bitsFrom, BitVec.getLsbD_ofFnLE, dif_pos hj, BitVec.getLsbD_signExtend, BitVec.msb_eq_getLsbD_last,
    BitVec.getLsbD_extractLsb', BitVec.getLsbD_extractLsb']
  by_cases h : j < len ∧ pos + j < 32
  · simp [h, hj, lt_fieldWidth_iff]
  · rw [if_neg h, if_neg ((lt_fieldWidth_iff pos len j).not.mpr h)]
    by_cases h0 : len = 0
    · simp [h0, fieldWidth]
    · have hne : fieldWidth pos len - 1 < fieldWidth pos len := by unfold fieldWidth; omega
      have htop : pos + (fieldWidth pos len - 1) = min (pos + len) 32 - 1 := by unfold fieldWidth; omega
      simp [h0, hj, hne, htop]

theorem bfTake_unsigned (a c : Word) : bfTake a c false = bfeu a c := by
  rw [bfTake, bitsFrom_unsigned, bfPos_eq, bfLen_eq, bfeu]

theorem bfTake_signed (a c : Word) : bfTake a c true = bfes a c := by
  rw [bfTake, bitsFrom_signed a _ _ (bfPos_lt c), bfPos_eq, bfLen_eq, bfes]

/-- The mask of a field, bit by bit. -/
theorem fieldMask_get (pos n j : Nat) (hj : j < 32) :
    (BitVec.ofNat 32 ((2 ^ n - 1) * 2 ^ pos)).getLsbD j = decide (pos ≤ j ∧ j < pos + n) := by
  rw [BitVec.getLsbD_ofNat, Nat.testBit_mul_two_pow, Nat.testBit_two_pow_sub_one, decide_eq_true hj, Bool.true_and, ← Bool.decide_and]
  exact decide_eq_decide.mpr (by omega)

theorem bfPut_eq (a b c : Word) : bfPut a b c = bfi a b c := by
  rw [bfPut, bfPos_eq, bfLen_eq, bfi]
  apply BitVec.eq_of_getLsbD_eq
  intro j hj
  have hfield : fieldPos c ≤ j ∧ j < fieldPos c + fieldWidth (fieldPos c) (fieldLen c) ↔
      fieldPos c ≤ j ∧ j < fieldPos c + fieldLen c := by unfold fieldWidth; omega
  simp only [fieldInsert, BitVec.getLsbD_ofFnLE, hj, dif_pos, BitVec.getLsbD_or, BitVec.getLsbD_and, BitVec.getLsbD_not,
    fieldMask_get _ _ _ hj, hfield]
  rw [BitVec.getLsbD_ofNat, Nat.testBit_mul_two_pow]
  by_cases h : fieldPos c ≤ j ∧ j < fieldPos c + fieldLen c
  · simp [h, hj, BitVec.testBit_toNat]
  · simp [h]

end Sys2Proof.Machine.Int32

/-! PROOFS. The integer lane instructions of one result word: each is its operand form over an integer function, so what it does is the
lemma of that form together with the equation of that function. -/

namespace Sys2Proof.Proofs.LaneInteger

open Sys2Proof.Machine Sys2Proof.Laws

/-! ### Each instruction as its operand form over an integer function (R91 to R100) -/

theorem exec_mov (f : V3) (s : State) : exec (.mov f) s = s.v3One f id := rfl
theorem exec_iabs (f : V3) (s : State) : exec (.iabs f) s = s.v3One f Machine.Int32.abs := rfl
theorem exec_iadd (f : V3) (s : State) : exec (.iadd f) s = s.v3Op f (fun a b => a + b) := rfl
theorem exec_isub (f : V3) (s : State) : exec (.isub f) s = s.v3Op f (fun a b => a - b) := rfl
theorem exec_imul (f : V3) (s : State) : exec (.imul f) s = s.v3Op f (fun a b => a * b) := rfl
theorem exec_imulhs (f : V3) (s : State) : exec (.imulhs f) s = s.v3Op f Int32.mulhs := rfl
theorem exec_imulhu (f : V3) (s : State) : exec (.imulhu f) s = s.v3Op f Int32.mulhu := rfl
theorem exec_imin (f : V3) (s : State) : exec (.imin f) s = s.v3Op f Int32.smin := rfl
theorem exec_imax (f : V3) (s : State) : exec (.imax f) s = s.v3Op f Int32.smax := rfl
theorem exec_umin (f : V3) (s : State) : exec (.umin f) s = s.v3Op f Int32.umin := rfl
theorem exec_umax (f : V3) (s : State) : exec (.umax f) s = s.v3Op f Int32.umax := rfl
theorem exec_and (f : V3) (s : State) : exec (.and f) s = s.v3Op f (fun a b => a &&& b) := rfl
theorem exec_or (f : V3) (s : State) : exec (.or f) s = s.v3Op f (fun a b => a ||| b) := rfl
theorem exec_xor (f : V3) (s : State) : exec (.xor f) s = s.v3Op f (fun a b => a ^^^ b) := rfl
theorem exec_andn (f : V3) (s : State) : exec (.andn f) s = s.v3Op f Int32.andn := rfl
theorem exec_shl (f : V3) (s : State) : exec (.shl f) s = s.v3Op f Int32.shl := rfl
theorem exec_shr (f : V3) (s : State) : exec (.shr f) s = s.v3Op f Int32.shr := rfl
theorem exec_sar (f : V3) (s : State) : exec (.sar f) s = s.v3Op f Int32.sar := rfl
theorem exec_iaddi (f : VI) (s : State) : exec (.iaddi f) s = s.viOp f (fun a => a + sextImm f.imm) := rfl
theorem exec_andi (f : VI) (s : State) : exec (.andi f) s = s.viOp f (fun a => a &&& zextImm f.imm) := rfl
theorem exec_ori (f : VI) (s : State) : exec (.ori f) s = s.viOp f (fun a => a ||| zextImm f.imm) := rfl
theorem exec_xori (f : VI) (s : State) : exec (.xori f) s = s.viOp f (fun a => a ^^^ zextImm f.imm) := rfl
theorem exec_shli (f : VI) (s : State) : exec (.shli f) s = s.viOp f (fun a => Int32.shl a (zextImm f.imm &&& 31)) := rfl
theorem exec_shri (f : VI) (s : State) : exec (.shri f) s = s.viOp f (fun a => Int32.shr a (zextImm f.imm &&& 31)) := rfl
theorem exec_sari (f : VI) (s : State) : exec (.sari f) s = s.viOp f (fun a => Int32.sar a (zextImm f.imm &&& 31)) := rfl
theorem exec_perm (f : V4) (s : State) : exec (.perm f) s = s.v4Op f Int32.perm := rfl
theorem exec_imad (f : V4) (s : State) : exec (.imad f) s = s.v4Op f (fun a b c => a * b + c) := rfl
theorem exec_shf (f : V4) (s : State) : exec (.shf f) s = s.v4Op f Int32.funnel := rfl
theorem exec_bfi (f : V4) (s : State) : exec (.bfi f) s = s.v4Op f Int32.bfi := rfl

/-! ### The instructions of no such form: MOVI, BCAST, BFEU, BFES, BIT, PMOV.PTOV and SEL (R91, R92, R100, R101, R104) -/

theorem exec_movi (f : VI) (s : State) :
    exec (.movi f) s = s.laneOp [] [] 7#3 false f.d (fun _ _ => sextImm f.imm) (fun _ => 0) := rfl

theorem exec_bcast (f : VI) (s : State) : exec (.bcast f) s =
    s.laneOp [] [] 7#3 false f.d (fun w _ => w.sreg f.a 0) (fun w => if w.sregPois f.a then allLanes else 0) := rfl

theorem exec_bfeu (f : V4) (s : State) : exec (.bfeu f) s = s.laneOp (vname f.a ++ vname f.c) [] 7#3 false f.d
    (fun w i => Int32.bfeu (w.vsrc f.a f.lit i) (w.vsrc f.c f.lit i)) (fun w => w.vsrcPois f.a ||| w.vsrcPois f.c) := rfl

theorem exec_bfes (f : V4) (s : State) : exec (.bfes f) s = s.laneOp (vname f.a ++ vname f.c) [] 7#3 false f.d
    (fun w i => Int32.bfes (w.vsrc f.a f.lit i) (w.vsrc f.c f.lit i)) (fun w => w.vsrcPois f.a ||| w.vsrcPois f.c) := rfl

theorem exec_bit (f : VX) (s : State) : exec (.bit f) s = s.laneOp (vname f.a) [] 7#3 false f.d
    (fun w i => Int32.bitOp f.fn.toNat (w.vsrc f.a f.lit i)) (fun w => w.vsrcPois f.a) := rfl

theorem exec_pmov_toVector (f : VX) (s : State) (h : f.fn = 0) : exec (.pmov f) s =
    s.laneOp [] [] 7#3 false f.d (fun w i => w.lanes[i].preds.setWidth 32) (fun w => w.laneMask (fun l => l.predPois != 0)) :=
  if_pos h

theorem exec_sel (f : V3) (s : State) (h : s.cur.guardPois s.sel.mask f.g = 0) : exec (.sel f) s =
    s.laneOp (vname f.a ++ vname f.b) (markNames f.ka f.kb (vname f.a) (vname f.b)) 7#3 false f.d
      (fun w i => if w.lanes[i].p f.g != f.gn then w.vsrc f.a f.lit i else w.vsrc f.b f.lit i)
      (fun w => (w.vsrcPois f.a &&& w.guardLanes s.sel.mask f.g f.gn) ||| (w.vsrcPois f.b &&& ~~~w.guardLanes s.sel.mask f.g f.gn)) :=
  if_neg (not_not_intro h)

/-- A packed predicate word is the low word of its result, whatever its width. -/
theorem loWord_setWidth_narrow {n : Nat} (x : BitVec n) : loWord (x.setWidth 64) = x.setWidth 32 := by
  rw [loWord, BitVec.setWidth_setWidth_of_le _ (by decide)]

/-! ### The statement -/

/-- Settles O1: the lemma of each instruction's operand form, with the equation of its integer function. -/
theorem laneIntegerResults : Obligations.LaneIntegerResults := by
  unfold Obligations.LaneIntegerResults
  intro s
  exact ⟨
    fun f => v3One_of _ f s _ _ (exec_mov f s) (fun _ => rfl),
    fun f => plainOp_of _ s _ _ _ _ _ _ (exec_movi f s) (fun _ => lo_set _) (fun _ => rfl) rfl,
    fun f => plainOp_of _ s _ _ _ _ _ _ (exec_bcast f s) (fun _ => lo_set _) (fun _ => rfl) rfl,
    fun f => v4Op_of _ f s _ _ (exec_perm f s) (fun _ _ _ => rfl),
    fun f => v3Op_of _ f s _ _ (exec_iadd f s) (fun _ _ => rfl),
    fun f => v3Op_of _ f s _ _ (exec_isub f s) (fun _ _ => rfl),
    fun f => viOp_of _ f s _ _ (exec_iaddi f s) (fun _ => rfl),
    fun f => v3Op_of _ f s _ _ (exec_imul f s) (fun _ _ => rfl),
    fun f => v3Op_of _ f s _ _ (exec_imulhs f s) (fun _ _ => rfl),
    fun f => v3Op_of _ f s _ _ (exec_imulhu f s) (fun _ _ => rfl),
    fun f => v4Op_of _ f s _ _ (exec_imad f s) (fun _ _ _ => rfl),
    fun f => v3Op_of _ f s _ _ (exec_imin f s) (fun a b => (Int32.smin_eq a b).symm),
    fun f => v3Op_of _ f s _ _ (exec_imax f s) (fun a b => (Int32.smax_eq a b).symm),
    fun f => v3Op_of _ f s _ _ (exec_umin f s) (fun a b => (Int32.umin_eq a b).symm),
    fun f => v3Op_of _ f s _ _ (exec_umax f s) (fun a b => (Int32.umax_eq a b).symm),
    fun f => v3One_of _ f s _ _ (exec_iabs f s) (fun a => (Int32.abs_eq a).symm),
    fun f => v3Op_of _ f s _ _ (exec_and f s) (fun _ _ => rfl),
    fun f => v3Op_of _ f s _ _ (exec_or f s) (fun _ _ => rfl),
    fun f => v3Op_of _ f s _ _ (exec_xor f s) (fun _ _ => rfl),
    fun f => v3Op_of _ f s _ _ (exec_andn f s) (fun _ _ => rfl),
    fun f => viOp_of _ f s _ _ (exec_andi f s) (fun _ => rfl),
    fun f => viOp_of _ f s _ _ (exec_ori f s) (fun _ => rfl),
    fun f => viOp_of _ f s _ _ (exec_xori f s) (fun _ => rfl),
    fun f => v3Op_of _ f s _ _ (exec_shl f s) (fun a b => by rw [Int32.shiftAmount_eq, Int32.shl]),
    fun f => v3Op_of _ f s _ _ (exec_shr f s) (fun a b => by rw [Int32.shiftAmount_eq, Int32.shr]),
    fun f => v3Op_of _ f s _ _ (exec_sar f s) (fun a b => by rw [Int32.shiftAmount_eq, Int32.sar]),
    fun f => viOp_of _ f s _ _ (exec_shli f s) (fun a => by rw [Int32.shl, Int32.zextImm_amount]),
    fun f => viOp_of _ f s _ _ (exec_shri f s) (fun a => by rw [Int32.shr, Int32.zextImm_amount]),
    fun f => viOp_of _ f s _ _ (exec_sari f s) (fun a => by rw [Int32.sar, Int32.zextImm_amount]),
    fun f => v4Op_of _ f s _ _ (exec_shf f s) (fun a b c => by rw [Int32.shiftAmount_eq, Int32.funnel]),
    fun f => plainOp_of _ s _ _ _ _ _ _ (exec_bfeu f s) (fun _ => by rw [lo_set, Int32.bfTake_unsigned]) (fun _ => rfl) rfl,
    fun f => plainOp_of _ s _ _ _ _ _ _ (exec_bfes f s) (fun _ => by rw [lo_set, Int32.bfTake_signed]) (fun _ => rfl) rfl,
    fun f => v4Op_of _ f s _ _ (exec_bfi f s) Int32.bfPut_eq,
    fun f => plainOp_of _ s _ _ _ _ _ _ (exec_bit f s) (fun _ => lo_set _) (fun _ => rfl) rfl,
    fun f hg => op_of _ _ s rfl _ _ (fun j => by simp only [lo_set, bne_iff_ne, ne_eq, ite_not]) (fun _ => rfl) rfl (exec_sel f s hg),
    fun f hfn => plainOp_of _ s _ _ _ _ _ _ (exec_pmov_toVector f s hfn) (fun _ => loWord_setWidth_narrow _) (fun _ => rfl) rfl⟩

end Sys2Proof.Proofs.LaneInteger

/-! PROOFS. NOP and UNOP: the issue of an instruction that reads and writes nothing, and the words of NOP. -/

namespace Sys2Proof.Proofs.Nops

open Sys2Proof.Machine Sys2Proof.Laws

/-! ### What the two instructions do -/

/-- A lane instruction without operands needs no row, so only its guard can stop it. -/
theorem laneBegin_no_operands (s : State) (g : BitVec 3) (gn : Bool) (hg : s.cur.guardPois s.sel.mask g = 0) (hu : s.unarmed) :
    s.laneBegin [] g gn [] [] = .go (s.setWave s.sel.key s.cur) (s.cur.guardLanes s.sel.mask g gn) := by
  have hneed : (s.cur.clearMarks s.sel.mask []).rowNeed [] = 0 := rfl
  simp only [State.laneBegin, hg, hneed, ne_eq, not_true_eq_false, if_false, List.any_nil, Bool.and_false, Bool.false_eq_true, ite_self,
    mustStall_room s 0 0 _ (.inl rfl) le_rfl, readParity_unarmed s _ _ hu]

theorem moved_eq (s : State) : s.moved = s.cur.moveTo s.sel.mask s.sel.next := rfl

theorem exec_nop (s : State) (f : V3) (hg : s.cur.guardPois s.sel.mask f.g = 0) (hu : s.unarmed) :
    exec (.nop f) s = .next (s.setWave s.sel.key s.moved) := by
  obtain ⟨pool, hend⟩ := laneEnd_eq s [] (fun _ w => w)
  show execNop f s = _
  rw [execNop, laneBegin_no_operands s f.g f.gn hg hu, moved_eq]
  exact congrArg Host.Outcome.next hend

theorem exec_unop (s : State) (f : U3) (hq : s.cur.qp f.qg = false) : exec (.unop f) s = .next (s.setWave s.sel.key s.moved) := by
  show s.uniGuard f.qg f.qn (.next s.advance) = _
  simp only [State.uniGuard, hq, Bool.false_eq_true, if_false, ite_self, advance_eq, moved_eq]

/-! ### The words of NOP -/

theorem illegal_nop (f : V3) : illegal (.nop f) = if Legal.v3None f then none else some .illegalOperand := by
  show (if !Legal.v3None f then some Reject.illegalOperand else none) = _
  cases Legal.v3None f <;> rfl

/-- Opcode 0 is NOP in format V3, illegal with an operand. -/
theorem decodeWords_opcode_zero (w l : Word) (hw : w.extractLsb' 24 8 = 0) :
    decodeWords w l = if Legal.v3None (Fields.v3 w 0) then
        .ok (.nop (Fields.v3 w (if (Fields.v3 w 0).takesLit then l else 0)))
      else .error .illegalOperand := by
  have hparse : ∀ x, parse (w.extractLsb' 24 8).toNat w x = some (.nop (Fields.v3 w x)) := fun x => by rw [hw]; rfl
  have hlit : (Instr.nop (Fields.v3 w 0)).takesLit = (Fields.v3 w 0).takesLit := rfl
  simp only [decodeWords, hparse, illegal_nop, hlit]
  by_cases hn : Legal.v3None (Fields.v3 w 0) = true
  · by_cases hl : (Fields.v3 w 0).takesLit = true <;> simp only [hn, hl, if_true, if_false, Bool.false_eq_true]
  · simp only [hn, if_false, Bool.false_eq_true]

/-- A V3 word without operands has bits 23 to 4 zero. -/
theorem operandBits_of_v3None (w l : Word) (h : Legal.v3None (Fields.v3 w l) = true) : w.extractLsb' 4 20 = 0 := by
  simp only [Legal.v3None, Legal.zero, Fields.v3, Fields.fld, Fields.bit, Bool.and_eq_true, beq_iff_eq, Bool.not_eq_true'] at h
  obtain ⟨⟨⟨⟨⟨hd, ha⟩, hb⟩, hka⟩, hkb⟩, -⟩ := h
  have hk : w.extractLsb' 4 2 = 0 := by
    apply BitVec.eq_of_getLsbD_eq
    intro i hi
    rw [BitVec.getLsbD_extractLsb']
    interval_cases i
    · exact hkb
    · exact hka
  have hab : w.extractLsb' 6 12 = w.extractLsb' 12 6 ++ w.extractLsb' 6 6 :=
    (BitVec.extractLsb'_append_extractLsb'_eq_extractLsb' (len₁ := 6) (len₂ := 6) rfl).symm
  have habk : w.extractLsb' 4 14 = w.extractLsb' 6 12 ++ w.extractLsb' 4 2 :=
    (BitVec.extractLsb'_append_extractLsb'_eq_extractLsb' (len₁ := 2) (len₂ := 12) rfl).symm
  have hall : w.extractLsb' 4 20 = w.extractLsb' 18 6 ++ w.extractLsb' 4 14 :=
    (BitVec.extractLsb'_append_extractLsb'_eq_extractLsb' (len₁ := 14) (len₂ := 6) rfl).symm
  rw [hall, habk, hab, hd, ha, hb, hk]
  rfl

/-- Settles O9: the execution of both instructions, and the decoding of opcode 0. -/
theorem nopsOnlyAdvance : Obligations.NopsOnlyAdvance := by
  unfold Obligations.NopsOnlyAdvance
  refine ⟨fun s => ⟨exec_nop s, exec_unop s⟩, fun l => ?_, fun l => ?_, fun w l hop hbits => ?_⟩
  · rw [decodeWords_opcode_zero _ l rfl]; rfl
  · rw [decodeWords_opcode_zero _ l rfl]; rfl
  · rw [decodeWords_opcode_zero w l hop, if_neg fun h => hbits (operandBits_of_v3None w 0 h)]

end Sys2Proof.Proofs.Nops

/-! PROOFS. What more than one uniform instruction needs: the guard when it is clean, an effect on the wave under it, and the refusal of a
word whose operation is assigned and whose operands are not in order. -/

namespace Sys2Proof.Proofs.UniformShared

open Sys2Proof.Machine Sys2Proof.Laws

/-! ### The guard and the effect under it (R70, R135) -/

theorem uniGuard_false (s : State) (qg : BitVec 3) (qn : Bool) (effect : Res) (hp : s.cur.qp qg = false) (hq : s.cur.q qg = qn) :
    s.uniGuard qg qn effect = .next (s.setWave s.sel.key s.moved) := by
  rw [State.uniGuard, if_neg (by rw [hp]; decide), if_pos hq]; rfl

theorem uniGuard_true (s : State) (qg : BitVec 3) (qn : Bool) (effect : Res) (hp : s.cur.qp qg = false) (hq : s.cur.q qg ≠ qn) :
    s.uniGuard qg qn effect = effect := by
  rw [State.uniGuard, if_neg (by rw [hp]; decide), if_neg hq]

theorem uniDone_eq (s : State) (f : Wave → Wave) :
    s.uniDone f = .next (s.setWave s.sel.key ((f s.cur).moveTo s.sel.mask s.sel.next)) := by
  simp only [State.uniDone, advance_eq, modCur_eq, setWave_sel_field, setWave_sel_cur, setWave_setWave]

/-! ### Refused words (R79) -/

theorem decodeWords_illegalOperand (w l : Word) (i : Instr) (hparse : parse (w.extractLsb' 24 8).toNat w 0 = some i)
    (hop : opAssigned i = true) (hok : operandsOk i = false) : decodeWords w l = .error .illegalOperand := by
  have hill : illegal i = some .illegalOperand := by simp only [illegal, hop, hok, Bool.not_true, Bool.not_false, Bool.false_eq_true, if_false, if_true]
  simp only [decodeWords, hparse, hill]

end Sys2Proof.Proofs.UniformShared

/-! PROOFS. FREE: the names of its masks, the rows of the wave after it, and the words of it that are refused. -/

namespace Sys2Proof.Proofs.Free

open Sys2Proof.Machine Sys2Proof.Laws Sys2Proof.Proofs.UniformShared

/-- A names v0 to v31 and B[29:0] v32 to v61 (R148). -/
theorem mem_freeNames (a b : Word) (n : Nat) :
    n ∈ freeNames a b ↔ (n < 32 ∧ a.getLsbD n) ∨ (32 ≤ n ∧ n < 62 ∧ b.getLsbD (n - 32)) := by
  rw [freeNames, List.mem_filter, List.mem_range]
  by_cases h : n < 32
  · rw [if_pos h]
    constructor
    · rintro ⟨-, ha⟩; exact .inl ⟨h, ha⟩
    · rintro (⟨-, ha⟩ | ⟨hn, -⟩)
      · exact ⟨by omega, ha⟩
      · omega
  · rw [if_neg h]
    constructor
    · rintro ⟨hn, hb⟩; exact .inr ⟨by omega, hn, hb⟩
    · rintro (⟨hn, -⟩ | ⟨-, hn, hb⟩)
      · exact absurd hn h
      · exact ⟨hn, hb⟩

/-- The names that a FREE of the wave selects. -/
def selected (w : Wave) (f : U3) : List Nat := freeNames (w.sreg f.a f.lit) (w.sreg f.b f.lit)

theorem exec_free (s : State) (f : U3) :
    exec (.free f) s = s.uniGuard f.qg f.qn (s.uniDone (fun w => w.clearMarks s.sel.mask (selected w f))) := rfl

/-- Under a true guard the wave differs in its rows and the PC of its path alone, and each selected name has lost the path's claims. -/
theorem exec_free_of_guard (s : State) (f : U3) (hp : s.cur.qp f.qg = false) (hq : s.cur.q f.qg ≠ f.qn) :
    ∃ rows, exec (.free f) s = .next (s.setWave s.sel.key { s.moved with rows := rows }) ∧
      ∀ n, assocGet rows n = if n ∈ selected s.cur f then unclaimed s.sel.mask (s.cur.row n) else s.cur.row n := by
  obtain ⟨rows, hrows⟩ := clearMarks_eq s.cur s.sel.mask (selected s.cur f)
  refine ⟨rows, ?_, fun n => ?_⟩
  · rw [exec_free, uniGuard_true s _ _ _ hp hq, uniDone_eq, hrows]; rfl
  · have hrow := clearMarks_row s.cur s.sel.mask (selected s.cur f) n
    rwa [hrows] at hrow

/-- A word of opcode C0H whose D is not 0 is none (R64, R148). -/
theorem decodeWords_free_d (w l : Word) (hw : w.extractLsb' 24 8 = 0xC0) (hd : w.extractLsb' 18 6 ≠ 0) :
    decodeWords w l = .error .illegalOperand := by
  refine decodeWords_illegalOperand w l (.free (Fields.u3 w 0)) (by rw [hw]; rfl) rfl ?_
  have hz : Legal.zero (Fields.u3 w 0).d = false := beq_false_of_ne hd
  show (Legal.zero (Fields.u3 w 0).d && Legal.u3Base (Fields.u3 w 0)) = false
  rw [hz, Bool.false_and]

/-- Settles O26: the rows after a FREE whose guard is true, the advance under a false one, and the refusal of a D other than 0. -/
theorem freeClearsClaims : Obligations.FreeClearsClaims := by
  unfold Obligations.FreeClearsClaims
  refine ⟨fun s f hp hq => ?_, fun s f hp hq => uniGuard_false s _ _ _ hp hq, decodeWords_free_d⟩
  obtain ⟨rows, hexec, hrow⟩ := exec_free_of_guard s f hp hq
  exact ⟨rows, hexec, fun n => by simp only [hrow, selected, mem_freeNames]⟩

end Sys2Proof.Proofs.Free

/-! PROOFS. RTT: the wave that leaves handler level, PRIV outside it, and the words of RTT that are refused. -/

namespace Sys2Proof.Proofs.ReturnFromTrap

open Sys2Proof.Machine Sys2Proof.Laws Sys2Proof.Proofs.UniformShared

/-! ### The wave that leaves handler level (R153) -/

/-- The lanes that RTT leaves: the live threads of TMASK at TPC and out of every block, no thread stopped. -/
def returnedLanes (w : Wave) : Lanes Lane := Vector.ofFn (fun i =>
  if w.lanes[i].status = .live ∧ w.tmask.getLsbD i.val then
    { w.lanes[i] with pc := w.tpc, block := .none, yieldSpan := .none, stopped := false }
  else { w.lanes[i] with stopped := false })

/-- The resuming threads move first, then every stop is lifted. -/
theorem returnedLanes_eq (w : Wave) :
    ((w.mapLanes (w.live &&& w.tmask) (fun _ l => { l with pc := w.tpc, block := .none, yieldSpan := .none })).mapLanes
      allLanes (fun _ l => { l with stopped := false })).lanes = returnedLanes w := by
  apply Vector.ext
  intro i hi
  have hall : allLanes.getLsbD i = true := by simp only [allLanes, BitVec.getLsbD_allOnes, hi, decide_true]
  have hback := mapLanes_get w (w.live &&& w.tmask) (fun _ l => { l with pc := w.tpc, block := .none, yieldSpan := .none }) ⟨i, hi⟩
  rw [BitVec.getLsbD_and, live_get] at hback
  have hstop := mapLanes_get (w.mapLanes (w.live &&& w.tmask) (fun _ l => { l with pc := w.tpc, block := .none, yieldSpan := .none }))
    allLanes (fun _ l => { l with stopped := false }) ⟨i, hi⟩
  rw [if_pos hall, hback] at hstop
  refine hstop.trans ?_
  rw [returnedLanes, Vector.getElem_ofFn]
  simp only [Bool.and_eq_true, decide_eq_true_eq]
  split <;> rfl

/-- Beyond the lanes, only handler level, the suppressed matches and the waits of the resuming threads change. -/
theorem leaveHandler_eq (w : Wave) : w.leaveHandler = { w with
    lanes := returnedLanes w
    handler := false
    matchSkip := w.matchSkip &&& ~~~(w.live &&& w.tmask)
    waits := (w.leaveWaits (w.live &&& w.tmask)).waits } := by
  unfold Wave.leaveHandler
  extract_lets back resumed unstopped
  have hunstopped : unstopped = { w with lanes := unstopped.lanes } := mapLanes_twice ..
  have hreturned : unstopped.lanes = returnedLanes w := returnedLanes_eq w
  rw [hreturned] at hunstopped
  generalize returnedLanes w = lanes at hunstopped
  clear_value unstopped
  subst hunstopped
  rfl

/-! ### RTT at handler level and outside it -/

theorem exec_rtt (s : State) (f : U3) :
    exec (.rtt f) s = if s.cur.handler then .next (s.modCur Wave.leaveHandler) else .next (s.trapHere causePriv s.sel.mask 0) := rfl

theorem exec_rtt_handler (s : State) (f : U3) (h : s.cur.handler = true) :
    exec (.rtt f) s = .next (s.setWave s.sel.key s.cur.leaveHandler) := by
  rw [exec_rtt, if_pos h, modCur_eq]

theorem rtt_traps_priv (s : State) (f : U3) (h : s.cur.handler = false) : s.traps (.rtt f) s.cur 0x03 s.sel.pc s.sel.mask 0 s.sel.word :=
  traps_of s (.rtt f) ⟨causePriv, false, s.sel.pc, s.sel.mask, 0, s.sel.word⟩ (by rw [exec_rtt, if_neg (by rw [h]; decide)]; rfl)

/-! ### The words of RTT -/

theorem operandsOk_rtt (f : U3) : operandsOk (.rtt f) = (Legal.u3None f && f.qg == 7#3) := rfl

/-- The fields of a word of RTT that is accepted are fixed: bits 23 to 6 are 0 and QG is 7. -/
theorem rttFields_of_operandsOk (w : Word) (h : operandsOk (.rtt (Fields.u3 w 0)) = true) : w.extractLsb' 6 18 = 0 ∧ w.extractLsb' 3 3 = 7 := by
  simp only [operandsOk_rtt, Legal.u3None, Legal.zero, Fields.u3, Fields.fld, Bool.and_eq_true, beq_iff_eq] at h
  obtain ⟨⟨⟨⟨hd, ha⟩, hb⟩, -⟩, hqg⟩ := h
  have hab : w.extractLsb' 6 12 = w.extractLsb' 12 6 ++ w.extractLsb' 6 6 :=
    (BitVec.extractLsb'_append_extractLsb'_eq_extractLsb' (len₁ := 6) (len₂ := 6) rfl).symm
  have hdab : w.extractLsb' 6 18 = w.extractLsb' 18 6 ++ w.extractLsb' 6 12 :=
    (BitVec.extractLsb'_append_extractLsb'_eq_extractLsb' (len₁ := 12) (len₂ := 6) rfl).symm
  refine ⟨?_, hqg⟩
  rw [hdab, hab, hd, ha, hb]; rfl

theorem decodeWords_rtt_fields (w l : Word) (hw : w.extractLsb' 24 8 = 0xC9) (hf : w.extractLsb' 6 18 ≠ 0 ∨ w.extractLsb' 3 3 ≠ 7) :
    decodeWords w l = .error .illegalOperand := by
  refine decodeWords_illegalOperand w l (.rtt (Fields.u3 w 0)) (by rw [hw]; rfl) rfl (Bool.eq_false_iff.2 fun hok => ?_)
  obtain ⟨hbits, hqg⟩ := rttFields_of_operandsOk w hok
  exact hf.elim (· hbits) (· hqg)

/-- Settles O15: the wave after RTT at handler level, PRIV outside it, and the refusal of words with other fixed fields. -/
theorem rttReturns : Obligations.RttReturns := by
  unfold Obligations.RttReturns
  refine ⟨fun s f h => ?_, rtt_traps_priv, decodeWords_rtt_fields⟩
  rw [exec_rtt_handler s f h, leaveHandler_eq, live_eq]
  rfl

end Sys2Proof.Proofs.ReturnFromTrap
